-- ==== Sys2Proof/Word.lean ====
section
/-! DEFINITION. The words of the machine: bytes, 32-bit register words, and the angle unit Q16 of R9. -/

namespace Sys2Proof

/-- One byte of a message or store. -/
abbrev Byte := BitVec 8

/-- One 32-bit register or slot word. -/
abbrev Word := BitVec 32

/-- An angle in Q16 degrees, 1 LSB = 1/65536 degree CA (R9). -/
abbrev Q16 := Int

end Sys2Proof
end

