-- ==== Sys2Proof/Syntax.lean ====
section
/-! DEFINITION. The commands of the block: one constructor of `Instr` for each row of spec/opcode_table.json, with
the operands the model gives it (the table gives none): where it happens, and what only the outside knows. -/

namespace Sys2Proof

/-- The two halves (R14). -/
inductive HalfId where
  | A | B
deriving DecidableEq, Repr, Inhabited

/-- The six wheel inputs, in the order of TRACKER_SET's INPUT code (R433). -/
inductive Inp where
  | ckf | ckd | cma | cmb | aux1 | aux2
deriving DecidableEq, Repr

/-- The four cores (R38). -/
inductive Core where
  | s0 | s1 | stewA | stewB
deriving DecidableEq, Repr

/-- The links of a half: the Leat and its hub link. -/
inductive Link where
  | leat | hub
deriving DecidableEq, Repr

/-- The transports that carry messages (R372). -/
inductive Transport where
  | eth1 | eth2 | spi | can
deriving DecidableEq, Repr

/-- The streams of check-failure counting (R386): a mailbox, or the CAN backup stream. -/
inductive Stream where
  | mailbox (n : Fin 8)
  | canBackup
deriving DecidableEq, Repr

/-- The tracker units (section Parts of the tracker). -/
inductive UnitId where
  | source | second
deriving DecidableEq, Repr

/-- Input level against the comparator band at enable (R69). -/
inductive InLevel where
  | below | inside | above
deriving DecidableEq, Repr

/-- The wiring conditions of R78. -/
inductive Cond where
  | openCircuit | shortGnd | shortBat | clipped | silent
deriving DecidableEq, Repr

/-- What happens at an EV pin (R206, R207, R222): a condition that has persisted, the driver in current limit or out of it, the level
the readback comparator reads. -/
inductive PinFlag where
  | shortHi | shortLo | mismatch
  | limit (on : Bool)
  | readback (v : Bool)
deriving DecidableEq, Repr

/-- The floodgate inputs (R225). -/
inductive FgIn where
  | fga | fgb
deriving DecidableEq, Repr

/-- The result stages of a lane (R323). -/
inductive Stage where
  | combustion | imep
deriving DecidableEq, Repr

/-- The references of a sense die (R275); `ss n` is the supply of P position n. -/
inductive RefId where
  | int | ext
  | ss (n : Fin 12)
deriving DecidableEq, Repr

/-- The slice groups (R268). -/
inductive Grp where
  | pGrp | iGrp | gGrp
deriving DecidableEq, Repr

/-- The areas that carry ECC (R502). `other` of a slot store names the slot. -/
inductive EccArea where
  | tarnRecord (idx : Nat)
  | tarnTrace (idx : Nat)
  | tarnTooth (idx : Nat)
  | hubSram
  | localSram (h : HalfId)
  | slotStore (h : HalfId) (k : Fin 1024)
deriving DecidableEq, Repr

/-- What a wheel edge brings from the pins: how many et after the previous command it comes, its polarity (true: to TOOTH), the positive and negative peak of the lobe
it ends (mV), the largest-magnitude excursion of the interval it ends (mV, signed), and the level held for most of that
interval (HALL). -/
structure EdgeIn where
  dt      : Nat
  pol     : Bool
  pkPos   : Nat
  pkNeg   : Nat
  exc     : Int
  gapHigh : Bool
deriving DecidableEq, Repr

/-- A change of level at the terminal of an SL pin (R347): the pin, how many SLUCLK periods before the command's own SLUCLK edge the
synchroniser first took it, and the level from there. -/
structure SlEdge where
  pin  : Fin 16
  ago  : Nat
  lvl  : Bool
deriving DecidableEq, Repr

/-- What the hub and the pins measure at a frame tick: V_IN (0.1 V), the input current (mA, R262), the readback levels of the EV pins
of each half (R207), REFIN (mV) of each half. -/
structure TickIn where
  vIn   : Nat
  iIn   : Nat
  rbA   : BitVec 48
  rbB   : BitVec 48
  refA  : Nat
  refB  : Nat
deriving DecidableEq, Repr

/-- A heartbeat frame (R28, R389): CRC result, alive counter, FRAME, and the sender's snapshot with the cycle counts
of the cylinders it committed in that frame. -/
structure Heartbeat where
  crcOk  : Bool
  alive  : BitVec 16
  frame  : Word
  state  : Nat
  valid  : Bool
  angle  : Int
  speed  : Nat
  astern : Bool
  counts : List (Nat × Word)
deriving DecidableEq, Repr

/-- The measurements behind a test DAC verdict (R298): means in 0.1 mV, for OPEN_SHORT the levels at 0 and 50 uA; for GAIN the errors in
0.001 % of span; and the sensor supply of the input in microvolts, which is the span of an input that converts by RATIO (R271). -/
structure TdacMeas where
  lo      : Int
  hi      : Int
  vss     : Int
  gainErr : Int
  ofsErr  : Int
deriving DecidableEq, Repr

/-- A foreground that overruns (R40, R41): the core, and how many et after its tick the foreground ends. -/
structure Overrun where
  core : Core
  ends : Nat
deriving DecidableEq, Repr

/-- An edge inside blanking (R66, R74): the input, and the lobe the edge ends, in mV at the pins. -/
structure BlankedEdge where
  inp   : Inp
  pkPos : Nat
  pkNeg : Nat
deriving DecidableEq, Repr

/-- A pair with what its comparators show (R214): the current stands above I_HI, above I_LO. -/
structure PairLevels where
  pair    : Fin 24
  aboveHi : Bool
  aboveLo : Bool
deriving DecidableEq, Repr

/-- What a record converts (R271, R290), in microvolts: the voltages at the converted inputs in order of position, and the sensor supplies of
those that convert by RATIO. -/
structure ConvIn where
  volts : List Int
  vss   : List Int
deriving DecidableEq, Repr

/-- A host message that passed its check unit's CRC (R377): the transport, FLAGS, SEQ, LENGTH, ALIVE and the payload
bytes from byte 16 up to the CRC, and on Ethernet the source's IPv4 address and UDP port. MAILBOX and COMMAND are the row's. -/
structure Msg where
  t       : Transport
  flags   : Byte
  seq     : BitVec 16
  len     : Nat
  alive   : BitVec 16
  payload : List Byte
  ip      : Nat
  udp     : Nat
deriving DecidableEq, Repr

/-- The registers that Efrun and Ronro set and read (R4), each with its place. -/
inductive Reg where
  | wrxCfg0 (h : HalfId) (i : Inp)
  | wrxCfg1 (h : HalfId) (i : Inp)
  | wrxEdgeTs (h : HalfId) (i : Inp)
  | wrxEdgeSt (h : HalfId) (i : Inp)
  | wrxPeak (h : HalfId) (i : Inp)
  | wrxDiag (h : HalfId) (i : Inp)
  | trkCfg0 (h : HalfId)
  | trkCfg1 (h : HalfId)
  | trkStat (h : HalfId)
  | trkAngle (h : HalfId)
  | trkSpeed (h : HalfId)
  | trkInc (h : HalfId)
  | twsCfg0 (h : HalfId)
  | twsStat (h : HalfId)
  | twsTauA (h : HalfId)
  | twsTauM (h : HalfId)
  | twsTauS (h : HalfId)
  | twsW (h : HalfId) (k : Fin 24)
  | twsS (h : HalfId) (k : Fin 24)
  | twsTdc (h : HalfId) (k : Fin 24)
  | slotWord (h : HalfId) (k : Fin 1024) (w : Fin 8)
  | schCfg (h : HalfId)
  | schCh (h : HalfId) (m : Fin 48)
  | schCyl (h : HalfId) (k : Fin 24)
  | poolCfg (h : HalfId) (b : Fin 4)
  | poolStat (h : HalfId) (b : Fin 4)
  | hopStat (h : HalfId) (b : Fin 4)
  | outCfg (h : HalfId) (m : Fin 48)
  | outStat (h : HalfId) (m : Fin 48)
  | drvPair (h : HalfId) (p : Fin 24)
  | drvStat (h : HalfId) (p : Fin 24)
  | profile (h : HalfId) (i : Fin 32) (w : Fin 16)
  | fgStat (h : HalfId)
  | fgCfg
  | osCfg (h : HalfId)
  | resCfg0 (r : Fin 8)
  | resCfg1 (r : Fin 8)
  | resCfg2 (r : Fin 8)
  | resStat (r : Fin 8)
  | resMap (h : HalfId) (p : Fin 24)
  | resCost0 (h : HalfId) (i : Fin 32)
  | pwrCfg
  | pwrStat
  | ainCfg (h : HalfId) (i : Fin 48)
  | last (h : HalfId) (i : Fin 48)
  | seqCfg (h : HalfId) (q : Fin 9)
  | trgCfg0 (h : HalfId) (t : Fin 32)
  | trgCfg1 (h : HalfId) (t : Fin 32)
  | aclkCfg (h : HalfId)
  | acqTmr (h : HalfId) (n : Fin 4)
  | xcCfg (h : HalfId) (g : Fin 12)
  | xcTs (h : HalfId) (g : Fin 12)
  | xcSt (h : HalfId) (g : Fin 12)
  | refStat (h : HalfId)
  | calCfg (h : HalfId)
  | calStat (h : HalfId)
  | calFail (h : HalfId)
  | tdacCfg (h : HalfId)
  | tdacRes (h : HalfId)
  | acqStat (h : HalfId)
  | anaCfg (h : HalfId) (j : Fin 12) (n : Fin 6)
  | anaScale (h : HalfId) (j : Fin 12)
  | anaPscale (h : HalfId) (j : Fin 12)
  | anaStat (h : HalfId) (j : Fin 12)
  | trcCfg (h : HalfId)
  | clCfg0 (k : Fin 24)
  | clCfg1 (k : Fin 24)
  | clStat (k : Fin 24)
  | corrCfg
  | corrStat (j : Fin 24)
  | sleCfg0 (h : HalfId) (e : Fin 8)
  | sleCfg1 (h : HalfId) (e : Fin 8)
  | sleCfg2 (h : HalfId) (e : Fin 8)
  | sleClk (h : HalfId) (e : Fin 8)
  | sleTlim (h : HalfId) (e : Fin 8)
  | sleStat (h : HalfId) (e : Fin 8)
  | slgCtl (h : HalfId) (g : Fin 2)
  | slgStat (h : HalfId) (g : Fin 2)
  | slpCfg (h : HalfId) (n : Fin 16)
  | fltCfg (h : Option HalfId) (c : Fin 192)
  | fltStat (h : Option HalfId) (c : Fin 192)
  | fltLoc (h : Option HalfId) (c : Fin 192)
  | splitCfg (h : HalfId)
  | linkStat (h : HalfId)
  | resetCause
  | bootState
  | pinElec (h : HalfId)
deriving DecidableEq, Repr, Inhabited

/-- The commands: one constructor for each row of the table, in the table's order. -/
inductive Instr where
  /-- FRAME_TICK (R36): Every 8000 EVCLK periods a control frame tick latches the snapshots and starts each core's foreground work. -/
  | frameTick (inp : TickIn)
  /-- FRAME_OVERRUN (R40): A core that has not finished foreground 7.000 µs after the tick counts FRAME_OVERRUN and skips background. -/
  | frameOverrun (o : Overrun)
  /-- HEARTBEAT_RECEIVE (R28): A heartbeat frame with the other half's tracker snapshot arrives on the Leat or a hub link. -/
  | heartbeatReceive (h : HalfId) (link : Link) (hb : Heartbeat)
  /-- DATAGRAM_REPEAT (R399): A DATAGRAM notification not followed by a CQ_HEAD write within 2 ms is repeated. -/
  | datagramRepeat
  /-- STREAM_RECOVER (R386): A stream stops being lastingly faulty when CHK_WIN passes without a check failure. -/
  | streamRecover (stream : Stream)
  /-- QUALIFIED_EDGE (R67): A comparator change outside blanking becomes a qualified edge written to the edge latch. -/
  | qualifiedEdge (h : HalfId) (i : Inp) (e : EdgeIn)
  /-- EDGE_BLANKED (R66): A qualified edge inside the blanking window is suppressed and increments NOISE_BLANKED. -/
  | edgeBlanked (h : HalfId) (e : BlankedEdge)
  /-- BLANKING_WINDOW_END (R62): The blanking window of a receiver expires. -/
  | blankingWindowEnd (h : HalfId) (i : Inp)
  /-- VARM_DECAY (R58): V_ARM halves at the end of a predicted interval without an accepted edge. -/
  | varmDecay (h : HalfId) (i : Inp)
  /-- OVERSPEED_TRIP_TIMEOUT (R230): The overspeed trip deasserts when its receiver has delivered no edge for 1 s. -/
  | overspeedTripTimeout (h : HalfId)
  /-- GATE_CLOSE (R97): The gate of an expected edge closes without an edge and a synthetic edge is inserted with MISSING_TOOTH. -/
  | gateClose (h : HalfId) (u : UnitId)
  /-- STOP_TIMEOUT (R105): No crank edge (or cam feature in LIMP) for STOP_TIME sends the tracker to STOP. -/
  | stopTimeout (h : HalfId)
  /-- RECEIVER_ENABLE (R69): A receiver is enabled and sets its output state from the input level. -/
  | receiverEnable (h : HalfId) (i : Inp) (lvl : InLevel)
  /-- EDGE_LATCH_CLEAR (R68): Firmware writes 1 to VALID to clear the edge latch. -/
  | edgeLatchClear (h : HalfId) (i : Inp)
  /-- WIRING_CONDITION_SET (R78): A wiring test holds past its persistence and sets its flag, and FAILED where R82 says. -/
  | wiringConditionSet (h : HalfId) (i : Inp) (c : Cond) (cm : Nat) (dc : Nat)
  /-- WIRING_CONDITION_CLEAR (R529): A wiring condition clears after its test has failed for the same persistence. -/
  | wiringConditionClear (h : HalfId) (i : Inp) (c : Cond) (cm : Nat) (dc : Nat)
  /-- RECEIVER_FAILED_CLEAR (R82): FAILED clears 1 s after the last withholding condition has cleared. -/
  | receiverFailedClear (h : HalfId) (i : Inp)
  /-- RECEIVER_DISAGREE (R84): One half flags an open or short for 100 ms while the other does not. -/
  | receiverDisagree (i : Inp)
  /-- TWIST_RECOMPUTE (R134): Every 16 et the twist unit recomputes τ_meas and the per-cylinder corrections. -/
  | twistRecompute (h : HalfId)
  /-- CAL_ALIGN_RESULT (R148): After averaging τ_meas over 64 revolutions the alignment result completes. -/
  | calAlignResult
  /-- CAL_TWIST_RESULT (R150): With 64 kept samples per cylinder the fit is made and the calibration completes. -/
  | calTwistResult
  /-- CAL_TWIST_TIMEOUT (R443): At TIMEOUT cylinders with fewer than 64 samples are rejected and the calibration completes. -/
  | calTwistTimeout
  /-- HOPPER_LOAD (R172): A FROZEN slot entering the lookahead takes a hopper entry when one is free. -/
  | hopperLoad (h : HalfId) (k : Fin 1024)
  /-- SLOT_DUE (R167): The presented angle reaches a loaded slot's angle and the slot becomes DUE. -/
  | slotDue (h : HalfId) (k : Fin 1024)
  /-- SLOT_OFFSET_EXPIRE (R168): A DUE slot's OFFSET expires and its edge, command or trigger takes effect. -/
  | slotOffsetExpire (h : HalfId) (k : Fin 1024)
  /-- SLOT_WIDTH_EXPIRE (R160): A PULSE's WIDTH or a DRIVE's command duration expires, ending the output and the slot. -/
  | slotWidthExpire (h : HalfId) (k : Fin 1024)
  /-- DRV_SOURCE_GAP_END (R209): After 40 et of source gap HS rises and the coil connects to battery. -/
  | drvSourceGapEnd (h : HalfId) (p : Fin 24)
  /-- DRV_BLANK_END (R214): The phase blanking timer expires and the latches and chopping become active. -/
  | drvBlankEnd (h : HalfId) (p : PairLevels)
  /-- DRV_HI_LATCH (R214): The upper comparator asserts after blanking and sets HI_LAT, ending BOOST or a CUR_HI phase. -/
  | drvHiLatch (h : HalfId) (p : Fin 24) (dt : Nat)
  /-- DRV_LO_LATCH (R214): The current falls to I_LO after blanking and sets LO_LAT, ending a CUR_LO phase. -/
  | drvLoLatch (h : HalfId) (p : Fin 24) (dt : Nat)
  /-- DRV_CHOP (R215): The live comparators toggle LS between I_LO and I_HI, each level held at least CHOP_MIN. -/
  | drvChop (h : HalfId) (p : Fin 24) (aboveHi : Bool) (aboveLo : Bool)
  /-- DRV_PHASE_TIMEOUT (R211): A phase reaches T_LIM and moves on, ends in DRV_OPEN or raises PHASE_TIMEOUT. -/
  | drvPhaseTimeout (h : HalfId) (p : Fin 24) (aboveLo : Bool)
  /-- DRV_OVERCURRENT (R211): The maximum comparator asserts and the pair goes to FAST_DISCH with the slot ABORTED. -/
  | drvOvercurrent (h : HalfId) (p : Fin 24)
  /-- DRV_STUCK_ON (R216): Current above I_STUCK for 10 µs while IDLE raises DRV_STUCK_ON. -/
  | drvStuckOn (h : HalfId) (p : Fin 24)
  /-- OUT_PIN_FLAG (R207): A short or readback mismatch persists and sets SHORT_HI, SHORT_LO or MISMATCH. -/
  | outPinFlag (h : HalfId) (m : Fin 48) (flag : PinFlag)
  /-- FLOODGATE_INPUT_LOW (R226): FGA or FGB goes low and the kill net sets every kill latch within 5 ns. -/
  | floodgateInputLow (w : FgIn) (dt : Nat)
  /-- FG_DISAGREE (R229): FGA and FGB differ for more than 100 ms. -/
  | fgDisagree (h : HalfId)
  /-- PSF_ASSERT (R208): A power-stage fault input asserts as a Weir level source. -/
  | psfAssert (h : HalfId) (b : Fin 4)
  /-- LEVEL_ASSERT (R411): An ARMED level source line asserts and one record is appended. -/
  | levelAssert (src : Fin 4096)
  /-- LEVEL_DEASSERT (R411): A HELD_HIGH level source line deasserts and the source becomes ARMED. -/
  | levelDeassert (src : Fin 4096)
  /-- WEIR_STATUS_QUERY (R411): The handler queries a pending level source and reads LIVE. -/
  | weirStatusQuery (src : Fin 4096)
  /-- WEIR_ACKNOWLEDGE (R411): The handler acknowledges a pending level source, which becomes ARMED or HELD_HIGH. -/
  | weirAcknowledge (src : Fin 4096)
  /-- WEIR_DOORBELL (R406): A source writes the Weir doorbell and one record is appended to its queue. -/
  | weirDoorbell (src : Fin 4096) (payload : Word)
  /-- ANGLE_CLOCK_TRIGGER (R278): The cycle angle reaches a multiple of STEP and the angle clock triggers its lines. -/
  | angleClockTrigger (h : HalfId)
  /-- ACQ_TIMER_EXPIRE (R280): An acquisition timer's PERIOD expires and triggers its lines. -/
  | acqTimerExpire (h : HalfId) (n : Fin 4)
  /-- CROSSING (R297): A G crossing comparator records a crossing, optionally to the Weir and as an XING trigger. -/
  | crossing (h : HalfId) (g : Fin 12) (rising : Bool) (dt : Nat)
  /-- TRIGGER_DELAY_EXPIRE (R279): A trigger's DELAY runs out and its request reaches each targeted sequencer. -/
  | triggerDelayExpire (h : HalfId) (t : Fin 32)
  /-- SEQUENCE_END (R285): A sequencer's sequence time runs out and it takes any held request. -/
  | sequenceEnd (h : HalfId) (q : Fin 9)
  /-- CONVERSION_RECORD_WRITE (R290): A completed conversion record is written to the ring and LAST is updated. -/
  | conversionRecordWrite (h : HalfId) (q : Fin 9) (v : ConvIn)
  /-- RESULTS_COMPLETE (R323): The combustion or IMEP results become complete in the open cycle record. -/
  | resultsComplete (h : HalfId) (j : Fin 12) (stage : Stage)
  /-- REF_OK_SET (R275): A reference stays within its window long enough and its REF_OK sets. -/
  | refOkSet (h : HalfId) (r : RefId) (mv : Nat)
  /-- REF_OK_CLEAR (R275): A reference leaves its window for 10 µs, REF_OK clears and REF_FAULT is raised. -/
  | refOkClear (h : HalfId) (r : RefId) (mv : Nat)
  /-- CAL_STEP_START (R294): Every CAL_INT the next slice's calibration step begins with the spare shadowing its inputs. -/
  | calStepStart (h : HalfId) (g : Grp)
  /-- CAL_TAKEOVER (R295): When the slice is idle the spare takes over its inputs. -/
  | calTakeover (h : HalfId) (g : Grp)
  /-- CAL_STEP_LATE (R295): Takeover not within 64 frames ends the step with CAL_LATE. -/
  | calStepLate (h : HalfId) (g : Grp)
  /-- SLICE_CAL_DONE (R296): The slice's zero and reference conversions finish and the result is applied or faulted. -/
  | sliceCalDone (h : HalfId) (g : Grp) (ofsPpm : Int) (gainPpm : Int)
  /-- CAL_HANDBACK (R295): When the spare is idle the slice takes its inputs back with new coefficients. -/
  | calHandback (h : HalfId) (g : Grp)
  /-- TDAC_VERDICT (R298): A test DAC test finishes and writes its verdict. -/
  | tdacVerdict (h : HalfId) (m : TdacMeas)
  /-- JUMP (R351): The engine sets PC to ADDR if its test holds. -/
  | jump (h : HalfId) (e : Fin 8) (edges : List SlEdge)
  /-- WAIT (R351): The engine stalls until the selected condition holds. -/
  | wait (h : HalfId) (e : Fin 8) (edges : List SlEdge)
  /-- SHIFT (R354): SR moves N places, sending bits out and taking bits in, with automatic fills and stores. -/
  | shift (h : HalfId) (e : Fin 8) (edges : List SlEdge)
  /-- STAMP_ARM (R351): The engine clears a latch, stalls until it records an edge and sets TPREV. -/
  | stampArm (h : HalfId) (e : Fin 8)
  /-- STAMP_MEASURE (R351): The engine waits for a latched edge and sets C0 to the interval since TPREV. -/
  | stampMeasure (h : HalfId) (e : Fin 8)
  /-- STAMP_TIMEOUT (R352): A waiting STAMP ends by timeout when TCNT − TPREV reaches TLIM. -/
  | stampTimeout (h : HalfId) (e : Fin 8)
  /-- STALL_RELEASE (R349): A stalled instruction completes once its condition, data or room arrives. -/
  | stallRelease (h : HalfId) (e : Fin 8) (edges : List SlEdge)
  /-- WPIN_EDGE_LATCH (R350): An edge on the watch pin is latched, or dropped with EDGE_LOST. -/
  | wpinEdgeLatch (h : HalfId) (e : Fin 8) (edges : List SlEdge) (dt : Nat)
  /-- QUEUE_FILL (R351): SR is loaded from the TX queue. -/
  | queueFill (h : HalfId) (e : Fin 8)
  /-- QUEUE_STORE (R351): The received bits of SR are stored to the RX queue. -/
  | queueStore (h : HalfId) (e : Fin 8)
  /-- QUEUE_STORE_C0 (R351): C0 is stored to the RX queue. -/
  | queueStoreC0 (h : HalfId) (e : Fin 8)
  /-- QUEUE_TAKE_C0 (R351): C0 is loaded from the TX queue. -/
  | queueTakeC0 (h : HalfId) (e : Fin 8)
  /-- QUEUE_TAKE_C1 (R351): C1 is loaded from the TX queue. -/
  | queueTakeC1 (h : HalfId) (e : Fin 8)
  /-- PINS_LEVEL (R351): VALUE bits set the levels of the DRV window pins. -/
  | pinsLevel (h : HalfId) (e : Fin 8)
  /-- PINS_DIRECTION (R351): VALUE bits set the directions of the DRV window pins. -/
  | pinsDirection (h : HalfId) (e : Fin 8)
  /-- LOAD (R351): A counter, SR, PC or TPREV is loaded from an immediate or source. -/
  | load (h : HalfId) (e : Fin 8) (edges : List SlEdge)
  /-- COUNT_ADD_C0 (R351): C0 := C0 + IMM. -/
  | countAddC0 (h : HalfId) (e : Fin 8)
  /-- COUNT_SUB_C0 (R351): C0 := C0 − IMM. -/
  | countSubC0 (h : HalfId) (e : Fin 8)
  /-- COUNT_ADD_C1 (R351): C1 := C1 + IMM. -/
  | countAddC1 (h : HalfId) (e : Fin 8)
  /-- COUNT_SUB_C1 (R351): C1 := C1 − IMM. -/
  | countSubC1 (h : HalfId) (e : Fin 8)
  /-- COUNT_C0_MINUS_C1 (R351): C0 := C0 − C1. -/
  | countC0MinusC1 (h : HalfId) (e : Fin 8)
  /-- COUNT_C0_PLUS_C1 (R351): C0 := C0 + C1. -/
  | countC0PlusC1 (h : HalfId) (e : Fin 8)
  /-- COUNT_SHIFT_C0 (R351): C0 is shifted right by IMM[4:0]. -/
  | countShiftC0 (h : HalfId) (e : Fin 8)
  /-- COUNT_AND_C0 (R351): C0 := C0 AND IMM. -/
  | countAndC0 (h : HalfId) (e : Fin 8)
  /-- SIGNAL_SET_FLAG (R351): The engine sets a group flag. -/
  | signalSetFlag (h : HalfId) (e : Fin 8)
  /-- SIGNAL_CLEAR_FLAG (R351): The engine clears a group flag. -/
  | signalClearFlag (h : HalfId) (e : Fin 8)
  /-- SIGNAL_WEIR (R351): The engine sends a message to the Weir carrying INDEX[2:0]. -/
  | signalWeir (h : HalfId) (e : Fin 8)
  /-- PROGRAM_SWAP (R362): When every named engine is halted or between shifts the shadow bank becomes active. -/
  | programSwap (h : HalfId) (g : Fin 2)
  /-- FORCED_SWAP (R363): At WAIT_MS expiry engines mid-shift are halted and the swap is forced. -/
  | forcedSwap (h : HalfId) (g : Fin 2)
  /-- STOP (R419): MB0 STOP asserts the STOP source at the next tick and increments the trip count. -/
  | stop (m : Msg)
  /-- FLOODGATE_RELEASE (R232): MB0 release is judged against the release state and trip count and releases the latches or is refused. -/
  | floodgateRelease (m : Msg)
  /-- SET_DIRECTION (R421): MB0 sets the commanded direction at each steward's next tick. -/
  | setDirection (m : Msg)
  /-- FG_STATUS (R418): MB0 returns FG_STAT of both halves and FG_CFG. -/
  | fgStatus (m : Msg)
  /-- SETPOINT (R422): MB1 entries are validated and forwarded to the serving stewards for staging. -/
  | setpoint (m : Msg)
  /-- CAN_BACKUP_FRAME (R392): A CAN FD backup setpoint frame is checked and kept or staged. -/
  | canBackupFrame (port : Fin 2) (ident : BitVec 11) (data : List Byte)
  /-- CAN_STATUS_FRAME (R395): Every STAT_PER the PTU sends a CAN status frame. -/
  | canStatusFrame
  /-- IMAGE_BEGIN (R427): MB2 opens a staged image transfer of LENGTH bytes. -/
  | imageBegin (m : Msg)
  /-- IMAGE_CHUNK (R427): MB2 writes a chunk into the staging area. -/
  | imageChunk (m : Msg)
  /-- CONFIG_COMMIT (R428): MB2 checks the staged image and applies it at one frame tick, then writes it to flash. -/
  | configCommit (m : Msg)
  /-- CONFIG_DRY_RUN (R428): MB2 CONFIG_COMMIT with DRY_RUN runs the checks and applies nothing. -/
  | configDryRun (m : Msg)
  /-- CONFIG_FLASH_WRITE_DONE (R428): The flash write of a committed image finishes and the completion is posted, with FLASH_FAULT on failure. -/
  | configFlashWriteDone (ok : Bool)
  /-- IMAGE_ABORT (R427): MB2 closes the staged image transfer. -/
  | imageAbort (m : Msg)
  /-- CONFIG_READ (R426): MB2 returns bytes of the committed image. -/
  | configRead (m : Msg)
  /-- CONFIG_INFO (R426): MB2 returns the committed digest and staging state. -/
  | configInfo (m : Msg)
  /-- LINK_SET (R431): MB2 sets moderation, notification and BACKUP_EN at the next tick. -/
  | linkSet (m : Msg)
  /-- SLOT_ARM (R163): MB3 grants an Expert slot under the pool rules. -/
  | slotArm (m : Msg)
  /-- SLOT_WRITE (R178): MB3 stages slot content for the next commit. -/
  | slotWrite (m : Msg)
  /-- SLOT_FREE (R165): MB3 releases a slot now or when it reaches DONE. -/
  | slotFree (m : Msg)
  /-- SLOT_READ (R433): MB3 returns a slot's content in force and staged. -/
  | slotRead (m : Msg)
  /-- PROFILE_WRITE (R219): MB3 stages a current profile for both halves. -/
  | profileWrite (m : Msg)
  /-- PROFILE_COPY (R219): At the first tick with no pair using the profile the staged write is copied into the store. -/
  | profileCopy (h : HalfId) (i : Fin 32)
  /-- PROFILE_READ (R433): MB3 returns a profile in force. -/
  | profileRead (m : Msg)
  /-- TRACKER_SET (R436): MB3 sets prediction depth, gate bound and blanking fraction. -/
  | trackerSet (m : Msg)
  /-- TWIST_SET (R139): MB3 stages w_k and s_k for the cylinder. -/
  | twistSet (m : Msg)
  /-- ACQ_SET_MASK (R289): MB3 writes a sequencer MASK. -/
  | acqSetMask (m : Msg)
  /-- ACQ_MASK_APPLY (R289): A MASK write takes effect when its sequencer is idle with nothing held. -/
  | acqMaskApply (h : HalfId) (q : Fin 9)
  /-- ACQ_SET_DELAY (R289): MB3 writes a trigger line DELAY for later triggers. -/
  | acqSetDelay (m : Msg)
  /-- ACQ_SET_STEP (R289): MB3 writes the angle clock STEP, effective at the next tick. -/
  | acqSetStep (m : Msg)
  /-- ACQ_SET_PERIOD (R289): MB3 writes a timer PERIOD, effective at the next tick. -/
  | acqSetPeriod (m : Msg)
  /-- CL_SET (R334): MB3 writes a cylinder's closed-loop configuration. -/
  | clSet (m : Msg)
  /-- PROG_LOAD (R361): MB3 writes a sluice program into the shadow bank and awaits the swap. -/
  | progLoad (m : Msg)
  /-- SLUICE_START (R358): MB3 SLUICE_CTL starts the named engines. -/
  | sluiceStart (m : Msg)
  /-- SLUICE_HALT (R360): MB3 SLUICE_CTL halts the named engines under the halt rule. -/
  | sluiceHalt (m : Msg)
  /-- SLUICE_CLOCK_RESTART (R359): MB3 SLUICE_CTL restarts the clocks of the named engines on one edge. -/
  | sluiceClockRestart (m : Msg)
  /-- SLUICE_XFER (R439): MB3 moves words into an engine's TX buffer and returns words from its RX buffer. -/
  | sluiceXfer (m : Msg)
  /-- PIN_CLAIM (R440): MB3 makes a run-time rank 4 or 5 pin claim. -/
  | pinClaim (m : Msg)
  /-- PIN_RELEASE (R440): MB3 releases a run-time pin claim. -/
  | pinRelease (m : Msg)
  /-- GPIO_SET (R440): MB3 sets the level of a rank 5 pin at the next tick. -/
  | gpioSet (m : Msg)
  /-- WHEEL_DIAG (R441): MB4 returns a receiver's diagnostics and its next latched edges. -/
  | wheelDiag (m : Msg)
  /-- STATUS_READ (R442): MB4 returns the register images of one block. -/
  | statusRead (m : Msg)
  /-- FAULT_READ (R441): MB4 returns fault class counters. -/
  | faultRead (m : Msg)
  /-- CAL_ALIGN (R148): MB4 starts a crank wheel alignment. -/
  | calAlign (m : Msg)
  /-- CAL_TWIST (R149): MB4 starts a weight and offset calibration by CUT or PROBE. -/
  | calTwist (m : Msg)
  /-- CAL_APPLY (R151): MB4 applies a calibration result and logs it. -/
  | calApply (m : Msg)
  /-- CAL_ABORT (R443): MB4 ends the running calibrations. -/
  | calAbort (m : Msg)
  /-- SESSION_OPEN (R444): MB4 opens the test window for the named halves. -/
  | sessionOpen (m : Msg)
  /-- SESSION_CLOSE (R444): MB4 closes the test window. -/
  | sessionClose (m : Msg)
  /-- SESSION_TIMEOUT (R444): An open session reaches its TIMEOUT and closes. -/
  | sessionTimeout (h : HalfId)
  /-- SLICE_CAL (R294): MB4 requests a calibration step for a named slice. -/
  | sliceCal (m : Msg)
  /-- TDAC_OPEN_SHORT (R298): MB4 starts an OPEN_SHORT test on an input. -/
  | tdacOpenShort (m : Msg)
  /-- TDAC_GAIN (R298): MB4 starts a GAIN test on an input. -/
  | tdacGain (m : Msg)
  /-- TDAC_MANUAL (R298): MB4 drives a MANUAL test level on an input. -/
  | tdacManual (m : Msg)
  /-- TDAC_STOP (R444): MB4 ends a MANUAL test. -/
  | tdacStop (m : Msg)
  /-- SENSOR_READ (R445): MB4 returns library values with their freshness. -/
  | sensorRead (m : Msg)
  /-- TELEM_SET (R448): MB5 selects telemetry content and destination. -/
  | telemSet (m : Msg)
  /-- TARN_INFO (R446): MB5 returns the Tarn ring indices. -/
  | tarnInfo (m : Msg)
  /-- RECORD_READ (R447): MB5 returns a cycle record or refuses with TARN_GONE. -/
  | recordRead (m : Msg)
  /-- TRACE_READ (R447): MB5 returns bytes of a trace block. -/
  | traceRead (m : Msg)
  /-- TOOTHLOG_READ (R446): MB5 returns tooth log entries. -/
  | toothlogRead (m : Msg)
  /-- ATTEST (R499): MB6 returns a signed attestation report over the host nonce. -/
  | attest (m : Msg)
  /-- IDENTITY (R499): MB6 returns the identity key and its endorsement. -/
  | identity (m : Msg)
  /-- OWNER_ENROL (R498): MB6 enrols an owner key in OTP after verifying the authorisation. -/
  | ownerEnrol (m : Msg)
  /-- CHALLENGE (R449): MB6 returns a single-use nonce valid for 60 s. -/
  | challenge (m : Msg)
  /-- JTAG_UNLOCK (R500): MB6 opens JTAG for a duration after verifying the owner signature. -/
  | jtagUnlock (m : Msg)
  /-- JTAG_CLOSE (R500): JTAG closes when its unlock duration ends. -/
  | jtagClose
  /-- FW_BEGIN (R449): MB6 opens a firmware transfer into the slot not running. -/
  | fwBegin (m : Msg)
  /-- FW_CHUNK (R450): MB6 writes a firmware chunk into the slot not running. -/
  | fwChunk (m : Msg)
  /-- FW_COMMIT (R492): MB6 verifies the firmware image and marks its slot TRIAL for the next boot. -/
  | fwCommit (m : Msg)
  /-- SLEEP_NOTICE (R401): MB7 announces that the host is asleep. -/
  | sleepNotice (m : Msg)
  /-- LINK_RESET (R452): MB7 makes the next frame of each named stream acceptable whatever its alive counter. -/
  | linkReset (m : Msg)
  /-- RESET (R452): MB7 resets the module or one half 10 ms after its completion. -/
  | reset (m : Msg)
  /-- LOG_READ (R505): MB7 returns entries of the fault and calibration log. -/
  | logRead (m : Msg)
  /-- MANAGEMENT_READ (R376): A management frame reads host window fields. -/
  | managementRead (port : Fin 2) (bytes : List Byte)
  /-- MANAGEMENT_WRITE (R376): A management frame writes CQ_HEAD or is refused with BAD_ADDRESS. -/
  | managementWrite (port : Fin 2) (bytes : List Byte)
  /-- REQ_DB_WRITE (R374): The host writes the SPI doorbell and the PTU copies the request buffer out as a message. -/
  | reqDbWrite (len : BitVec 16)
  /-- CQ_HEAD_WRITE (R400): The host consumes completion entries and HOST_IRQ_N is released unless entries still hold it. -/
  | cqHeadWrite (v : BitVec 16)
  /-- PTP_SYNC (R404): A PTP sync updates the offset estimate and LOCK state. -/
  | ptpSync (ofsNs : Int)
  /-- PTP_SYNC_TIMEOUT (R404): 3 s without a valid sync set LOCK to FREE and raise PTP_UNLOCK. -/
  | ptpSyncTimeout
  /-- PPS_PULSE (R33): A PPS_IN rising edge disciplines the TCXO. -/
  | ppsPulse (ofsNs : Int)
  /-- TIME_MAP_WRITE (R405): Once per second the PTU writes the time map into the host window. -/
  | timeMapWrite (sec : Nat) (ns : Nat)
  /-- TCXO_FAIL (R34): The TCXO fails, every PLL enters holdover and CLOCK_HOLDOVER is raised. -/
  | tcxoFail
  /-- SHED_ENTER (R263): V_IN below a shed threshold for 1 ms enters that shed level. -/
  | shedEnter (dV : Nat)
  /-- SHED_LEAVE (R263): V_IN at or above threshold plus 0.5 V for 50 ms leaves a shed level. -/
  | shedLeave (dV : Nat)
  /-- SUPPLY_RESTART_STEP (R264): After level 4 the shed sensor supplies restart one every 1 ms. -/
  | supplyRestartStep
  /-- SCRUB_DEFER_EXPIRE (R263): A deferred scrub resumes after SCRUB_DEFER seconds. -/
  | scrubDeferExpire
  /-- POWER_OVER (R265): P_IN above 60 W for 100 ms raises POWER_OVER. -/
  | powerOver
  /-- SS_SUPPLY_TRIP (R521): A sensor supply in limit for 5 ms trips off, clearing SS_OK. -/
  | ssSupplyTrip (n : Fin 24)
  /-- SS_SUPPLY_RETRY (R521): A tripped sensor supply retries 1 s after the trip and every 1 s after. -/
  | ssSupplyRetry (n : Fin 24)
  /-- SUPPLY_APPLY (R482): Supply appears at J6 and the bulk capacitance charges under the 4 A limit. -/
  | supplyApply (dV : Nat) (key : Bool)
  /-- KEY_HIGH (R481): KEY high with supply at or above 13.0 V for 10 ms begins a cold boot. -/
  | keyHigh (dV : Nat)
  /-- COLD_BOOT (R489): The ROM selects and verifies a firmware slot and the boot stages begin. -/
  | coldBoot
  /-- BOOT_STAGE_ADVANCE (R489): A boot stage completes and STAGE advances toward READY, NO_CONFIG or RECOVERY. -/
  | bootStageAdvance
  /-- TRIAL_CONFIRM (R492): A TRIAL slot standing 60 s without a watchdog or ECC reset becomes ACTIVE and may raise the floor. -/
  | trialConfirm
  /-- KEY_LOW (R484): KEY low starts the wait for both trackers in STOP before shutdown. -/
  | keyLow
  /-- SHUTDOWN (R484): After the 2 s wait the PTU logs, switches off sensor supplies and enters ASLEEP. -/
  | shutdown
  /-- UNDERVOLTAGE_SHUTDOWN (R483): Supply below 9.0 V for 200 ms or 7.0 V for 100 µs holds every die in reset. -/
  | undervoltageShutdown
  /-- WATCHDOG_EXPIRE (R486): A core's watchdog expires after 1.0 ms without service and resets its place. -/
  | watchdogExpire (core : Core)
  /-- ECC_ERROR (R502): An ECC check at an access corrects an error or handles an uncorrectable one by area. -/
  | eccError (area : EccArea) (corrected : Bool)
  /-- REGISTER_WRITE (R4): Efrun or Ronro writes a register that has no row of its own. -/
  | registerWrite (r : Reg) (v : Word)
  /-- COMPARATOR_STATE_CHANGE (R61): A receiver comparator changes between TOOTH and NO_TOOTH without producing a qualified edge (VR arming, an unselected HALL direction, or a held output leaving the band). -/
  | comparatorStateChange (h : HalfId) (i : Inp) (tooth : Bool)
  /-- FLOODGATE_INPUT_HIGH (R232): FGA or FGB rises above 3.0 V, starting the FG_SETTLE interval of the release check and changing FG_STAT and the FG_DISAGREE comparison. -/
  | floodgateInputHigh (w : FgIn) (dt : Nat)
  /-- DRV_BOOST_GAP_END (R212): After 40 et with both pins low before a BOOST entered from FREEWHEEL, HS and LS rise in the same et and BOOST blanking and T_LIM start. -/
  | drvBoostGapEnd (h : HalfId) (p : Fin 24)
  /-- DISCARDED_FRAME (R383): A host message or CAN frame whose CRC, or UDP length, does not match is discarded without completion and one check failure is charged to a stream. -/
  | discardedFrame (t : Transport) (bytes : List Byte) (udpLen : Nat)
  /-- UNKNOWN_COMMAND (R381): A frame that passes its check unit with MAILBOX above 7 or an unknown COMMAND is refused with BAD_MAILBOX or BAD_COMMAND. -/
  | unknownCommand (mb : Byte) (cmd : BitVec 16) (m : Msg)
  /-- REQUEST_BUFFER_WRITE (R374): An SPI write into the request buffer stores the bytes, or is ignored and increments SPI_LOST while REQ_BUSY is set. -/
  | requestBufferWrite (ofs : Nat) (data : List Byte)
  /-- REGISTER_READ (R73): Efrun reads a register field of access RC, which returns its value and clears it. -/
  | registerRead (r : Reg)
  /-- RESET_FOLLOWS (R452): 10 ms after the completion of an MB7 RESET the module or the named half is reset. -/
  | resetFollows
  /-- JTAG_RESET (R500): A reset requested through the unlocked JTAG port resets the module with cause JTAG and closes JTAG. -/
  | jtagReset
  /-- WHEEL_DIAG_TIMEOUT (R441): A WHEEL_DIAG request that has not gathered NEDGE edges completes after 1 s with the edges it has. -/
  | wheelDiagTimeout (h : HalfId)
deriving DecidableEq, Repr

end Sys2Proof
end

