-- ==== Sys2Proof/WellFormed.lean ====
section
/-! DEFINITION. Which commands are well formed: what a row's operands must satisfy for the row to be that event. -/

namespace Sys2Proof

/-- A message that a check unit can have passed (R372, R377): not over CAN, its bytes as many as its LENGTH says, within
what a transport carries. -/
def Msg.wf (m : Msg) : Bool := m.t ≠ .can && m.len = 20 + m.payload.length && m.payload.length ≤ 1004

/-- A management datagram fits an Ethernet frame without fragmentation (R372). -/
def mgmtWf (bytes : List Byte) : Bool := bytes.length ≤ 1472

/-- The command is well formed. -/
def Instr.wf : Instr → Bool
  | .frameOverrun o => 5600 < o.ends
  | .heartbeatReceive _ _ hb => hb.counts.length ≤ 24 && hb.state < 8
  | .conversionRecordWrite _ q v =>
    v.volts.length ≤ (if q.1 = 0 then 12 else if q.1 ≤ 6 then 4 else 6) && v.vss.length ≤ v.volts.length
  | .canBackupFrame _ _ data => data.length ≤ 64
  | .managementRead _ bytes => mgmtWf bytes
  | .managementWrite _ bytes => mgmtWf bytes
  | .discardedFrame t bytes _ => t ≠ .can && bytes.length ≤ 1472
  | .requestBufferWrite ofs data => data ≠ [] && ofs < 1024
  | .timeMapWrite _ ns => ns < 1000000000
  | .stop m | .floodgateRelease m | .setDirection m | .fgStatus m | .setpoint m | .imageBegin m | .imageChunk m
  | .configCommit m | .configDryRun m | .imageAbort m | .configRead m | .configInfo m | .linkSet m | .slotArm m
  | .slotWrite m | .slotFree m | .slotRead m | .profileWrite m | .profileRead m | .trackerSet m | .twistSet m
  | .acqSetMask m | .acqSetDelay m | .acqSetStep m | .acqSetPeriod m | .clSet m | .progLoad m | .sluiceStart m
  | .sluiceHalt m | .sluiceClockRestart m | .sluiceXfer m | .pinClaim m | .pinRelease m | .gpioSet m | .wheelDiag m
  | .statusRead m | .faultRead m | .calAlign m | .calTwist m | .calApply m | .calAbort m | .sessionOpen m
  | .sessionClose m | .sliceCal m | .tdacOpenShort m | .tdacGain m | .tdacManual m | .tdacStop m | .sensorRead m
  | .telemSet m | .tarnInfo m | .recordRead m | .traceRead m | .toothlogRead m | .attest m | .identity m
  | .ownerEnrol m | .challenge m | .jtagUnlock m | .fwBegin m | .fwChunk m | .fwCommit m | .sleepNotice m
  | .linkReset m | .reset m | .logRead m | .unknownCommand _ _ m => m.wf
  | .frameTick _ | .datagramRepeat | .streamRecover _ | .qualifiedEdge _ _ _ | .edgeBlanked _ _
  | .blankingWindowEnd _ _ | .varmDecay _ _ | .overspeedTripTimeout _ | .gateClose _ _ | .stopTimeout _
  | .receiverEnable _ _ _ | .edgeLatchClear _ _ | .wiringConditionSet _ _ _ _ _ | .wiringConditionClear _ _ _ _ _
  | .receiverFailedClear _ _ | .receiverDisagree _ | .twistRecompute _ | .calAlignResult | .calTwistResult
  | .calTwistTimeout | .hopperLoad _ _ | .slotDue _ _ | .slotOffsetExpire _ _ | .slotWidthExpire _ _
  | .drvSourceGapEnd _ _ | .drvBlankEnd _ _ | .drvHiLatch _ _ _ | .drvLoLatch _ _ _ | .drvChop _ _ _ _
  | .drvPhaseTimeout _ _ _ | .drvOvercurrent _ _ | .drvStuckOn _ _ | .outPinFlag _ _ _ | .floodgateInputLow _ _
  | .fgDisagree _ | .psfAssert _ _ | .levelAssert _ | .levelDeassert _ | .weirStatusQuery _ | .weirAcknowledge _
  | .weirDoorbell _ _ | .angleClockTrigger _ | .acqTimerExpire _ _ | .crossing _ _ _ _ | .triggerDelayExpire _ _
  | .sequenceEnd _ _ | .resultsComplete _ _ _ | .refOkSet _ _ _ | .refOkClear _ _ _ | .calStepStart _ _
  | .calTakeover _ _ | .calStepLate _ _ | .sliceCalDone _ _ _ _ | .calHandback _ _ | .tdacVerdict _ _ | .jump _ _ _
  | .wait _ _ _ | .shift _ _ _ | .stampArm _ _ | .stampMeasure _ _ | .stampTimeout _ _ | .stallRelease _ _ _
  | .wpinEdgeLatch _ _ _ _ | .queueFill _ _ | .queueStore _ _ | .queueStoreC0 _ _ | .queueTakeC0 _ _
  | .queueTakeC1 _ _ | .pinsLevel _ _ | .pinsDirection _ _ | .load _ _ _ | .countAddC0 _ _ | .countSubC0 _ _
  | .countAddC1 _ _ | .countSubC1 _ _ | .countC0MinusC1 _ _ | .countC0PlusC1 _ _ | .countShiftC0 _ _
  | .countAndC0 _ _ | .signalSetFlag _ _ | .signalClearFlag _ _ | .signalWeir _ _ | .programSwap _ _
  | .forcedSwap _ _ | .canStatusFrame | .configFlashWriteDone _ | .profileCopy _ _ | .acqMaskApply _ _
  | .sessionTimeout _ | .jtagClose | .reqDbWrite _ | .cqHeadWrite _ | .ptpSync _ | .ptpSyncTimeout | .ppsPulse _
  | .tcxoFail | .shedEnter _ | .shedLeave _ | .supplyRestartStep | .scrubDeferExpire | .powerOver | .ssSupplyTrip _
  | .ssSupplyRetry _ | .supplyApply _ _ | .keyHigh _ | .coldBoot | .bootStageAdvance | .trialConfirm | .keyLow
  | .shutdown | .undervoltageShutdown | .watchdogExpire _ | .eccError _ _ | .registerWrite _ _
  | .comparatorStateChange _ _ _ | .floodgateInputHigh _ _ | .drvBoostGapEnd _ _ | .registerRead _ | .resetFollows
  | .jtagReset | .wheelDiagTimeout _ => true

end Sys2Proof
end

