-- ==== Sys2Proof/Config.lean ====
section
/-! DEFINITION. What an implementation fixes and the spec leaves open: free values without a body. -/

namespace Sys2Proof.Config

open Sys2Proof

/-- Which of the two neighbouring whole numbers a division that does not come out takes, where the spec states no
rounding: `true` the upper one (log 10). -/
opaque roundUp (place : Nat) (num : Int) (den : Nat) : Bool

/-- A fresh number the spec leaves open, by place and serial number (log 5). -/
opaque freeNat (place serial : Nat) : Nat

/-- The pressure in bar that fills an invalid sample at an edge of what a lane has, where one valid neighbour is missing, by lane and hold
(log 114). -/
opaque edgeFill (lane hold : Nat) : Rat

/-- HOLD0 of a trace block whose first point produced no record, by half and instant (log 114). -/
opaque noHold (half now : Nat) : Nat

/-- Whether the trace buffer of a half stands at 75 % at an instant: how fast the Tarn drains it is not stated (log 15). -/
opaque bufferFull (half now : Nat) : Bool

/-- The CRC nibble SAE J2716 gives a SENT frame, legacy or recommended, over its status and data nibbles (log 16). -/
opaque sentCrc (legacy : Bool) (nibbles : List Nat) : Nat

/-- The serial message SAE J2716 reads from the status nibbles, newest first, where the last one completes it (log 16). -/
opaque sentSerial (mode : Nat) (status : List Nat) : Option Nat

/-- The word that starts a read of SPI_RD, by SCLK in kHz, register address and read length: the program's words are not stated (log 115). -/
opaque spiWord (sclk addr bits : Nat) : BitVec 32

/-- The high level in mV of a HALL sensor at an input that no wheel sensor supply of the module feeds: a property of the sensor, by input
number (log 113). -/
opaque hallHigh (inp : Nat) : Nat

end Sys2Proof.Config
end

