-- ==== Sys2Proof/Machine/Bits.lean ====
section
/-! DEFINITION. Bit fields, byte order, rounding and the two check codes: the small operations every other file uses. -/

namespace Sys2Proof.Machine

open Sys2Proof

/-- Bits `[hi:lo]` of a word, unsigned (R16). -/
def fld (w : Word) (hi lo : Nat) : Nat := (w.toNat >>> lo) % 2 ^ (hi - lo + 1)

/-- A number of `n` bits read as two's complement. -/
def signed (n v : Nat) : Int := if v % 2 ^ n < 2 ^ (n - 1) then ((v % 2 ^ n : Nat) : Int) else (v % 2 ^ n : Nat) - 2 ^ n

/-- Bits `[hi:lo]` of a word as two's complement. -/
def sfld (w : Word) (hi lo : Nat) : Int := signed (hi - lo + 1) (fld w hi lo)

/-- A value placed at bit `lo` in `n` bits, the bits above dropped. -/
def put (v n lo : Nat) : Word := BitVec.ofNat 32 ((v % 2 ^ n) <<< lo)

/-- A signed value placed at bit `lo` in `n` bits, two's complement. -/
def putI (v : Int) (n lo : Nat) : Word := put (v % (2 ^ n : Int)).toNat n lo

/-- One bit placed at bit `lo`. -/
def putB (b : Bool) (lo : Nat) : Word := put (if b then 1 else 0) 1 lo

/-- The number of a bit. -/
def bit (b : Bool) : Nat := if b then 1 else 0

/-- A write of `v` to a register holding `old`, in which only the bits of `rw` are writable (R17, access RW). -/
def writeRw (old v rw : Word) : Word := (old &&& ~~~rw) ||| (v &&& rw)

/-- A count that saturates at `2^n - 1`. -/
def satInc (n v : Nat) : Nat := if v + 1 < 2 ^ n then v + 1 else 2 ^ n - 1

/-- A number limited to `2^n - 1`. -/
def sat (n v : Nat) : Nat := if v < 2 ^ n then v else 2 ^ n - 1

/-- A signed number limited to `n` bits. -/
def satI (n : Nat) (v : Int) : Int := max (-(2 ^ (n - 1))) (min (2 ^ (n - 1) - 1) v)

/-- One element of a vector changed. -/
def upd {α : Type} {n : Nat} (v : Vector α n) (i : Fin n) (f : α → α) : Vector α n := v.set i.1 (f (v.get i)) i.2

/-- One element of a vector set. -/
def put1 {α : Type} {n : Nat} (v : Vector α n) (i : Fin n) (x : α) : Vector α n := v.set i.1 x i.2

/-- Every index of a vector, in order. -/
def idxs (n : Nat) : List (Fin n) := List.finRange n

/-- Fold a function over every index of a vector, in ascending order. -/
def eachIdx {σ : Type} (n : Nat) (f : Fin n → σ → σ) (s : σ) : σ := (idxs n).foldl (fun t i => f i t) s

/-- Fold a function over a list. -/
def eachOf {α σ : Type} (l : List α) (f : α → σ → σ) (s : σ) : σ := l.foldl (fun t a => f a t) s

/-- A number as an index, none outside its range. -/
def fin? (n v : Nat) : Option (Fin n) := if h : v < n then some ⟨v, h⟩ else none

/-- The byte at an offset, 0 beyond the end. -/
def byteAt (l : List Byte) (o : Nat) : Nat := (l.getD o 0#8).toNat

/-- Little-endian numbers at an offset (R16). -/
def u16 (l : List Byte) (o : Nat) : Nat := byteAt l o + 256 * byteAt l (o + 1)

/-- Three bytes, little-endian. -/
def u24 (l : List Byte) (o : Nat) : Nat := u16 l o + 65536 * byteAt l (o + 2)

/-- Four bytes, little-endian. -/
def u32 (l : List Byte) (o : Nat) : Nat := u16 l o + 65536 * u16 l (o + 2)

/-- Four bytes, little-endian, two's complement. -/
def i32 (l : List Byte) (o : Nat) : Int := signed 32 (u32 l o)

/-- Four bytes, little-endian, as a register word. -/
def w32 (l : List Byte) (o : Nat) : Word := BitVec.ofNat 32 (u32 l o)

/-- `n` little-endian bytes of a number (R16). -/
def le : Nat → Nat → List Byte
  | 0, _ => []
  | n + 1, v => BitVec.ofNat 8 v :: le n (v / 256)

/-- `n` little-endian bytes of a signed number. -/
def leI (n : Nat) (v : Int) : List Byte := le n (v % (2 ^ (8 * n) : Int)).toNat

/-- The four little-endian bytes of a word. -/
def leW (w : Word) : List Byte := le 4 w.toNat

/-- `n` zero bytes. -/
def zeros (n : Nat) : List Byte := List.replicate n 0#8

/-- `n` bytes from an offset. -/
def slice (l : List Byte) (o n : Nat) : List Byte := (l.drop o).take n

/-- Bytes written over a list at an offset, within its length. -/
def overlay (l : List Byte) (o : Nat) (d : List Byte) : List Byte :=
  l.take o ++ d.take (l.length - o) ++ l.drop (o + d.length)

/-- One bit of CRC-32C, reflected: polynomial 0x1EDC6F41 reflected is 0x82F63B78 (R382). -/
def crc32cBit (c : Word) : Word := if c.getLsbD 0 then (c >>> 1) ^^^ 0x82F63B78#32 else c >>> 1

/-- One byte of CRC-32C. -/
def crc32cByte (c : Word) (b : Byte) : Word :=
  crc32cBit (crc32cBit (crc32cBit (crc32cBit (crc32cBit (crc32cBit (crc32cBit (crc32cBit (c ^^^ b.zeroExtend 32))))))))

/-- CRC-32C over bytes: initial value and final XOR 0xFFFFFFFF (R382). -/
def crc32c (l : List Byte) : Word := (l.foldl crc32cByte 0xFFFFFFFF#32) ^^^ 0xFFFFFFFF#32

/-- One bit of CRC-16/CCITT-FALSE (R382). -/
def crc16Bit (c : BitVec 16) : BitVec 16 := if c.getLsbD 15 then (c <<< 1) ^^^ 0x1021#16 else c <<< 1

/-- One byte of CRC-16/CCITT-FALSE. -/
def crc16Byte (c : BitVec 16) (b : Byte) : BitVec 16 :=
  crc16Bit (crc16Bit (crc16Bit (crc16Bit (crc16Bit (crc16Bit (crc16Bit (crc16Bit (c ^^^ (b.zeroExtend 16 <<< 8)))))))))

/-- CRC-16/CCITT-FALSE over bytes: initial value 0xFFFF, not reflected, no final XOR (R382). -/
def crc16 (l : List Byte) : BitVec 16 := l.foldl crc16Byte 0xFFFF#16

/-- `a / b` rounded to the nearest whole number, exact halves up (R11). -/
def roundDiv (a : Int) (b : Nat) : Int := (2 * a + b) / (2 * b)

/-- A rational rounded to the nearest whole number, exact halves up. -/
def roundRat (q : Rat) : Int := (q + 1 / 2).floor

/-- The later of two FRAME values is the first (R13). -/
def frameLater (a b : Word) : Bool := (a - b).toInt > 0

/-- Control frames from FRAME `b` to FRAME `a`, as two's complement (R13). -/
def frameDiff (a b : Word) : Int := (a - b).toInt

end Sys2Proof.Machine
end

