-- ==== Sys2Proof/Machine/Fields.lean ====
section
/-! DEFINITION. The registers' fields: for each field map of the spec the reset value, the bits a write changes, and
one accessor for each RW field. -/

namespace Sys2Proof.Machine

open Sys2Proof

/-- Reset value of wrxCfg0 (R71). -/
def wrxCfg0Reset : Word := 0x003C1028#32
/-- Bits of wrxCfg0 that a write changes (R71). -/
def wrxCfg0Rw : Word := 0xFFFFFFFF#32
def wrxCfg0En (w : Word) : Bool := w.getLsbD 31
def wrxCfg0Mode (w : Word) : Bool := w.getLsbD 30
def wrxCfg0EdgeSel (w : Word) : Nat := fld w 29 28
def wrxCfg0Invert (w : Word) : Bool := w.getLsbD 27
def wrxCfg0RevPolicy (w : Word) : Bool := w.getLsbD 26
def wrxCfg0SigLead (w : Word) : Bool := w.getLsbD 25
def wrxCfg0SigTrail (w : Word) : Bool := w.getLsbD 24
def wrxCfg0ThFrac (w : Word) : Nat := fld w 23 17
def wrxCfg0Hys (w : Word) : Nat := fld w 16 10
def wrxCfg0VrInit (w : Word) : Nat := fld w 9 0
/-- Reset value of wrxCfg1 (R72). -/
def wrxCfg1Reset : Word := 0x194628F0#32
/-- Bits of wrxCfg1 that a write changes (R72). -/
def wrxCfg1Rw : Word := 0xFFFFFFF8#32
def wrxCfg1HallTh (w : Word) : Nat := fld w 31 24
def wrxCfg1BlankFrac (w : Word) : Nat := fld w 23 17
def wrxCfg1BlankMin (w : Word) : Nat := fld w 16 8
def wrxCfg1OpenEn (w : Word) : Bool := w.getLsbD 7
def wrxCfg1ShortEn (w : Word) : Bool := w.getLsbD 6
def wrxCfg1ShapeEn (w : Word) : Bool := w.getLsbD 5
def wrxCfg1RevEn (w : Word) : Bool := w.getLsbD 4
def wrxCfg1PullupEn (w : Word) : Bool := w.getLsbD 3
/-- Reset value of trkCfg0 (R125). -/
def trkCfg0Reset : Word := 0x0211B700#32
/-- Bits of trkCfg0 that a write changes (R125). -/
def trkCfg0Rw : Word := 0xFFFFFF80#32
def trkCfg0Cycle (w : Word) : Nat := fld w 31 30
def trkCfg0Reversible (w : Word) : Bool := w.getLsbD 29
def trkCfg0RefWheel (w : Word) : Bool := w.getLsbD 28
def trkCfg0SecondEn (w : Word) : Bool := w.getLsbD 27
def trkCfg0PhaseSrc (w : Word) : Nat := fld w 26 25
def trkCfg0DirSrc (w : Word) : Nat := fld w 24 23
def trkCfg0DirSpan (w : Word) : Nat := fld w 22 20
def trkCfg0QuadIn (w : Word) : Bool := w.getLsbD 19
def trkCfg0QuadLvl (w : Word) : Bool := w.getLsbD 18
def trkCfg0PredDepth (w : Word) : Nat := fld w 17 15
def trkCfg0GateLo (w : Word) : Nat := fld w 14 8
def trkCfg0LimpEn (w : Word) : Bool := w.getLsbD 7
/-- Reset value of trkCfg1 (R126). -/
def trkCfg1Reset : Word := 0x19032200#32
/-- Bits of trkCfg1 that a write changes (R126). -/
def trkCfg1Rw : Word := 0xFFFFFF00#32
def trkCfg1CamWin (w : Word) : Nat := fld w 31 22
def trkCfg1SecWin (w : Word) : Nat := fld w 21 12
def trkCfg1LimpDelay (w : Word) : Nat := fld w 11 8
/-- Reset value of twsCfg0 (R153). -/
def twsCfg0Reset : Word := 0xB2050000#32
/-- Bits of twsCfg0 that a write changes (R153). -/
def twsCfg0Rw : Word := 0xFFFFFC00#32
def twsCfg0TwEn (w : Word) : Bool := w.getLsbD 31
def twsCfg0TwistMax (w : Word) : Nat := fld w 30 22
def twsCfg0TwRamp (w : Word) : Nat := fld w 21 15
def twsCfg0Ncyl (w : Word) : Nat := fld w 14 10
/-- Reset value of twsW (R156). -/
def twsWReset : Word := 0x00000000#32
/-- Bits of twsW that a write changes (R156). -/
def twsWRw : Word := 0xFFFF801F#32
def twsWW (w : Word) : Int := sfld w 31 16
def twsWValid (w : Word) : Bool := w.getLsbD 15
def twsWCyl (w : Word) : Nat := fld w 4 0
/-- Reset value of schCfg (R191). -/
def schCfgReset : Word := 0x0A000000#32
/-- Bits of schCfg that a write changes (R191). -/
def schCfgRw : Word := 0xFF000000#32
def schCfgStepTol (w : Word) : Nat := fld w 31 24
/-- Reset value of schCh (R192). -/
def schChReset : Word := 0x03201400#32
/-- Bits of schCh that a write changes (R192). -/
def schChRw : Word := 0xFFFFFF1F#32
def schChLatePol (w : Word) : Nat := fld w 31 30
def schChLossPol (w : Word) : Bool := w.getLsbD 29
def schChLateWin (w : Word) : Nat := fld w 28 20
def schChLimpEn (w : Word) : Bool := w.getLsbD 19
def schChFuel (w : Word) : Bool := w.getLsbD 18
def schChSplit (w : Word) : Bool := w.getLsbD 17
def schChMinW (w : Word) : Nat := fld w 16 8
def schChCyl (w : Word) : Nat := fld w 4 0
/-- Reset value of schCyl (R193). -/
def schCylReset : Word := 0x2D000000#32
/-- Bits of schCyl that a write changes (R193). -/
def schCylRw : Word := 0xFFFE0000#32
def schCylCd (w : Word) : Nat := fld w 31 23
def schCylValid (w : Word) : Bool := w.getLsbD 22
def schCylCyl (w : Word) : Nat := fld w 21 17
/-- Reset value of poolCfg (R194). -/
def poolCfgReset : Word := 0x08100000#32
/-- Bits of poolCfg that a write changes (R194). -/
def poolCfgRw : Word := 0xFFFFF000#32
def poolCfgFloor (w : Word) : Nat := fld w 31 22
def poolCfgCap (w : Word) : Nat := fld w 21 12
/-- Reset value of profHdr (R217). -/
def profHdrReset : Word := 0x00000000#32
/-- Bits of profHdr that a write changes (R217). -/
def profHdrRw : Word := 0xFFFFE000#32
def profHdrIMax (w : Word) : Nat := fld w 31 20
def profHdrShortProf (w : Word) : Nat := fld w 19 15
def profHdrShortEn (w : Word) : Bool := w.getLsbD 14
def profHdrValid (w : Word) : Bool := w.getLsbD 13
/-- Reset value of phA (R217). -/
def phAReset : Word := 0x00000000#32
/-- Bits of phA that a write changes (R217). -/
def phARw : Word := 0xFFFFFFFF#32
def phAIHi (w : Word) : Nat := fld w 31 20
def phAILo (w : Word) : Nat := fld w 19 8
def phABlank (w : Word) : Nat := fld w 7 0
/-- Reset value of phB (R217). -/
def phBReset : Word := 0x00000000#32
/-- Bits of phB that a write changes (R217). -/
def phBRw : Word := 0xFFFFFEFF#32
def phBTLim (w : Word) : Nat := fld w 31 12
def phBExit (w : Word) : Nat := fld w 11 10
def phBChop (w : Word) : Bool := w.getLsbD 9
def phBChopMin (w : Word) : Nat := fld w 7 0
/-- Reset value of outCfg (R221). -/
def outCfgReset : Word := 0x00000000#32
/-- Bits of outCfg that a write changes (R221). -/
def outCfgRw : Word := 0xFFC00000#32
def outCfgSrc (w : Word) : Nat := fld w 31 29
def outCfgPol (w : Word) : Bool := w.getLsbD 28
def outCfgSafe (w : Word) : Nat := fld w 27 26
def outCfgGpioLvl (w : Word) : Bool := w.getLsbD 25
def outCfgSlEng (w : Word) : Nat := fld w 24 22
/-- Reset value of drvPair (R223). -/
def drvPairReset : Word := 0x0C903200#32
/-- Bits of drvPair that a write changes (R223). -/
def drvPairRw : Word := 0xFFFFFF00#32
def drvPairGain (w : Word) : Nat := fld w 31 21
def drvPairStuckEn (w : Word) : Bool := w.getLsbD 20
def drvPairIStuck (w : Word) : Nat := fld w 19 8
/-- Reset value of fgCfg (R237). -/
def fgCfgReset : Word := 0x19000000#32
/-- Bits of fgCfg that a write changes (R237). -/
def fgCfgRw : Word := 0xFFC00000#32
def fgCfgFgSettle (w : Word) : Nat := fld w 31 22
/-- Reset value of osCfg (R237). -/
def osCfgReset : Word := 0x00000040#32
/-- Bits of osCfg that a write changes (R237). -/
def osCfgRw : Word := 0xFFFFFFFC#32
def osCfgOsT (w : Word) : Nat := fld w 31 8
def osCfgOsK (w : Word) : Nat := fld w 7 3
def osCfgOsWheel (w : Word) : Bool := w.getLsbD 2
/-- Reset value of resCfg0 (R257). -/
def resCfg0Reset : Word := 0x00000032#32
/-- Bits of resCfg0 that a write changes (R257). -/
def resCfg0Rw : Word := 0xFFFFFFFF#32
def resCfg0Valid (w : Word) : Bool := w.getLsbD 31
def resCfg0Gpin (w : Word) : Nat := fld w 30 26
def resCfg0Policy (w : Word) : Nat := fld w 25 24
def resCfg0Cap (w : Word) : Nat := fld w 23 8
def resCfg0SplitA (w : Word) : Nat := fld w 7 0
/-- Reset value of resCfg1 (R258). -/
def resCfg1Reset : Word := 0x00000000#32
/-- Bits of resCfg1 that a write changes (R258). -/
def resCfg1Rw : Word := 0xFFFFFFFF#32
def resCfg1VMin (w : Word) : Nat := fld w 31 22
def resCfg1VMax (w : Word) : Nat := fld w 21 12
def resCfg1PR (w : Word) : Nat := fld w 11 0
/-- Reset value of resCfg2 (R259). -/
def resCfg2Reset : Word := 0x1F414500#32
/-- Bits of resCfg2 that a write changes (R259). -/
def resCfg2Rw : Word := 0xFFFFFF00#32
def resCfg2StagMax (w : Word) : Nat := fld w 31 20
def resCfg2ResSettle (w : Word) : Nat := fld w 19 12
def resCfg2StartCyc (w : Word) : Nat := fld w 11 8
/-- Reset value of resMap (R260). -/
def resMapReset : Word := 0x00000000#32
/-- Bits of resMap that a write changes (R260). -/
def resMapRw : Word := 0xF0000000#32
def resMapDraw (w : Word) : Bool := w.getLsbD 31
def resMapRes (w : Word) : Nat := fld w 30 28
/-- Reset value of resCost0 (R260). -/
def resCost0Reset : Word := 0x00000000#32
/-- Bits of resCost0 that a write changes (R260). -/
def resCost0Rw : Word := 0xFFFF0000#32
def resCost0Cost0 (w : Word) : Nat := fld w 31 16
/-- Reset value of pwrCfg (R266). -/
def pwrCfgReset : Word := 0xFFFFFF05#32
/-- Bits of pwrCfg that a write changes (R266). -/
def pwrCfgRw : Word := 0xFFFFFFFF#32
def pwrCfgSsShed (w : Word) : Nat := fld w 31 8
def pwrCfgScrubDefer (w : Word) : Nat := fld w 7 0
/-- Reset value of ainCfg (R300). -/
def ainCfgReset : Word := 0x00000000#32
/-- Bits of ainCfg that a write changes (R300). -/
def ainCfgRw : Word := 0xF0000000#32
def ainCfgRange (w : Word) : Nat := fld w 31 30
def ainCfgRef (w : Word) : Nat := fld w 29 28
/-- Reset value of seqCfg (R301). -/
def seqCfgReset : Word := 0x00000000#32
/-- Bits of seqCfg that a write changes (R301). -/
def seqCfgRw : Word := 0xFFF80000#32
def seqCfgMask (w : Word) : Nat := fld w 31 20
def seqCfgPolicy (w : Word) : Bool := w.getLsbD 19
/-- Reset value of trgCfg0 (R302). -/
def trgCfg0Reset : Word := 0x00000000#32
/-- Bits of trgCfg0 that a write changes (R302). -/
def trgCfg0Rw : Word := 0xFFFFFC00#32
def trgCfg0En (w : Word) : Bool := w.getLsbD 31
def trgCfg0Src (w : Word) : Nat := fld w 30 28
def trgCfg0LimpEn (w : Word) : Bool := w.getLsbD 27
def trgCfg0Edge (w : Word) : Nat := fld w 26 25
def trgCfg0Sel (w : Word) : Nat := fld w 24 19
def trgCfg0Target (w : Word) : Nat := fld w 18 10
/-- Reset value of trgCfg1 (R302). -/
def trgCfg1Reset : Word := 0x00000000#32
/-- Bits of trgCfg1 that a write changes (R302). -/
def trgCfg1Rw : Word := 0xFFFF0000#32
def trgCfg1Delay (w : Word) : Nat := fld w 31 16
/-- Reset value of aclkCfg (R303). -/
def aclkCfgReset : Word := 0x30000000#32
/-- Bits of aclkCfg that a write changes (R303). -/
def aclkCfgRw : Word := 0xF0000000#32
def aclkCfgEn (w : Word) : Bool := w.getLsbD 31
def aclkCfgStep (w : Word) : Nat := fld w 30 28
/-- Reset value of acqTmr (R303). -/
def acqTmrReset : Word := 0x00000000#32
/-- Bits of acqTmr that a write changes (R303). -/
def acqTmrRw : Word := 0xC0FFFFFF#32
def acqTmrEn (w : Word) : Bool := w.getLsbD 31
def acqTmrFsync (w : Word) : Bool := w.getLsbD 30
def acqTmrPeriod (w : Word) : Nat := fld w 23 0
/-- Reset value of xcCfg (R304). -/
def xcCfgReset : Word := 0x08001000#32
/-- Bits of xcCfg that a write changes (R304). -/
def xcCfgRw : Word := 0xFFFFFF00#32
def xcCfgEn (w : Word) : Bool := w.getLsbD 31
def xcCfgEdge (w : Word) : Nat := fld w 30 29
def xcCfgWeir (w : Word) : Bool := w.getLsbD 28
def xcCfgThresh (w : Word) : Nat := fld w 27 16
def xcCfgHys (w : Word) : Nat := fld w 15 8
/-- Reset value of calCfg (R306). -/
def calCfgReset : Word := 0x86400000#32
/-- Bits of calCfg that a write changes (R306). -/
def calCfgRw : Word := 0xFFF00000#32
def calCfgEn (w : Word) : Bool := w.getLsbD 31
def calCfgCalInt (w : Word) : Nat := fld w 30 20
/-- Reset value of tdacCfg (R307). -/
def tdacCfgReset : Word := 0x00000000#32
/-- Bits of tdacCfg that a write changes (R307). -/
def tdacCfgRw : Word := 0xFFFFF800#32
def tdacCfgGo (w : Word) : Bool := w.getLsbD 31
def tdacCfgTest (w : Word) : Nat := fld w 30 29
def tdacCfgInput (w : Word) : Nat := fld w 28 23
def tdacCfgCode (w : Word) : Nat := fld w 22 11
/-- Reset value of anaCfg0 (R337). -/
def anaCfg0Reset : Word := 0x01801000#32
/-- Bits of anaCfg0 that a write changes (R337). -/
def anaCfg0Rw : Word := 0xFFFFF000#32
def anaCfg0En (w : Word) : Bool := w.getLsbD 31
def anaCfg0Cyl (w : Word) : Nat := fld w 30 26
def anaCfg0Res (w : Word) : Nat := fld w 25 23
def anaCfg0ImepMode (w : Word) : Nat := fld w 22 21
def anaCfg0PegMode (w : Word) : Nat := fld w 20 19
def anaCfg0PegGp (w : Word) : Nat := fld w 18 14
def anaCfg0KnEn (w : Word) : Bool := w.getLsbD 13
def anaCfg0TrcEn (w : Word) : Bool := w.getLsbD 12
/-- Reset value of anaCfg1 (R338). -/
def anaCfg1Reset : Word := 0xF882D000#32
/-- Bits of anaCfg1 that a write changes (R338). -/
def anaCfg1Rw : Word := 0xFFFFFC00#32
def anaCfg1CmbStart (w : Word) : Int := sfld w 31 21
def anaCfg1CmbEnd (w : Word) : Int := sfld w 20 10
/-- Reset value of anaCfg2 (R338). -/
def anaCfg2Reset : Word := 0x00014000#32
/-- Bits of anaCfg2 that a write changes (R338). -/
def anaCfg2Rw : Word := 0xFFFFFC00#32
def anaCfg2KwStart (w : Word) : Int := sfld w 31 21
def anaCfg2KwEnd (w : Word) : Int := sfld w 20 10
/-- Reset value of anaCfg3 (R338). -/
def anaCfg3Reset : Word := 0xE71E200A#32
/-- Bits of anaCfg3 that a write changes (R338). -/
def anaCfg3Rw : Word := 0xFFFFFFFF#32
def anaCfg3PegA1 (w : Word) : Int := sfld w 31 21
def anaCfg3PegA2 (w : Word) : Int := sfld w 20 10
def anaCfg3PegP (w : Word) : Nat := fld w 9 0
/-- Reset value of anaCfg4 (R338). -/
def anaCfg4Reset : Word := 0xA514A000#32
/-- Bits of anaCfg4 that a write changes (R338). -/
def anaCfg4Rw : Word := 0xFFFFFC00#32
def anaCfg4Gamma (w : Word) : Nat := fld w 31 21
def anaCfg4PolyN (w : Word) : Nat := fld w 20 10
/-- Reset value of anaCfg5 (R338). -/
def anaCfg5Reset : Word := 0x140F012C#32
/-- Bits of anaCfg5 that a write changes (R338). -/
def anaCfg5Rw : Word := 0xFFFFFFFF#32
def anaCfg5MisfFrac (w : Word) : Nat := fld w 31 24
def anaCfg5LbAngle (w : Word) : Int := sfld w 23 13
def anaCfg5KiThr (w : Word) : Nat := fld w 12 0
/-- Reset value of anaScale (R339). -/
def anaScaleReset : Word := 0x00000000#32
/-- Bits of anaScale that a write changes (R339). -/
def anaScaleRw : Word := 0xFFFFFFFF#32
def anaScalePGain (w : Word) : Nat := fld w 31 16
def anaScalePOfs (w : Word) : Int := sfld w 15 0
/-- Reset value of anaPscale (R339). -/
def anaPscaleReset : Word := 0x00000000#32
/-- Bits of anaPscale that a write changes (R339). -/
def anaPscaleRw : Word := 0xFFFFFFFF#32
def anaPscaleGGain (w : Word) : Nat := fld w 31 16
def anaPscaleGOfs (w : Word) : Int := sfld w 15 0
/-- Reset value of trcCfg (R340). -/
def trcCfgReset : Word := 0x30000000#32
/-- Bits of trcCfg that a write changes (R340). -/
def trcCfgRw : Word := 0xF0000000#32
def trcCfgEn (w : Word) : Bool := w.getLsbD 31
def trcCfgTrcRes (w : Word) : Nat := fld w 30 28
/-- Reset value of clCfg0 (R341). -/
def clCfg0Reset : Word := 0x01919000#32
/-- Bits of clCfg0 that a write changes (R341). -/
def clCfg0Rw : Word := 0xFFFFF800#32
def clCfg0Mode (w : Word) : Nat := fld w 31 30
def clCfg0EvtMask (w : Word) : Nat := fld w 29 26
def clCfg0K (w : Word) : Nat := fld w 25 19
def clCfg0StepMax (w : Word) : Nat := fld w 18 11
/-- Reset value of clCfg1 (R341). -/
def clCfg1Reset : Word := 0x14000000#32
/-- Bits of clCfg1 that a write changes (R341). -/
def clCfg1Rw : Word := 0xFFFFFFFE#32
def clCfg1Target (w : Word) : Int := sfld w 31 21
def clCfg1LimAdv (w : Word) : Nat := fld w 20 11
def clCfg1LimRet (w : Word) : Nat := fld w 10 1
/-- Reset value of corrCfg (R342). -/
def corrCfgReset : Word := 0xB2000000#32
/-- Bits of corrCfg that a write changes (R342). -/
def corrCfgRw : Word := 0xFF800000#32
def corrCfgEn (w : Word) : Bool := w.getLsbD 31
def corrCfgCorrMin (w : Word) : Nat := fld w 30 23
/-- Reset value of sleCfg0 (R366). -/
def sleCfg0Reset : Word := 0x00000000#32
/-- Bits of sleCfg0 that a write changes (R366). -/
def sleCfg0Rw : Word := 0xFFFFFF80#32
def sleCfg0Start (w : Word) : Nat := fld w 31 26
def sleCfg0LoopAt (w : Word) : Nat := fld w 25 20
def sleCfg0Wpin (w : Word) : Nat := fld w 19 14
def sleCfg0Join (w : Word) : Nat := fld w 13 12
def sleCfg0SrDir (w : Word) : Bool := w.getLsbD 11
def sleCfg0Autostore (w : Word) : Bool := w.getLsbD 10
def sleCfg0Autofill (w : Word) : Bool := w.getLsbD 9
def sleCfg0Autostart (w : Word) : Bool := w.getLsbD 8
def sleCfg0Valid (w : Word) : Bool := w.getLsbD 7
/-- Reset value of sleCfg1 (R367). -/
def sleCfg1Reset : Word := 0x00000000#32
/-- Bits of sleCfg1 that a write changes (R367). -/
def sleCfg1Rw : Word := 0xFFFFFFFF#32
def sleCfg1InBase (w : Word) : Nat := fld w 31 26
def sleCfg1OutBase (w : Word) : Nat := fld w 25 20
def sleCfg1OutCnt (w : Word) : Nat := fld w 19 14
def sleCfg1DrvBase (w : Word) : Nat := fld w 13 8
def sleCfg1DrvCnt (w : Word) : Nat := fld w 7 5
def sleCfg1StoreAt (w : Word) : Nat := fld w 4 0
/-- Reset value of sleCfg2 (R367). -/
def sleCfg2Reset : Word := 0x00000000#32
/-- Bits of sleCfg2 that a write changes (R367). -/
def sleCfg2Rw : Word := 0x07FFFF80#32
def sleCfg2RxThr (w : Word) : Nat := fld w 26 23
def sleCfg2TxThr (w : Word) : Nat := fld w 22 19
def sleCfg2RegLo (w : Word) : Nat := fld w 18 13
def sleCfg2RegHi (w : Word) : Nat := fld w 12 7
/-- Reset value of sleClk (R368). -/
def sleClkReset : Word := 0x00010000#32
/-- Bits of sleClk that a write changes (R368). -/
def sleClkRw : Word := 0xFFFFFF00#32
def sleClkInt (w : Word) : Nat := fld w 31 16
def sleClkFrac (w : Word) : Nat := fld w 15 8
/-- Reset value of slpCfg (R370). -/
def slpCfgReset : Word := 0x00000000#32
/-- Bits of slpCfg that a write changes (R370). -/
def slpCfgRw : Word := 0xFFF80000#32
def slpCfgOwner (w : Word) : Nat := fld w 31 29
def slpCfgEng (w : Word) : Nat := fld w 28 26
def slpCfgPull (w : Word) : Bool := w.getLsbD 25
def slpCfgFilt (w : Word) : Nat := fld w 24 21
def slpCfgGpioLvl (w : Word) : Bool := w.getLsbD 20
def slpCfgGpioOe (w : Word) : Bool := w.getLsbD 19
/-- Reset value of fltCfg (R465). -/
def fltCfgReset : Word := 0x00000800#32
/-- Bits of fltCfg that a write changes (R465). -/
def fltCfgRw : Word := 0xFFFFFC00#32
def fltCfgWin (w : Word) : Nat := fld w 31 20
def fltCfgUnit (w : Word) : Nat := fld w 19 18
def fltCfgThr (w : Word) : Nat := fld w 17 12
def fltCfgReact (w : Word) : Bool := w.getLsbD 11
def fltCfgLatch (w : Word) : Bool := w.getLsbD 10
/-- Reset value of splitCfg (R477). -/
def splitCfgReset : Word := 0x80000000#32
/-- Bits of splitCfg that a write changes (R477). -/
def splitCfgRw : Word := 0xE0000000#32
def splitCfgIslHold (w : Word) : Nat := fld w 31 29
/-- Reset value of pinElec (R518). -/
def pinElecReset : Word := 0x00000000#32
/-- Bits of pinElec that a write changes (R518). -/
def pinElecRw : Word := 0xFFF80000#32
def pinElecWssEn (w : Word) : Nat := fld w 31 26
def pinElecWss12v (w : Word) : Nat := fld w 25 20
def pinElecSlVio (w : Word) : Bool := w.getLsbD 19

end Sys2Proof.Machine
end

