-- ==== Sys2Proof/Machine/Image.lean ====
section
/-! DEFINITION. The configuration image beyond the registers it sets: wheel descriptions (R87), the static twist table
(R146), event configuration, link configuration and the geometry Ronro writes. -/

namespace Sys2Proof.Machine

open Sys2Proof

/-- A crank wheel description (R87): TEETH, the gaps as (first missing position, count), the markers as (position,
fraction in 1/256 pitch), MK_T, CYC_OFS, the nonzero TRIM entries and AST_OFS. `present` says whether the engine
description has the wheel. -/
structure Wheel where
  present : Bool
  teeth   : Nat
  gaps    : List (Nat × Nat)
  marks   : List (Nat × Nat)
  mkT     : Nat
  cycOfs  : Int
  trim    : List (Nat × Int)
  astOfs  : Int
deriving DecidableEq, Repr, Inhabited

/-- No wheel. -/
def Wheel.absent : Wheel := ⟨false, 8, [], [], 0, 0, [], 0⟩

/-- A phase input's description (R87): the features running ahead and astern as (cycle angle, polarity), and K of R121. -/
structure PhaseDesc where
  feat    : List (Int × Bool)
  featAst : List (Int × Bool)
  k       : Nat
deriving DecidableEq, Repr, Inhabited

/-- The static twist table (R146): speed breakpoints in rpm, load breakpoints, and TAU by speed row. -/
structure TwistTable where
  spd : List Nat
  ld  : List Nat
  tau : List (List Int)
deriving DecidableEq, Repr, Inhabited

/-- One Basic event of a cylinder (R169, R220, R390): event number, half, half-local channel, slot action, profile set
as (index, DMAX), DUR_MAX, earliest allowed start, priority, default start and duration. -/
structure EvtCfg where
  evt      : Nat
  half     : HalfId
  ch       : Nat
  action   : Nat
  profs    : List (Nat × Nat)
  durMax   : Nat
  earliest : Int
  prio     : Nat
  defStart : Int
  defDur   : Nat
deriving DecidableEq, Repr, Inhabited

/-- A cylinder's Basic events, its number and its home half (R389). -/
structure CylCfg where
  cyl  : Nat
  home : HalfId
  evts : List EvtCfg
deriving DecidableEq, Repr, Inhabited

/-- The link configuration (R372, R373, R386, R391, R392, R395, R397, R404); `cans` are the CAN ports it configures beside the backup port, `ips`
the static IPv4 addresses of ETH1 and ETH2, `hostUdp` and `hostIp` where notifications go. -/
structure LinkCfg where
  redundant : Bool
  chkWin    : Nat
  chkThr    : Nat
  holdCyc   : Nat
  backupEn  : Bool
  backupPort : Nat
  spBase    : Nat
  modCnt    : Nat
  modTime   : Nat
  notify    : Nat
  statPer   : Nat
  statId    : Nat
  ptpEn     : Bool
  ppsIn     : Bool
  cans      : List (Fin 2)
  ips       : Nat × Nat
  hostUdp   : Nat
  hostIp    : Nat
deriving DecidableEq, Repr, Inhabited

/-- The defaults the spec gives for the link configuration (CHK_WIN 100 ms, CHK_THR 3 of R386; HOLD_CYC 2 of R391;
MOD_CNT 8, MOD_TIME 500 us of R398; STAT_PER 10 ms of R395); the rest is off. -/
def LinkCfg.dflt : LinkCfg :=
  ⟨false, 100, 3, 2, false, 0, 0, 8, 500, 0, 10, 0, false, false, [], (0, 0), 0, 0⟩

/-- The CAN ports configured: those of `cans`, and with BACKUP_EN the backup port (R392, R395). -/
def LinkCfg.canPorts (l : LinkCfg) : List (Fin 2) := (idxs 2).filter (fun p => l.cans.contains p || (l.backupEn && p.1 = l.backupPort))

/-- A library entry (R364, R432): half, engine of the half, program 0 SENT_RX, 1 SPI_RD, 2 OWI_ID, 3 TBUS_TX; its SL pins, counted within
the half, SPI_RD's as clock, select, data out, data in; SENT_RX's T_NOM (0.01 us), DATA_N, PAUSE, CRC, SERIAL; the period, in ms for SPI_RD
and in frames for TBUS_TX; SPI_RD's SCLK in kHz, register address and read length; TBUS_TX's pattern word. -/
structure LibCfg where
  half   : HalfId
  eng    : Fin 8
  prog   : Nat
  tNom   : Nat
  dataN  : Nat
  pause  : Bool
  crcLeg : Bool
  serial : Nat
  period : Nat
  pins   : List Nat
  sclk   : Nat
  addr   : Nat
  bits   : Nat
  pattern : Word
deriving DecidableEq, Repr, Inhabited

/-- The engine geometry (R315) in mm: bore, stroke, connecting rod; and the compression ratio. -/
structure Geom where
  bore   : Rat
  stroke : Rat
  conrod : Rat
  cr     : Rat
deriving DecidableEq, Repr, Inhabited

end Sys2Proof.Machine
end

