-- ==== Sys2Proof/Machine/Parts.lean ====
section
/-! DEFINITION. The parts of a half's timing die: records of the Weir, fault counters, receivers, tracker, twist unit,
slots, outputs, drive sequencers, floodgate. -/

namespace Sys2Proof.Machine

open Sys2Proof

/-- A Weir record (R408): source, queue, kind, LEVEL, OVF, HALF_Q, FRAME, TS, PAYLOAD, and whether a core has taken it. -/
structure WeirRec where
  src     : Nat
  queue   : Nat
  kind    : Nat
  level   : Bool
  ovf     : Bool
  halfQ   : Bool
  frame   : Word
  ts      : Word
  payload : Word
  taken   : Bool
deriving DecidableEq, Repr

/-- An event raised and not yet counted: class, FRAME of its record, location code (R456 to R461). -/
structure Ev where
  cls   : Nat
  frame : Word
  loc   : Word
deriving DecidableEq, Repr

/-- The counter of one fault class in one counting place (R456, R465): the events with the frame tick of the place at which each stands
(`Faults.ticks`), so that none is taken for a newer one when FRAME comes round; the count of all events since the last CONFIG_COMMIT; lasting,
SEEN; LAST_FRAME, the latest location code and the tick they stand at. -/
structure FltCnt where
  evts    : List (Int × Ev)
  total   : Nat
  lasting : Bool
  seen    : Bool
  last    : Word
  loc     : Word
  lastAt  : Option Int
deriving DecidableEq, Repr

/-- A counting place (R457, R465): FLT_CFG, the counters, the frame ticks counted since its reset, those at which revolutions and wraps
completed newest first, and the events waiting for foreground step 5. -/
structure Faults where
  cfg   : Vector Word 192
  cnt   : Vector FltCnt 192
  ticks : Nat
  revs  : List Int
  wraps : List Int
  queue : List Ev
deriving DecidableEq, Repr

/-- The wiring conditions of a receiver (R75, R78). `clip` is the flag of the clipped-signature condition: 0 none, 1
SHORT_GND, 2 SHORT_BAT, 3 SHAPE; `shape` is SHAPE raised by contradicting gaps (R81). -/
structure Wiring where
  opn      : Bool
  shortGnd : Bool
  shortBat : Bool
  clip     : Nat
  silent   : Bool
  shape    : Bool
deriving DecidableEq, Repr

/-- A wheel receiver (R54 to R84). `vpk` is V_PK in mV (none: V_ARM stands at VR_INIT), `varm` V_ARM in mV. The positive and
negative peaks (mV) since the last accepted edge: `lobeRun` those up to the newest qualified edge's interval, `lobeLast` that interval's,
`lobeCur` those since (R74). `lastQ` is the last qualified edge, blanked ones included (R78). -/
structure Rcv where
  cfg0      : Word
  cfg1      : Word
  tooth     : Bool
  held      : Bool
  firstPend : Bool
  ts        : Word
  valid     : Bool
  ovr       : Bool
  pol       : Bool
  first     : Bool
  noise     : Nat
  pkPos     : Nat
  pkNeg     : Nat
  vpk       : Option Nat
  varm      : Rat
  blankEnd  : Nat
  lastAt    : Nat
  lastInt   : Nat
  nEdges    : Nat
  accAt     : List Nat
  lobeRun   : Nat × Nat
  lobeLast  : Nat × Nat
  lobeCur   : Nat × Nat
  lastQ     : Nat
  cm        : Nat
  dcdiff    : Nat
  wir       : Wiring
  seq       : List (Bool × Nat × Nat)
deriving DecidableEq, Repr

/-- The reversed-pair check and FAILED of a receiver (R79 to R82): decided, REVERSED, REV_UNAVAIL, gaps without a
decisive one, consecutive contradicting gaps, FAILED, and the instant from which the 1 s of R82 runs. -/
structure RevChk where
  decided  : Bool
  reversed : Bool
  unavail  : Bool
  tries    : Nat
  contra   : Nat
  leadLobe : Int
  clipRun  : Nat
  okRun    : Nat
  failed   : Bool
  clearAt  : Option Nat
  hold     : Bool
deriving DecidableEq, Repr

/-- A tracking unit (R85 to R100): the input it reads, whether its position is known, position and marker of the last
accepted or synthetic edge, its instant, the period history (1/256 et, newest first), the candidate with the quadrature
level at it, the run of bad teeth, the accumulator (Q40 degrees in the direction of travel), INC, and what SEEK counts:
the gap candidate as (interval, gap count, its edge), the teeth since the last gap, the edge that waits for the next one (R533);
then the position of the reference and how often it has been passed (R109), and the position and marker last accepted (R532). -/
structure TUnit where
  inp     : Option Inp
  known   : Bool
  pos     : Nat
  mark    : Bool
  hasLast : Bool
  lastAt  : Rat
  hist    : List Nat
  cand    : Option (Nat × Bool)
  bad     : Nat
  acc     : Nat
  inc     : Nat
  gapCand : Option (Rat × Nat × EdgeIn)
  run     : Option Nat
  pend    : Option (Nat × Bool × EdgeIn)
  refPos  : Nat
  refs    : Nat
  accPos  : Nat × Bool
deriving DecidableEq, Repr

/-- The phase unit (R108, R109, R121): feature edges newest first as (instant, polarity), the feature last matched,
features that agreed in succession, features of the other phase in succession, features seen in SEEK or LOST. -/
structure PhaseU where
  edges  : List (Nat × Bool)
  feat  : Option Nat
  agree  : Nat
  other  : Nat
  lost   : Nat
deriving DecidableEq, Repr

/-- The direction unit (R114 to R118): commanded direction, direction read, confirmation, contrary readings in
succession, the travel (1/256 pitch) and references of the running span, DIR_SRC_LOST, and the edge data needed to
take a contrary edge again (R532). `true` is ASTERN. -/
structure DirU where
  cmd      : Bool
  read     : Bool
  seen     : Bool
  conf     : Bool
  contra   : Nat
  flip     : Nat
  running  : Bool
  travel   : Rat
  refs     : Nat
  srcLost  : Bool
  prevPos  : Nat × Bool
  contraAt : Nat
deriving DecidableEq, Repr

/-- One half's angle tracker (R85 to R129) beside its units. `alt` is the unit that seeks the acquisition wheel in LIMP beside the second
crank unit (R110, R122); `swTo` is the wheel a switch by class made the angle source, until STOP (R463); `held` PRED_DEPTH and GATE_LO as they stand
until the next accepted edge after a TRACKER_SET (R436). -/
structure Trk where
  cfg0      : Word
  cfg1      : Word
  st        : Nat
  src       : TUnit
  sec       : TUnit
  alt       : TUnit
  secSt     : Nat
  phase     : PhaseU
  dir       : DirU
  rev       : Nat
  accelImpl : Bool
  swPend    : Bool
  chkTravel : Rat
  stopTime  : Nat
  crankAt   : Nat
  lastCyc   : Int
  swTo      : Option Inp
  held      : Option (Nat × Nat)
deriving DecidableEq, Repr

/-- What a half latches at a frame tick (R36, R133): the tracker's snapshot (state, validity, cycle angle, the throw angles as
Q16 words, 0x8000_0000 where one is invalid, speed in 1/65536 rpm, direction), then the sense die's slice and lane status:
which slices are FAILED, and ANA_STAT of each lane. -/
structure Snap where
  st     : Nat
  valid  : Bool
  angle  : Int
  throws : Vector Word 24
  speed  : Nat
  astern : Bool
  slices : Vector Bool 23
  lanes  : Vector Word 12
deriving DecidableEq, Repr

/-- One cylinder entry of the twist unit: TWS_W, TWS_S, TWS_TDC, the correction c_k, the presented throw angle, the
weight and offset waiting for the cylinder's next commit (R140), and how often the presented throw angle has wrapped. -/
structure TwsCyl where
  w    : Word
  s    : Word
  tdc  : Word
  c    : Int
  pres : Int
  pend : Option (Word × Word)
  turn : Nat
deriving DecidableEq, Repr

/-- What stood at a recomputation of the twist while a probe's signal is high (R149): instant, whether a sample at it would be kept, tau_app, the
presented throw angles, INC and the direction. -/
structure TwsPt where
  at_  : Nat
  keep : Bool
  tau  : Rat
  pres : Vector Int 24
  inc  : Nat
  ast  : Bool
deriving DecidableEq, Repr

/-- The twist unit (R130 to R158). `inMaxTau` is the last measured twist within TWIST_MAX; `rangeTrav` and `okTrav` are the
travels of the angle source (Q16) over which the conditions of R143 have held; `fromNone`, `syncSeen` and `lockSeen`
serve the third FALLBACK row; `pitchMark` and `lastRec` are the cycle angle and the instant of the last recomputation; `trail` is what
stood at the recomputations since a probe's rising crossing, newest first (R149). -/
structure Tws where
  cfg0      : Word
  mode      : Nat
  ramp      : Bool
  twRange   : Bool
  fbSeen    : Bool
  tauA      : Rat
  tauM      : Int
  tauS      : Int
  cyl       : Vector TwsCyl 24
  inMaxTau  : Int
  rangeTrav : Option Int
  okTrav    : Option Int
  fromNone  : Bool
  syncSeen  : Bool
  lockSeen  : Bool
  lastSt    : Nat
  pitchMark : Int
  load      : Option Nat
  lastRec   : Nat
  trail     : List TwsPt
deriving DecidableEq, Repr

/-- The five words of a slot's content, W0 to W4 (R159). -/
structure SlotC where
  w0 : Word
  w1 : Word
  w2 : Word
  w3 : Word
  w4 : Word
deriving DecidableEq, Repr, Inhabited

/-- Who holds a slot: nobody, a Basic event (cylinder, event number, half-local channel), the acquisition configuration
(channel), or the host at Expert level for a half-local channel. -/
inductive Holder where
  | nobody
  | basic (cyl evt ch : Nat)
  | acq (ch : Nat)
  | expert (ch : Nat)
deriving DecidableEq, Repr

/-- An event slot (R159 to R190): content in force, STATE, CYCTAG, OUTCOME, TAGS, EDGE_TS, LATENESS; the cycle count it
was frozen for; its holder; Expert content staged and as last written (R178), and content waiting for DONE (R177) with its cycle count and
tags; the SEQs of pending MB3 frees; the edge and end instants; late causes met and not yet handled (R536); whether it
waits for a hopper entry, and began to with its ANGLE still ahead (R196); the WIDTH in force, shortened by a clamp (R183); whether ECC failed on it while ACTIVE (R502); whether a release
was put off; and the wraps of the cylinder's presented throw angle at the commit of the content in force and of the deferred content. -/
structure Slot where
  c        : SlotC
  st       : Nat
  cycTag   : Nat
  outcome  : Nat
  tags     : BitVec 16
  edgeTs   : Word
  late     : Nat
  cyc      : Nat
  holder   : Holder
  staged   : Option SlotC
  base     : SlotC
  deferred : Option (SlotC × Nat × BitVec 16)
  freeSeq  : List (BitVec 16)
  edgeAt   : Nat
  endAt    : Nat
  cause    : BitVec 16
  waits    : Bool
  ahead    : Bool
  width    : Nat
  spoil    : Bool
  owed     : Bool
  turn     : Nat
  turnDef  : Nat
deriving DecidableEq, Repr

/-- One event a commit would freeze (R169, R173, R178): slot, content, start throw angle, whether a Basic event, tags. -/
structure Cand where
  k     : Fin 1024
  c     : SlotC
  psi   : Int
  basic : Bool
  tags  : BitVec 16
deriving DecidableEq, Repr

/-- What a commit gives its cycle record (R326): cylinder, count, FRAME, TDC_k', DELTA_CL, SPEED in 0.1 rpm, STATES,
SRC_CYC, the flags HELD to ASTERN that stand at commit, the slots frozen. -/
structure OpenRec where
  cyl    : Nat
  cyc    : Nat
  frame  : Word
  tdc    : Int
  delta  : Int
  speed  : Nat
  states : Nat
  srcCyc : Nat
  flags  : Nat
  ks     : List Nat
deriving DecidableEq, Repr

/-- The content of a commit as it stands at the commit instant (R170, R176, R179, R391): 0 fresh, 1 held, 2 default, 3 a cylinder
without Basic events; its entry; the events to freeze, those LIMP skips, those R170 skips, and the tag LIMP gives; the opening of
its cycle record; the commit angle. -/
structure CommitC where
  src   : Nat
  entry : List (Int × Nat)
  go    : List Cand
  lskip : List Cand
  ovl   : List Cand
  limp  : BitVec 16
  opn   : OpenRec
  ang   : Int
deriving DecidableEq, Repr

/-- A cylinder's commit bookkeeping (R173 to R176, R389, R391): SCH_CYL, the cycle count, COMMITTED, the staged entries
of the next two cycles, the last good entry, m, where the setpoint of the last commit came from (0 fresh, 1 held, 2 default, 3 no basic
event), a commit whose processing R42 defers, the counts after recent commits as (FRAME,
count, slots frozen), the other half's report of the throw cycle running and of the next (R539), whether the commit of `mine` is of the cycle before, FRAME of the last
wrap, whether the count is to be taken, the count of the next cycle whose fuel is withheld (R149), the cycle in which a FUEL slot last fired, whether shed level 3 or 4 was active in the throw cycle running, and the correction, its source cycle and EVT_MASK as S1 last published
them (R331). -/
structure CylSt where
  cfg       : Word
  count     : Word
  committed : Bool
  skip      : Bool
  staged0   : Option (List (Int × Nat))
  staged1   : Option (List (Int × Nat))
  lastGood  : Option (List (Int × Nat))
  miss      : Nat
  lastSrc   : Nat
  defer     : Option CommitC
  mine      : Option (Word × List Nat)
  theirs    : Option Word
  ahead     : Option Word
  old       : Bool
  wrapAt    : Word
  takeCount : Bool
  cut       : Option Nat
  fuelCyc   : Option Nat
  shedCyc   : Bool
  delta     : Int
  deltaSrc  : Nat
  evtMask   : Nat
deriving DecidableEq, Repr

/-- A bank's pool account and hopper counters (R164, R172, R194 to R196). -/
structure Bank where
  pool    : Word
  held    : Nat
  peak    : Nat
  refused : Nat
  hiwat   : Nat
  waited  : Nat
  hopLate : Nat
deriving DecidableEq, Repr

/-- An event channel and its pin (R198 to R208, R221, R222): SCH_CH, OUT_CFG, the slot, cylinder and count of the SET that holds it active,
blocked until its next edge (R233), flags, readback, EDGES, the level last driven, a run-time claim
(rank, engine), the PULSE slots ACTIVE on it, and the level a sluice engine last wrote to it. -/
structure Chan where
  sch      : Word
  out      : Word
  setBy    : Option (Fin 1024 × Nat × Nat)
  blocked  : Bool
  shortHi  : Bool
  shortLo  : Bool
  mismatch : Bool
  limit    : Bool
  rb       : Bool
  edges    : Nat
  level    : Bool
  claim    : Option (Nat × Nat)
  pulses   : List (Fin 1024)
  slLvl    : Bool
deriving DecidableEq, Repr

/-- A drive sequencer (R209 to R216, R223, R224): DRV_PAIR, PHASE (7 IDLE), PROF, latches, live outputs, LAST_FAULT,
T_BOOST, the phase's entry instant, blanking end, the source gap or boost gap running, LS level while chopping and the
instant it last changed, the slot in command, the start of the source gap, and whether the pin has started the command that
runs (R278). -/
structure Pair where
  pair    : Word
  phase   : Nat
  prof    : Nat
  hiLat   : Bool
  loLat   : Bool
  maxLat  : Bool
  hiLive  : Bool
  loLive  : Bool
  fault   : Nat
  tBoost  : Nat
  entry   : Nat
  blank   : Bool
  srcGap  : Bool
  bstGap  : Bool
  ls      : Bool
  lsAt    : Nat
  pinAt   : Nat
  slot    : Option (Fin 1024)
  gapAt   : Nat
  cmdOn   : Bool
deriving DecidableEq, Repr

/-- A timing die's side of the floodgate (R225 to R237): kill latch, CHECKED, CAUSE, TRIPS as S0 last wrote it, OS_CFG,
the overspeed trip, its run counters and last edge, the instant of the last release. -/
structure Fg where
  latch   : Bool
  checked : Bool
  cause   : Nat
  trips   : Nat
  osCfg   : Word
  osTrip  : Bool
  osShort : Nat
  osLong  : Nat
  osLast  : Option Nat
  offAt   : Nat
deriving DecidableEq, Repr

/-- A link as a half sees it (R29): up, ticks passed without a valid frame, consecutive valid heartbeats, last alive counter,
whether a valid frame has come since the tick. -/
structure LinkSt where
  up       : Bool
  missed   : Nat
  good     : Nat
  alive    : Option (BitVec 16)
  got      : Bool
deriving DecidableEq, Repr

/-- The links and the role of a half (R29, R30, R469 to R477): the Leat and the hub link, the other half's heartbeat of this
frame, ROLE, REJOIN_PEND, whether the cycle angle has wrapped since that was set or the trackers last disagreed, SPLITS,
SPLIT_CFG, whether the cycle angle has wrapped since the tick, HUB_PATH, the snapshot before the present one as FRAME,
ANGLE_VALID and cycle angle, the heartbeat the half last sent on both links, and the alive counter of the next one (R27, R28). -/
structure Links where
  leat    : LinkSt
  hub     : LinkSt
  other   : Option Heartbeat
  role    : Nat
  rejoin  : Bool
  turned  : Bool
  splits  : Nat
  split   : Word
  wrapped : Bool
  path    : Bool
  prev    : Word × Bool × Int
  tx      : Option Heartbeat
  hbOut   : BitVec 16
deriving DecidableEq, Repr

end Sys2Proof.Machine
end

