-- ==== Sys2Proof/Machine/PartsSense.lean ====
section
/-! DEFINITION. The parts of a half's sense die (analog acquisition) and of its ledger. -/

namespace Sys2Proof.Machine

open Sys2Proof

/-- A trigger in a line's delay stage (R279, R284): trigger instant, request instant, STEP (R281), and for the angle clock
the angle of its point in 1/20 degree and the corrections c_k passed with it (R313). -/
structure DelayT where
  trig : Nat
  req  : Nat
  step : Bool
  pt   : Option (Int × List Int)
deriving DecidableEq, Repr

/-- A trigger line (R277, R278, R302). -/
structure TLine where
  cfg0  : Word
  cfg1  : Word
  stage : List DelayT
deriving DecidableEq, Repr

/-- A request to a sequencer (R285): line, SRC, request instant, STEP, the angle-clock point. -/
structure Req where
  line : Nat
  src  : Nat
  at_  : Nat
  step : Bool
  pt   : Option (Int × List Int)
deriving DecidableEq, Repr

/-- A sequence running or waiting for its record (R269, R285 to R290): request, hold instant of the first conversion,
positions in order, end of its sequence time, LATE, SPARE_IDX, what the references and the test DAC were at the hold,
and how many conversions a restart let it make. -/
structure Run where
  req    : Req
  hold   : Nat
  poss   : List Nat
  endAt  : Nat
  late   : Bool
  spare  : Nat
  refBad : List Nat
  test   : List Nat
  rst    : Option Nat
deriving DecidableEq, Repr

/-- A sequencer (R268, R285 to R289, R301): SEQ_CFG, the sequence running, the request held and those that
come in the CONVCLK period in which it ends (R285), sequences whose record is
not written yet, and a MASK write waiting (R289) with the SEQ and SILENT of its request. -/
structure Seqr where
  cfg     : Word
  run     : Option Run
  held    : List Req
  toWrite : List Run
  mask    : Option (Nat × BitVec 16 × Bool)
deriving DecidableEq, Repr

/-- A conversion record (R291): HOLD_TS, INFO, samples. -/
structure ConvRec where
  ts   : Word
  info : Word
  smp  : List (BitVec 16)
deriving DecidableEq, Repr

/-- LAST of one input (R292); AGE counts from the hold. -/
structure LastR where
  code  : BitVec 16
  hold  : Option Nat
  ref   : Bool
  test  : Bool
  sat   : Bool
  spare : Bool
deriving DecidableEq, Repr

/-- One slice group's background calibration (R294 to R296): the slice of the step that runs (the last index is the
spare), its stage (0 none, 1 shadowing, 2 calibrating, 3 waiting for handback), its start, the next of the rotation,
SUSP, MB4 requests not begun with SEQ and SILENT, whether the running step serves one, the end of its
conversions, its result where it is within bounds, the steps that have begun and wait for the spare, oldest first (slice, start, request), and
the start of the last step begun. -/
structure GrpCal where
  slice : Nat
  stage : Nat
  start : Nat
  next  : Nat
  susp  : Bool
  perm  : Option Nat
  asked : List (Nat × BitVec 16 × Bool)
  mine  : Option (BitVec 16 × Bool)
  endAt : Nat
  fresh : Option (Int × Int)
  wait  : List (Nat × Nat × Option (BitVec 16 × Bool))
  begun : Nat
deriving DecidableEq, Repr

/-- A slice: consecutive faulty results, FAILED, and the offset and gain in force (ppm of span, ppm). -/
structure SliceSt where
  bad    : Nat
  failed : Bool
  ofs    : Int
  gain   : Int
deriving DecidableEq, Repr

/-- A crossing comparator (R297, R304). -/
structure Xc where
  cfg  : Word
  ts   : Word
  live : Bool
  pol  : Bool
  cnt  : Nat
deriving DecidableEq, Repr

/-- The test DAC (R298, R299, R307): TDAC_CFG, TDAC_RES, and the request a running test answers. -/
structure Tdac where
  cfg  : Word
  res  : Word
  busy : Bool
  req  : Option (BitVec 16 × Bool)
deriving DecidableEq, Repr

/-- A sense die's acquisition (R268 to R309). `calDone` says that the calibration at enable is done; `calOn` are the slices it still runs on,
`calEnd` its latest end (R293). -/
structure Acq where
  ain     : Vector Word 48
  last    : Vector LastR 48
  seqs    : Vector Seqr 9
  lines   : Vector TLine 32
  aclk    : Word
  aclkNew : Option Word
  aclkAt  : Option Int
  tmr     : Vector Word 4
  tmrNew  : Vector (Option Word) 4
  tmrAt   : Vector Nat 4
  xc      : Vector Xc 12
  intOk   : Bool
  extOk   : Bool
  ssOk    : Vector Bool 12
  ssShed  : Vector Bool 12
  vRef    : Nat
  calCfg  : Word
  grps    : Vector GrpCal 3
  slices  : Vector SliceSt 23
  lateCnt : Nat
  tdac    : Tdac
  ring    : List ConvRec
  widx    : Nat
  ovr     : Nat
  late    : Nat
  calDone : Bool
  calOn   : Vector Bool 23
  calEnd  : Nat
  session : Option Nat
deriving DecidableEq, Repr

/-- A reservation (R246, R252): slot and the cycle count it was frozen for, cylinder, pair, profile, reservoir, cost in
J, drawn, shortfall already raised. -/
structure Resv where
  k     : Nat
  cyc   : Nat
  cyl   : Nat
  pair  : Nat
  prof  : Nat
  res   : Nat
  cost  : Rat
  drawn : Bool
  short : Bool
deriving DecidableEq, Repr

/-- A standing claim (R251): reservoir, cylinder, cost in J. -/
structure Claim where
  res  : Nat
  cyl  : Nat
  cost : Rat
deriving DecidableEq, Repr

/-- An opening's BOOST and the measurement of its cost (R244, R245): pair, profile, reservoir, start and end of BOOST, the last sample at or before
the start as (V, instant), whether BOOST ended by a fault or an abort, when the kill latch was last released before it and first set after it,
and whether the measurement is over. -/
structure Meas where
  pair  : Nat
  prof  : Nat
  res   : Nat
  bst   : Nat
  bstEnd : Option Nat
  vb    : Option (Rat × Nat)
  drop  : Bool
  freeAt : Nat
  latchAt : Option Nat
  done  : Bool
deriving DecidableEq, Repr

/-- A reservoir's configuration and what a half keeps of it (R253 to R261): RES_CFG0 to 2, the share energy in J as
published or modelled, FROZEN, cycles left of the start period, whether the tracker has left STOP since the last
commit on it, SKIPS, reserved cost booked in the cycle running, whether the reservoir is shared, the fraction f_h, the reserved cost booked in
the cycle just ended, and U_MEAS in J of the tick where the half has it. -/
structure ResSt where
  c0     : Word
  c1     : Word
  c2     : Word
  share  : Rat
  frozen : Bool
  start  : Nat
  armed  : Bool
  skips  : Nat
  booked : Rat
  shared : Bool
  frac   : Rat
  prev   : Rat
  uMeas  : Option Rat
deriving DecidableEq, Repr

/-- A half's ledger (R239 to R261). Learned costs are kept for the pairs and profiles measured since CONFIG_COMMIT; any
other stands at 16 copies of COST0 as CONFIG_COMMIT found it (`fill`, R243). `vIns` is V_IN of the last ticks with their instants, newest
first (R244). -/
structure Led where
  res   : Vector ResSt 8
  map   : Vector Word 24
  cost0 : Vector Word 32
  hist  : List ((Nat × Nat) × List Rat)
  resv  : List Resv
  claims : List Claim
  meas  : List Meas
  vIn   : Nat
  fill  : Vector Word 32
  vIns  : List (Nat × Nat)
deriving DecidableEq, Repr

end Sys2Proof.Machine
end

