-- ==== Sys2Proof/Machine/PartsLane.lean ====
section
/-! DEFINITION. The analysis lanes of a sense die (R310 to R329) and the sluice engines of a timing die (R344 to R371). -/

namespace Sys2Proof.Machine

open Sys2Proof

/-- A sample of a lane (R313, R314): throw angle in Q16, angle-clock point in 1/20 degree, code, valid, converted by the
spare, its supply off, hold instant, taken in LIMP (R324), the sensor supply in microvolts as its conversion had it (R271); and what R149 asks at
its instant: tau_app, and whether a calibration sample may be kept. -/
structure Smp where
  phi   : Rat
  ang   : Int
  code  : BitVec 16
  ok    : Bool
  spare : Bool
  off   : Bool
  hold  : Nat
  limp  : Bool
  vss   : Int
  tau   : Rat
  keep  : Bool
deriving DecidableEq, Repr

/-- A result stage of a window that has closed (R320 to R326): which stage, cylinder, cycle count, QUAL bits, RES_USED, the
figures in the units of R326 (none: not computed), invalid samples, CK_CMB, QTOT in J, whether
a FUEL slot of the cylinder fired in the cycle, and the hold of the sample that closed the window (R323). -/
structure ResOut where
  imep    : Bool
  lane    : Nat
  cyl     : Nat
  cyc     : Nat
  qual    : Nat
  resUsed : Nat
  peg     : Option Int
  imepV   : Option Int
  pmax    : Option Int
  apmax   : Option Int
  dpmax   : Option Int
  qtot    : Option Int
  mfb10   : Option Int
  mfb50   : Option Int
  mfb90   : Option Int
  ki      : Option Int
  aki     : Option Int
  ninv    : Nat
  ck      : Int
  qJ      : Option Rat
  fuel    : Bool
  at_     : Nat
deriving DecidableEq, Repr

/-- A trace block in progress (R328, R329): RES, flags, cycle count, A0, HOLD0, samples newest first, DECIM_FROM, the
last angle-clock point taken, and whether an invalid sample is among them. -/
structure Trace where
  res   : Nat
  shed  : Bool
  limp  : Bool
  cyc   : Nat
  a0    : Int
  hold0 : Word
  smps  : List (BitVec 16)
  decim : Option Nat
  last  : Int
  inv   : Bool
deriving DecidableEq, Repr

/-- An analysis lane (R310 to R340). The samples of the throw cycle running, newest first; what has closed in it; the
pegging offset in bar; QTOT of the last 16 valid cycles; `tail` is the last valid sample of the cycle before with the invalid ones after it, newest
first, their throw angles less L (R314); `phi` is the throw angle of the last angle-clock point, `next` RES_REDUCED of a throw cycle that has begun and has
no sample yet (R312), `trcNew` that a trace block is due to begin (R328). -/
structure Lane where
  cfg     : Vector Word 6
  scale   : Word
  pscale  : Word
  smps    : List Smp
  cycNo   : Nat
  red     : Bool
  peg     : Option Rat
  pegFail : Bool
  cmbDone : Bool
  impDone : Bool
  results : List ResOut
  qtots   : List Rat
  ninv    : Nat
  misf    : Nat
  knock   : Nat
  miswired : Bool
  trace   : Option Trace
  tail    : List Smp
  phi     : Option Rat
  next    : Option Bool
  trcNew  : Bool
deriving DecidableEq, Repr

/-- The lanes of a sense die and TRC_CFG. -/
structure Ana where
  lanes : Vector Lane 12
  trc   : Word
deriving DecidableEq, Repr

/-- A sluice engine (R348 to R358, R366 to R368). `acc` is the divider's accumulator, `wait` the ticks until the next
instruction, `beg` and `begFrame` TCNT and FRAME when the stalled instruction began, `mid` that a stalled SHIFT has moved
its bits and waits to store; `txb` and `rxb` are the steward's buffers of 64 words (R439), `seen` the level the watch pin last sampled (R350); `txNew` of the TX
words the steward wrote in the SLUCLK period `txAt` (R356). -/
structure Sle where
  cfg0     : Word
  cfg1     : Word
  cfg2     : Word
  clk      : Word
  tlim     : Word
  st       : Nat
  pc       : Nat
  c0       : Word
  c1       : Word
  sr       : Word
  tcnt     : Word
  tprev    : Word
  outLeft  : Nat
  inGot    : Nat
  fall     : Option Word
  rise     : Option Word
  timeout  : Bool
  tx       : List Word
  rx       : List Word
  ovr      : Bool
  unr      : Bool
  abandon  : Bool
  lost     : Bool
  addr     : Bool
  acc      : Nat
  wait     : Nat
  stall    : Bool
  mid      : Bool
  beg      : Word
  begFrame : Word
  txb      : List Word
  rxb      : List Word
  seen     : Bool
  txAt     : Nat
  txNew    : Nat
deriving DecidableEq, Repr

/-- A program load that waits for its swap (R361 to R363): engine mask, configurations by engine, FORCE, the instant of its
expiry, SEQ and SILENT of its request. -/
structure Swap where
  mask   : Nat
  cfgs   : List (Nat × List Word)
  force  : Bool
  expiry : Option Nat
  req    : BitVec 16 × Bool
deriving DecidableEq, Repr

/-- A group (R344, R361, R369): both banks, which is active, the flags, the FRAME_ALIGN actions waiting with
the SEQ of their requests (false: a register write, no request), the pending swap, FRAME_ALIGN as last written; the flags set in the SLUCLK
period `setAt` (R353). -/
structure Slg where
  bank0  : Vector (BitVec 24) 48
  bank1  : Vector (BitVec 24) 48
  bank   : Bool
  flags  : BitVec 16
  ctl    : List (Word × BitVec 16 × Bool)
  swap   : Option Swap
  align  : Bool
  sets   : BitVec 16
  setAt  : Nat
deriving DecidableEq, Repr

/-- An SL pin (R346, R347, R370): SLP_CFG, the level and direction an engine last wrote, a run-time claim (rank, engine); of its input:
the level at the terminal and the SLUCLK edge at which the synchroniser took it, the filtered level, and the filter's changes on their way
(SLUCLK edge, level), oldest first. -/
structure SlPin where
  cfg   : Word
  lvl   : Bool
  dir   : Bool
  claim : Option (Nat × Nat)
  raw   : Bool
  rawAt : Nat
  filt  : Bool
  due   : List (Nat × Bool)
deriving DecidableEq, Repr

/-- What the steward decodes for a library engine (R365, R445): the last accepted sync, the nibbles of the SENT frame
running, whether its pause is awaited, the words taken of a longer value, VALUE, its FRAME, error, whether a value has come,
the status nibbles newest first, and the last serial message with its FRAME; the FRAME at which the last read or pattern began, and whether
the read has brought no value yet. -/
structure LibVal where
  sync   : Option Nat
  nibs   : Option (List Nat)
  pauseD : Bool
  words  : List Word
  value  : Nat
  frame  : Word
  err    : Bool
  have_  : Bool
  status : List Nat
  serial : Option (Nat × Word)
  begun  : Option Word
  asked  : Bool
deriving DecidableEq, Repr

/-- The sluice engines of a timing die. -/
structure Slu where
  eng  : Vector Sle 8
  grp  : Vector Slg 2
  pins : Vector SlPin 16
  libs : List LibVal
  auto : Bool
deriving DecidableEq, Repr

/-- What a half hands to the hub within one step; empty between steps. -/
inductive Out where
  /-- An entry for the event log (R460): TYPE, CODE, FRAME, DATA. -/
  | log (typ code : Nat) (frame : Word) (data : List Byte)
  /-- A Weir record of a source of the half (R412). -/
  | weir (src kind : Nat) (level : Bool) (frame : Word) (payload : Word)
  /-- An event counted in the hub (R460). -/
  | ev (e : Ev)
  /-- An unsolicited record (R454): mailbox, command, FRAME of its event (R455), payload, wake. -/
  | unsol (mb cmd : Nat) (frame : Word) (payload : List Byte) (wake : Bool)
  /-- A completion of a request that waited on the half: mailbox, SEQ, status, payload. -/
  | done (mb : Nat) (seq : BitVec 16) (status : Nat) (payload : List Byte)
  /-- The kill net is driven with a cause (R226). -/
  | kill (cause : Nat)
  /-- An event entry for a cycle record (R188): cylinder, cycle count, entry bytes, key of the slot and freeze. -/
  | entry (cyl cyc : Nat) (bytes : List Byte) (key : Nat × Nat)
  /-- The outcome of an entry already written becomes another (R185). -/
  | outcome (cyl : Nat) (key : Nat × Nat) (o : Nat)
  /-- A tag set on an entry already written (R101): cylinder, key, tag bit. -/
  | tag (cyl : Nat) (key : Nat × Nat) (t : BitVec 16)
  /-- BOOST of a pair started under a profile for a slot (R244, R252). -/
  | boostStart (pair prof k : Nat)
  /-- BOOST of a pair ended; `drop` when its cost is not learned for how it ended (R245). -/
  | boostEnd (pair : Nat) (drop : Bool)
  /-- A classified edge for the tooth log and WHEEL_DIAG (R441, R446): input, TS, polarity, FIRST, class, POS. -/
  | tooth (i : Nat) (ts : Word) (pol first : Bool) (cls pos : Nat)
  /-- A result stage is complete (R323). -/
  | result (r : ResOut)
  /-- A trace block begins: cylinder (R328). -/
  | traceNew (cyl : Nat)
  /-- A cylinder's trace block goes on at half resolution (R329). -/
  | traceDecim (cyl : Nat)
  /-- A trace block is finished: cylinder, the block (R328). -/
  | trace (cyl : Nat) (bytes : List Byte)
  /-- A lane of a cylinder that its half does not commit asks for the cycle count (R325): lane of the half, cylinder. -/
  | laneCount (j : Fin 12) (cyl : Nat)
  /-- A combustion window has closed and no FUEL slot of the cylinder fired in this half: did one in the other (R322)? Lane of the half, cylinder,
  cycle count. -/
  | fuelAsk (j : Fin 12) (cyl cyc : Nat)
  /-- A cycle window closes (R320, R336): lane, cylinder, cycle count, cycle angle of the largest p_m, largest less smallest p_m in bar. -/
  | cyclePeak (lane cyl cyc : Nat) (ang : Option Int) (span : Rat)
  /-- Open analysis windows complete as INCOMPLETE (R324). -/
  | anaLoss
  /-- An angle-clock request of SEQ 0 was dropped (R286): its point, and the instant. -/
  | aclkLost (pt : Int × List Int) (hold : Nat)
  /-- A cylinder committed (R325): the cycle record opens. -/
  | opened (o : OpenRec)
  /-- A count was corrected (R539): cylinder, old and new count, the slots frozen at that commit. -/
  | recount (cyl old new : Nat) (ks : List Nat)
  /-- The peak of a combustion window (R149, CUT): cylinder, cycle count, angle of peak pressure; from there on, oldest first, throw angle, tau_app
  and whether a sample may be kept; running astern. -/
  | calPeak (cyl cyc : Nat) (ap : Int) (pts : List (Rat × Rat × Bool)) (ast : Bool)
deriving DecidableEq, Repr

end Sys2Proof.Machine
end

