-- ==== Sys2Proof/Machine/HalfState.lean ====
section
/-! DEFINITION. One half of the module: its timing die, its sense die, its steward, and what the configuration image
gives it. -/

namespace Sys2Proof.Machine

open Sys2Proof

/-- What a half keeps of the committed image beyond registers (R85, R141, R464, R474): wheel descriptions of CKD and
CKF, the phase inputs CMA and CMB, the static twist table, the cylinders' Basic events, HOLD_CYC, the digest
of the image in force, the inputs whose INVERT and whose EN the image sets, the banks with a power-stage input, which G comparators
are level sources, the library entries, the engine geometry (R315). -/
structure HalfCfg where
  ckd     : Wheel
  ckf     : Wheel
  cma     : PhaseDesc
  cmb     : PhaseDesc
  table   : TwistTable
  cyls    : List CylCfg
  holdCyc : Nat
  dig     : Option (List Byte)
  inverts : List Inp
  ens     : List Inp
  psfOn   : List (Fin 4)
  xcLevel : List (Fin 12)
  libs    : List LibCfg
  geom    : Geom
deriving DecidableEq, Repr

/-- A slot that has fired since the last accepted edge of the angle source: slot, cylinder, cycle count, due instant,
and whether a candidate was held (R101, R184). -/
structure Fired where
  k    : Fin 1024
  cyl  : Nat
  cyc  : Nat
  at_  : Nat
  cand : Bool
deriving DecidableEq, Repr

/-- One half (R14, R24). `now` counts et since the clock started; the half's 32-bit edge counter is its low 32 bits. `proc` says
that the snapshot its steward last processed stood in a state that allows events (R41, R175). -/
structure Half where
  id       : HalfId
  on       : Bool
  now      : Nat
  frame    : Word
  cfg      : HalfCfg
  rcv      : Vector Rcv 6
  rev      : Vector RevChk 6
  trk      : Trk
  tws      : Tws
  schCfg   : Word
  slots    : Vector Slot 1024
  cyls     : Vector CylSt 24
  banks    : Vector Bank 4
  chans    : Vector Chan 48
  pairs    : Vector Pair 24
  profs    : Vector (Vector Word 16) 32
  profNew  : Vector (Option (Vector Word 16 × BitVec 16)) 32
  fg       : Fg
  links    : Links
  flt      : Faults
  snap     : Snap
  proc     : Bool
  evq      : List WeirRec
  evqLost  : Nat
  evqOvf   : Bool
  fired    : List Fired
  pinElec  : Word
  shed     : Nat
  led      : Led
  acq      : Acq
  ana      : Ana
  slu      : Slu
  out      : List Out
deriving DecidableEq, Repr

end Sys2Proof.Machine
end

