-- ==== Sys2Proof/Machine/HalfOps.lean ====
section
/-! DEFINITION. The shared operations of a half: location codes, events, fault counting, angles and the passing of time. -/

namespace Sys2Proof

/-- The number of an input (R433). -/
def Inp.ix : Inp → Fin 6
  | .ckf => 0 | .ckd => 1 | .cma => 2 | .cmb => 3 | .aux1 => 4 | .aux2 => 5

/-- The input of a number, CKF where it names none. -/
def Inp.ofCode : Nat → Inp
  | 1 => .ckd | 2 => .cma | 3 => .cmb | 4 => .aux1 | 5 => .aux2 | _ => .ckf

/-- The six inputs. -/
def allInps : List Inp := [.ckf, .ckd, .cma, .cmb, .aux1, .aux2]

/-- The other half. -/
def HalfId.other : HalfId → HalfId
  | .A => .B | .B => .A

/-- 0 for half A, 1 for half B. -/
def HalfId.num : HalfId → Nat
  | .A => 0 | .B => 1

/-- The timing die of a half in a location code (R22). -/
def HalfId.timingDie : HalfId → Nat
  | .A => 1 | .B => 3

/-- The sense die of a half in a location code (R22). -/
def HalfId.senseDie : HalfId → Nat
  | .A => 2 | .B => 4

/-- The place of a half's steward among the cores S0, S1, steward A, steward B. -/
def HalfId.stew : HalfId → Fin 4
  | .A => 2 | .B => 3

/-- The place of a half's direction of the Leat. -/
def HalfId.toward : HalfId → Fin 2
  | .A => 0 | .B => 1

/-- The place of a core. -/
def Core.ix : Core → Fin 4
  | .s0 => 0 | .s1 => 1 | .stewA => 2 | .stewB => 3

/-- The base of a half's Weir sources (R407). -/
def HalfId.weirBase : HalfId → Nat
  | .A => 0x100 | .B => 0x500

end Sys2Proof

namespace Sys2Proof.Machine

open Sys2Proof

/-- A quotient whose rounding the spec does not state: exact where it comes out, else one of its two neighbours, which
one is free (log 10). -/
def roundFree (place : Nat) (num : Int) (den : Nat) : Int :=
  if num % den = 0 then num / den else num / den + bit (Config.roundUp place num den)

/-- The same of a rational. -/
def roundFreeQ (place : Nat) (q : Rat) : Int := roundFree place q.num q.den

/-- One degree in Q16 (R9). -/
def deg : Int := 65536

/-- One revolution of a wheel in Q40 degrees. -/
def rev40 : Nat := 360 * 2 ^ 40

/-- One second and one millisecond in et (section Time, counters and rates). -/
def etPerSec : Nat := 800000000

/-- One millisecond in et. -/
def etPerMs : Nat := 800000

/-- One microsecond in et. -/
def etPerUs : Nat := 800

/-- A location code (R22). -/
def locCode (lvl die kind ch slot cell : Nat) : Word :=
  put lvl 3 29 ||| put die 3 26 ||| put kind 1 25 ||| put ch 7 18 ||| put slot 10 8 ||| put cell 8 0

/-- The code of an event that names a wheel input, 7 for none (R531). -/
def locInp (id : HalfId) (i : Nat) : Word := locCode 2 id.timingDie 0 0 0 i

/-- The code of an event of the links or the role of a half (R531). -/
def locHalf (id : HalfId) : Word := locCode 1 id.timingDie 0 0 0 0

/-- The code of an event of a sense die without an input (R531). -/
def locSense (id : HalfId) : Word := locCode 2 id.senseDie 0 0 0 0

/-- The number of a half's channel in the module (R14). -/
def chanNum (id : HalfId) (m : Nat) : Nat := m + 48 * id.num

/-- The code of an event that names a channel. -/
def locChan (id : HalfId) (m : Nat) : Word := locCode 4 id.timingDie 0 (chanNum id m) 0 0

/-- The code of an event that names a slot. -/
def locSlot (id : HalfId) (m k : Nat) : Word := locCode 5 id.timingDie 0 (chanNum id m) k 0

/-- The analog input index of a half's input 0-47 (PS, IS, GP) in a location code (R22). -/
def ainNum (id : HalfId) (i : Nat) : Nat :=
  if i < 12 then i + 12 * id.num else if i < 36 then 24 + (i - 12) + 24 * id.num else 72 + (i - 36) + 12 * id.num

/-- The code of an event that names an analog input. -/
def locAin (id : HalfId) (i : Nat) : Word := locCode 4 id.senseDie 1 (ainNum id i) 0 0

/-! ### Fault classes (R462) -/

/-- Counted in the hub (R462). -/
def cntHub (c : Nat) : Bool :=
  c ∈ [0x1F, 0x2A, 0x2B, 0x60, 0x61, 0x62, 0x63, 0x66, 0x67, 0x68, 0x69, 0x6C, 0x6D, 0x6E, 0x6F, 0x70, 0x71, 0x72,
    0x73, 0x74, 0x75, 0x76]

/-- Counted in a half (R462). -/
def cntHalf (c : Nat) : Bool :=
  c ∈ [0x1F, 0x68, 0x75, 0x76] || !cntHub c

/-- A class of R462 with its defaults: window, unit (0 ms, 1 s, 2 rev, 3 cyc), threshold, LATCH. -/
def fltRow (c : Nat) : Nat × Nat × Nat × Bool :=
  if c ≤ 0x05 then (10, 1, 3, false)
  else if c = 0x06 then (10, 1, 1, false)
  else if c = 0x08 then (2, 2, 3, false)
  else if c = 0x09 then (2, 2, 16, false)
  else if c = 0x0A then (10, 2, 2, false)
  else if c = 0x0B ∨ c = 0x0E ∨ c = 0x0F ∨ c = 0x12 then (60, 1, 1, false)
  else if c = 0x0C then (4, 3, 3, false)
  else if c = 0x0D then (10, 2, 8, false)
  else if c = 0x10 then (60, 1, 2, false)
  else if c = 0x11 then (60, 1, 3, false)
  else if c = 0x13 then (1, 1, 3, false)
  else if c = 0x14 then (60, 1, 1, false)
  else if c = 0x15 then (100, 2, 3, false)
  else if c = 0x18 then (10, 3, 16, false)
  else if c = 0x19 then (10, 3, 4, false)
  else if c = 0x1A ∨ c = 0x1B then (60, 1, 1, false)
  else if c = 0x1D ∨ c = 0x1E then (10, 3, 16, false)
  else if c = 0x1F then (1, 1, 3, false)
  else if c = 0x21 ∨ c = 0x22 then (1, 1, 3, false)
  else if c = 0x23 ∨ c = 0x27 ∨ c = 0x28 ∨ c = 0x29 then (60, 1, 1, false)
  else if c = 0x24 ∨ c = 0x25 then (10, 3, 3, false)
  else if c = 0x26 then (10, 3, 8, false)
  else if c = 0x30 then (1, 1, 64, false)
  else if c = 0x31 then (1, 1, 8, false)
  else if c = 0x32 then (10, 1, 3, false)
  else if c = 0x33 then (600, 1, 3, false)
  else if c = 0x34 then (3600, 1, 2, false)
  else if c = 0x35 then (0, 0, 1, true)
  else if c = 0x36 ∨ c = 0x37 ∨ c = 0x38 then (60, 1, 1, false)
  else if c = 0x3A ∨ c = 0x3B then (10, 3, 4, false)
  else if c = 0x3C ∨ c = 0x3D then (10, 3, 3, false)
  else if c = 0x3E then (20, 3, 5, false)
  else if c = 0x44 ∨ c = 0x45 ∨ c = 0x47 then (1, 1, 3, false)
  else if c = 0x46 ∨ c = 0x48 ∨ c = 0x49 then (60, 1, 1, false)
  else if c = 0x4A then (1, 1, 10, false)
  else if c = 0x4D then (10, 3, 16, false)
  else if c = 0x4E then (10, 3, 4, false)
  else if c = 0x50 ∨ c = 0x51 ∨ c = 0x52 then (60, 1, 1, false)
  else if c = 0x62 then (60, 1, 1, false)
  else if c = 0x64 then (10, 3, 8, false)
  else if c = 0x65 ∨ c = 0x66 then (60, 1, 1, false)
  else if c = 0x67 then (600, 1, 3, false)
  else if c = 0x68 then (60, 1, 1, false)
  else if c = 0x6C then (10, 3, 4, false)
  else if c = 0x6E then (10, 3, 8, false)
  else if c = 0x6F then (10, 3, 3, false)
  else if 0x70 ≤ c ∧ c ≤ 0x73 then (60, 1, 1, false)
  else if c = 0x74 then (100, 3, 3, false)
  else if c = 0x75 then (1, 1, 16, false)
  else if c = 0x76 then (60, 1, 1, false)
  else (0, 0, 0, false)

/-- The default FLT_CFG of a class: REACT 1 and the values of R462 (R464, R465). -/
def fltDefault (c : Nat) : Word :=
  let r := fltRow c
  put r.1 12 20 ||| put r.2.1 2 18 ||| put r.2.2.1 6 12 ||| putB true 11 ||| putB r.2.2.2 10

/-- The threshold of a class. TRIG_LATE's default of 64 lies outside THR's six bits: its default word stands for 64
(log 11). -/
def fltThr (c : Nat) (w : Word) : Nat := if c = 0x30 ∧ w = fltDefault 0x30 then 64 else fltCfgThr w

/-- The FLT_CFG, counter and reset value of an empty counting place. -/
def FltCnt.zero : FltCnt := ⟨[], 0, false, false, 0#32, 0#32, none⟩

/-- A counting place after reset (R465). -/
def Faults.reset : Faults := ⟨Vector.ofFn (fun c => fltDefault c.1), Vector.replicate 192 FltCnt.zero, 0, [], [], []⟩

/-- FLT_CFG of a class, 0 beyond the last. -/
def Faults.cfgOf (f : Faults) (c : Nat) : Word := f.cfg.toArray.getD c 0#32

/-- The counter of a class. -/
def Faults.cntOf (f : Faults) (c : Nat) : FltCnt := f.cnt.toArray.getD c FltCnt.zero

/-- The frame tick of the place at which a FRAME stands, where its FRAME is `now` (R13, R457). -/
def Faults.tickOf (f : Faults) (now fr : Word) : Int := f.ticks - frameDiff now fr

/-- A revolution or wrap list says how many were completed since a frame tick; none when that lies before the oldest
kept (R457). -/
def ageIn (l : List Int) (t : Int) : Option Nat := if l.getLast?.any (t < ·) then none else some (l.countP (t < ·))

/-- The event lies within its class's window now (R456, R457). -/
def Faults.inWin (f : Faults) (x : Int × Ev) : Bool :=
  let w := f.cfgOf x.2.cls
  let win := fltCfgWin w
  let within (n : Nat) : Bool := x.1 ≤ f.ticks && f.ticks - x.1 < n
  if win = 0 then true else
  match fltCfgUnit w with
  | 0 => within (win * 100)
  | 1 => within (win * 100000)
  | 2 => (ageIn f.revs x.1).any (· < win)
  | _ => (ageIn f.wraps x.1).any (· < win)

/-- Events of a class within its window, all since CONFIG_COMMIT for a class without one (R456). -/
def Faults.count (f : Faults) (c : Nat) : Nat :=
  if fltCfgWin (f.cfgOf c) = 0 then (f.cntOf c).total else ((f.cntOf c).evts.filter f.inWin).length

/-- A counter with one event more, which stands at frame tick `t` (R456). LAST_FRAME and FLT_LOC are those of the latest event by its FRAME
(R457, R465): a forwarded one that lies before the latest leaves them. -/
def FltCnt.add (t : Int) (e : Ev) (r : FltCnt) : FltCnt :=
  let r1 : FltCnt := { r with evts := (t, e) :: r.evts, total := r.total + 1 }
  if r.lastAt.any (t < ·) then r1 else { r1 with last := e.frame, loc := e.loc, lastAt := some t }

/-- Count one event (R456): the place after it, whether the class became lasting at it, whether it is the first after a
quiet window (R460). -/
def Faults.count1 (f : Faults) (now : Word) (e : Ev) : Faults × Bool × Bool :=
  match fin? 192 e.cls with
  | none => (f, false, false)
  | some c =>
    let r := f.cnt.get c
    let t := f.tickOf now e.frame
    let quiet := f.count e.cls = 0
    let f1 : Faults := { f with cnt := put1 f.cnt c (r.add t e) }
    let thr := fltThr e.cls (f.cfg.get c)
    let nowLast := !r.lasting && thr ≠ 0 && f.inWin (t, e) && f1.count e.cls ≥ thr
    let f2 : Faults := if nowLast then { f1 with cnt := upd f1.cnt c (fun x => { x with lasting := true, seen := true }) } else f1
    (f2, nowLast, quiet)

/-- A class returns to transient when a full window has passed without its events (R459). -/
def Faults.ends (f : Faults) (c : Fin 192) : Bool :=
  let r := f.cnt.get c
  let w := f.cfg.get c
  r.lasting && fltCfgWin w ≠ 0 && !fltCfgLatch w && !(r.evts.any f.inWin)

/-- Classes lasting now. -/
def Faults.lasting (f : Faults) (c : Nat) : Bool := (f.cntOf c).lasting

/-- The reaction of a class acts: lasting, with REACT = 1 (R463, R464). -/
def Faults.reacts (f : Faults) (c : Nat) : Bool := (f.cntOf c).lasting && fltCfgReact (f.cfgOf c)

/-- The longest rev or cyc window configured, and how many completions are kept (R457). -/
def Faults.longest (f : Faults) (unit : Nat) : Nat :=
  f.cfg.toList.foldl (fun m w => if fltCfgUnit w = unit then max m (fltCfgWin w) else m) 0

/-- A revolution of the angle source completed at the present frame tick (R457). -/
def Faults.revDone (f : Faults) : Faults := { f with revs := ((f.ticks : Int) :: f.revs).take (f.longest 2) }

/-- A wrap of the cycle angle completed at the present frame tick (R457). -/
def Faults.wrapDone (f : Faults) : Faults := { f with wraps := ((f.ticks : Int) :: f.wraps).take (f.longest 3) }

/-- One frame tick is counted. -/
def Faults.tick (f : Faults) : Faults := { f with ticks := f.ticks + 1 }

/-- FLT_STAT (R465). -/
def Faults.stat (f : Faults) (c : Fin 192) : Word :=
  let r := f.cnt.get c
  put (sat 6 (f.count c.1)) 6 26 ||| putB r.lasting 25 ||| putB r.seen 24 ||| put r.last.toNat 24 0

/-- A lasting class returns to transient at CONFIG_COMMIT: a latched or windowless one (R459). -/
def Faults.endsAtCommit (f : Faults) (c : Fin 192) : Bool :=
  let w := f.cfg.get c
  (f.cnt.get c).lasting && (fltCfgLatch w || fltCfgWin w = 0)

/-- CONFIG_COMMIT on a counting place: the new FLT_CFG; latched and windowless classes return to transient; counts of
windowless classes restart (R456, R459). -/
def Faults.commit (f : Faults) (cfg : Vector Word 192) : Faults :=
  { f with cfg := cfg, cnt := Vector.ofFn (fun c : Fin 192 =>
      let r := f.cnt.get c
      { r with total := 0, lasting := r.lasting && !f.endsAtCommit c
               evts := if fltCfgWin (cfg.get c) = 0 then [] else r.evts }) }

/-- The classes that leave the lasting state at CONFIG_COMMIT, each with its latest location code and its COUNT under the new FLT_CFG: their
LASTING_LEAVE entries (R459, R460). -/
def Faults.leaves (f : Faults) (cfg : Vector Word 192) : List (Nat × Word × Nat) :=
  ((idxs 192).filter f.endsAtCommit).map (fun c => (c.1, (f.cnt.get c).loc, (f.commit cfg).count c.1))

/-- Location code and COUNT, as log and record carry them (R454, R505). -/
def evData (loc : Word) (n : Nat) : List Byte := leW loc ++ le 2 (sat 16 n)

/-! ### A half's events -/

/-- Hand something to the hub (R412). -/
def Half.emit (o : Out) (h : Half) : Half := { h with out := h.out ++ [o] }

/-- The half's 32-bit edge counter (R73, R408). -/
def Half.ts (h : Half) : Word := BitVec.ofNat 32 h.now

/-- Raise an event of a fault class (R456, R460, R461): its Weir record from source H + 0x080 + class, and its count. -/
def Half.raise (c : Nat) (loc : Word) (h : Half) : Half :=
  let h1 := h.emit (.weir (h.id.weirBase + 0x080 + c) 0 false h.frame loc)
  let h2 : Half := if cntHalf c then { h1 with flt := { h1.flt with queue := h1.flt.queue ++ [⟨c, h.frame, loc⟩] } } else h1
  if cntHub c && !cntHalf c then h2.emit (.ev ⟨c, h.frame, loc⟩) else h2

/-! ### Wheels and angles -/

/-- The cycle length L in Q16 (R5, R125). -/
def Trk.cycLen (t : Trk) : Int := if trkCfg0Cycle t.cfg0 = 0 then 720 * deg else 360 * deg

/-- The cycle length of a half. -/
def Half.cycLen (h : Half) : Int := h.trk.cycLen

/-- An angle wrapped into [-L/2, +L/2) (R6, R130). -/
def wrapS (len a : Int) : Int := (a + len / 2) % len - len / 2

/-- The half's description of a crank wheel. -/
def Half.wheel (h : Half) : Inp → Wheel
  | .ckd => h.cfg.ckd
  | .ckf => h.cfg.ckf
  | _ => Wheel.absent

/-- REF_WHEEL as an input (R125). -/
def Trk.refInp (t : Trk) : Inp := if trkCfg0RefWheel t.cfg0 then .ckf else .ckd

/-- The other crank wheel. -/
def otherCrank : Inp → Inp
  | .ckf => .ckd
  | _ => .ckf

/-- PHASE_SRC as an input (R125). -/
def Trk.phaseInp (t : Trk) : Option Inp :=
  match trkCfg0PhaseSrc t.cfg0 with
  | 1 => some .cma
  | 2 => some .cmb
  | _ => none

/-- The phase input's description. -/
def Half.phaseDesc (h : Half) : PhaseDesc := if trkCfg0PhaseSrc h.trk.cfg0 = 2 then h.cfg.cmb else h.cfg.cma

/-- The receiver of an input. -/
def Half.rcvOf (h : Half) (i : Inp) : Rcv := h.rcv.get i.ix

/-- The reversed-pair state of an input. -/
def Half.revOf (h : Half) (i : Inp) : RevChk := h.rev.get i.ix

/-- An input is FAILED (R82). -/
def Half.failed (h : Half) (i : Inp) : Bool := (h.revOf i).failed

/-- LIMP (R103). -/
def Trk.inLimp (t : Trk) : Bool := t.st = 6

/-- The cycle angle is valid: PHASE, SYNC, SYNC_CHECK, LIMP (R103, R127). -/
def Trk.angleValid (t : Trk) : Bool := 3 ≤ t.st ∧ t.st ≤ 6

/-- A state in which R103 allows events: SYNC, SYNC_CHECK, LIMP. -/
def Trk.fires (t : Trk) : Bool := 4 ≤ t.st ∧ t.st ≤ 6

/-- The wheel angle is valid: GAP_FOUND and the states with a cycle angle. -/
def Trk.runs (t : Trk) : Bool := 2 ≤ t.st ∧ t.st ≤ 6

/-- The end angle a wheel gives: R102 running ahead, R119 running astern; `acc` is the accumulator in the direction of
travel. -/
def endAngle (len : Int) (w : Wheel) (astern : Bool) (acc rev : Nat) : Int :=
  let x : Int := (acc / 2 ^ 24 : Nat)
  if astern then (x - w.cycOfs) % len else (w.cycOfs + x + 360 * deg * (rev : Nat)) % len

/-- The published cycle angle of the half, truncated to Q16 (section Interpolation, R102, R119, R122). -/
def Half.cyc (h : Half) : Int :=
  if h.trk.inLimp then ((h.trk.src.acc / 2 ^ 24 : Nat) : Int) % h.cycLen else
  endAngle h.cycLen (h.wheel (h.trk.src.inp.getD .ckd)) h.trk.dir.read h.trk.src.acc h.trk.rev

/-- An entry of the twist unit is in use (R156). -/
def TwsCyl.valid (c : TwsCyl) : Bool := twsWValid c.w

/-- The cylinder of an entry. -/
def TwsCyl.cyl (c : TwsCyl) : Nat := twsWCyl c.w

/-- The entry of a cylinder. -/
def Half.entry (h : Half) (cyl : Nat) : Option (Fin 24) :=
  (idxs 24).find? (fun k => (h.tws.cyl.get k).valid && (h.tws.cyl.get k).cyl = cyl)

/-- The presented throw angle of a cylinder (R135), 0 where it has no entry. -/
def Half.presented (h : Half) (cyl : Nat) : Int :=
  match h.entry cyl with
  | some k => (h.tws.cyl.get k).pres
  | none => 0

/-- The presented angle of one entry after the computed throw angle is `phi`: it never falls except at its wrap (R135). -/
def presentNext (len pres phi : Int) : Int := if 0 ≤ wrapS len (phi - pres) then phi else pres

/-- A cylinder's throw angle wraps at +L/2 (R175, R539): its next cycle begins, not committed, with the other half's report that ran ahead; a
commit of the cycle before that has no report yet still waits for it. -/
def CylSt.wrap (fr : Word) (shed : Bool) (s : CylSt) : CylSt :=
  { s with committed := false, skip := false, theirs := s.ahead, ahead := none, old := true, wrapAt := fr, shedCyc := shed
           mine := if s.theirs.isNone && !s.old then s.mine else none }

/-- Present the throw angles anew; a cylinder whose presented angle wraps begins a new cycle (R135, R175). -/
def Half.present (h : Half) : Half :=
  if !h.trk.angleValid then h else
  let len := h.cycLen
  let cy := h.cyc
  let new := h.tws.cyl.map (fun c => presentNext len c.pres (wrapS len (cy + c.c)))
  let wraps (k : Fin 24) : Bool := (h.tws.cyl.get k).valid && new.get k < (h.tws.cyl.get k).pres
  let cyls := Vector.ofFn (fun k : Fin 24 =>
    let s := h.cyls.get k
    if wraps k then s.wrap h.frame (3 ≤ h.shed) else s)
  { h with cyls := cyls
           tws := { h.tws with cyl := Vector.ofFn (fun k : Fin 24 =>
             let c := h.tws.cyl.get k
             { c with pres := new.get k, turn := c.turn + bit (wraps k) }) } }

/-- The shed level reaches a half; level 3 or 4 marks the cycle that every cylinder is in (R263, R326). -/
def Half.setShed (n : Nat) (h : Half) : Half :=
  { h with shed := n, cyls := if 3 ≤ n then h.cyls.map (fun c => { c with shedCyc := true }) else h.cyls }

/-- The modulus of the source accumulator: one revolution, or the cycle in LIMP (R122). -/
def Half.accMod (h : Half) : Nat := if h.trk.inLimp then h.cycLen.toNat * 2 ^ 24 else rev40

/-- The source accumulator set to a value that may reach past its modulus: revolutions and wraps of the cycle angle are
counted, the revolution index follows (R102, R457). -/
def Half.setAcc (a : Nat) (h : Half) : Half :=
  let m := h.accMod
  let turns := a / m
  let old := h.cyc
  let t := h.trk
  let rev := if h.cycLen = 720 * deg then (t.rev + turns) % 2 else 0
  let h1 : Half := { h with trk := { t with src := { t.src with acc := a % m }, rev := if t.inLimp then t.rev else rev } }
  let h2 : Half := if turns = 0 then h1 else { h1 with flt := h1.flt.revDone }
  if t.angleValid && (h2.cyc < old || (turns ≠ 0 && h.cycLen = 360 * deg)) then
    { h2 with flt := h2.flt.wrapDone, links := { h2.links with wrapped := true, turned := true } } else h2

/-- `n` et pass in a half: its edge counter counts, the interpolators add INC (R99, section Interpolation), the throw
angles follow (R135). -/
def Half.advance (n : Nat) (h : Half) : Half :=
  let h1 : Half := { h with now := h.now + n }
  if !h.trk.runs then h1 else
  let h2 := h1.setAcc (h1.trk.src.acc + n * h1.trk.src.inc)
  let t := h2.trk
  let h3 : Half := if t.secSt = 2 then { h2 with trk := { t with sec := { t.sec with acc := (t.sec.acc + n * t.sec.inc) % rev40 } } } else h2
  h3.present

end Sys2Proof.Machine
end

