-- ==== Sys2Proof/Machine/AcqOps.lean ====
section
/-! DEFINITION. Shared operations of acquisition: trigger lines, requests to sequencers, conversion records. -/

namespace Sys2Proof.Machine

open Sys2Proof

/-- The sequencers TARGET names (R302). -/
def targets (t : Nat) : List (Fin 9) :=
  (idxs 9).filter (fun q => if q.1 = 0 then t.testBit 8 else if q.1 ≤ 6 then t.testBit (1 + q.1) else t.testBit (q.1 - 7))

/-- The group of a sequencer: 0 P, 1 I, 2 G (R268). -/
def seqGrp (q : Nat) : Fin 3 := if q = 0 then 0 else if q ≤ 6 then 1 else 2

/-- The half-local input of a position of a sequencer (R268). -/
def seqInput (q pos : Nat) : Nat := if q = 0 then pos else if q ≤ 6 then 12 + 4 * (q - 1) + pos else 36 + 6 * (q - 7) + pos

/-- The et one conversion of a sequencer takes: 500 ns for all of P, 100 ns (I) and 200 ns (G) per input (R268). -/
def convEt (q : Nat) : Nat := if q = 0 then 400 else if q ≤ 6 then 80 else 160

/-- Sequence time of a number of conversions (R268). -/
def seqTime (q n : Nat) : Nat := if q = 0 then 400 else convEt q * n

/-- The positions MASK selects, ascending (R269, R301). -/
def maskPos (q m : Nat) : List Nat :=
  (List.range (if q = 0 then 12 else if q ≤ 6 then 4 else 6)).filter m.testBit

/-- The first CONVCLK edge at or after an instant (R279, R31). -/
def convEdge (t : Nat) : Nat := (t + 9) / 10 * 10

/-- The reference of an input is usable (R275): RATIO looks at the supply of its P position. -/
def Acq.refOk (a : Acq) (i : Nat) : Bool :=
  match ainCfgRef (a.ain.toArray.getD i 0#32) with
  | 0 => a.intOk
  | 1 => a.extOk
  | _ => a.ssOk.toArray.getD i false

/-- The test DAC acts on an input (R299). -/
def Acq.testOn (a : Acq) (i : Nat) : Bool := a.tdac.busy && tdacCfgInput a.tdac.cfg = i

/-- SPARE_IDX of a record taken now (R291): for P the position the spare converts (15 where MASK leaves that out), for I and G 0 if the spare serves the
slice, else 15. -/
def Acq.spareIdx (a : Acq) (q : Nat) : Nat :=
  let g := a.grps.get (seqGrp q)
  let srv : Option Nat := if 2 ≤ g.stage then some g.slice else g.perm
  if q = 0 then (match srv with
    | some x => if (maskPos 0 (seqCfgMask (a.seqs.get 0).cfg)).contains x then x else 15
    | none => 15)
  else if srv = some (if q ≤ 6 then q - 1 else q - 7) then 0 else 15

/-- INFO of a record (R291). -/
def infoWord (line q spare late src : Nat) (ovr tl rst ref test sat step : Bool) : Word :=
  put line 5 27 ||| put q 4 23 ||| put spare 4 19 ||| put late 8 11 ||| put src 3 8 ||| putB ovr 7 ||| putB tl 6 |||
    putB rst 5 ||| putB ref 4 ||| putB test 3 ||| putB sat 2 ||| putB step 1

/-- A record enters the ring of 1024 (R290). -/
def Acq.push (r : ConvRec) (a : Acq) : Acq := { a with ring := (r :: a.ring).take 1024, widx := (a.widx + 1) % 1024 }

/-- Change the acquisition of a half. -/
def Half.acqMap (f : Acq → Acq) (h : Half) : Half := { h with acq := f h.acq }

/-- Change one sequencer. -/
def Half.seqMap (q : Fin 9) (f : Seqr → Seqr) (h : Half) : Half := h.acqMap (fun a => { a with seqs := upd a.seqs q f })

/-- An overrun record at once (R284, R286): HOLD_TS the given instant, 0x8000 everywhere, OVERRUN; ACQ_OVERRUN raised. -/
def Half.overrun (q : Fin 9) (rq : Req) (ts : Nat) (h : Half) : Half :=
  let r : ConvRec := ⟨BitVec.ofNat 32 ts, infoWord rq.line q.1 15 0 rq.src true false false false false false rq.step,
    List.replicate 12 0x8000#16⟩
  let h1 := (h.acqMap (fun a => { a.push r with ovr := satInc 11 a.ovr })).raise 0x31 (locSense h.id)
  match rq.pt with
  | some pt => if q.1 = 0 && rq.src = 1 then h1.emit (.aclkLost pt ts) else h1
  | none => h1

/-- A sequencer takes a request at an instant (R285, R279): it holds its first input on the next CONVCLK edge. -/
def Half.takeReq (q : Fin 9) (rq : Req) (at_ : Nat) (late : Bool) (h : Half) : Half :=
  let a := h.acq
  let ps := maskPos q.1 (seqCfgMask (a.seqs.get q).cfg)
  let hold := convEdge at_
  let run : Run := ⟨rq, hold, ps, hold + seqTime q.1 ps.length, late, a.spareIdx q.1,
    ps.filter (fun p => !a.refOk (seqInput q.1 p)), ps.filter (fun p => a.testOn (seqInput q.1 p)), none⟩
  h.seqMap q (fun s => { s with run := some run, toWrite := s.toWrite ++ [run] })

/-- A sequencer is neither busy nor holding a request. -/
def Half.seqIdle (h : Half) (q : Fin 9) : Bool := let s := h.acq.seqs.get q; s.run.isNone && s.held.isEmpty

/-- A MASK written by the host takes effect once the sequencer is idle (R289); its request completes. -/
def Half.maskApply (q : Fin 9) (h : Half) : Half :=
  match (h.acq.seqs.get q).mask with
  | none => h
  | some (m, sq, _) =>
    if !h.seqIdle q then h else
    (h.seqMap q (fun s => { s with mask := none, cfg := (s.cfg &&& 0x000FFFFF#32) ||| put m 12 20 })).emit (.done 3 sq 0 [])

/-- Of two requests in one CONVCLK period the line with the lower number goes first (R285). -/
def Req.before (a b : Req) : Bool := convEdge a.at_ = convEdge b.at_ && a.line < b.line

/-- RESTART (R287): the sequence ends after the conversion in progress, the new one starts at that boundary. -/
def Half.restart (q : Fin 9) (r : Run) (rq : Req) (h : Half) : Half :=
  let made := min r.poss.length ((rq.at_ - r.hold) / convEt q.1 + 1)
  let bound := r.hold + made * convEt q.1
  let ended : Run := { r with rst := some made }
  let h1 := h.seqMap q (fun s => { s with run := none, toWrite := s.toWrite.map (fun x => if x = r then ended else x) })
  h1.takeReq q rq (max bound rq.at_) (bound > rq.at_)

/-- A request that finds the sequencer busy (R285 to R287). One that comes in the CONVCLK period in which the sequence ends waits for that end;
of two in one period the lower line comes before the other. -/
def Half.requestBusy (q : Fin 9) (r : Run) (rq : Req) (h : Half) : Half :=
  let s := h.acq.seqs.get q
  let after (x : Req) : Bool := convEdge x.at_ ≥ r.endAt
  if seqCfgPolicy s.cfg && q.1 ≠ 0 && !after rq then h.restart q r rq else
  let hs := s.held.takeWhile (fun x => !rq.before x) ++ [rq] ++ s.held.dropWhile (fun x => !rq.before x)
  if hs.length ≤ (if after (hs.getLastD rq) then 2 else 1) || (seqCfgPolicy s.cfg && q.1 ≠ 0) then h.seqMap q (fun s => { s with held := hs })
  else
    let x := hs.getLastD rq
    (h.seqMap q (fun s => { s with held := hs.dropLast })).overrun q x x.at_

/-- A request reaches a sequencer (R285 to R288). -/
def Half.request (q : Fin 9) (rq : Req) (h : Half) : Half :=
  let h := h.maskApply q
  match (h.acq.seqs.get q).run with
  | none => h.takeReq q rq rq.at_ false
  | some r =>
    if rq.before r.req then
      -- the lower line of the same period takes the sequence, the other finds it busy
      let run : Run := { r with req := rq }
      (h.seqMap q (fun s => { s with run := some run, toWrite := s.toWrite.map (fun x => if x = r then run else x) })).requestBusy q run r.req
    else h.requestBusy q r rq

/-- The line may trigger: enabled once the die is calibrated (R293), and ANGLE and ACLK only where events fire (R280,
R104). -/
def Half.lineOn (h : Half) (t : Fin 32) : Bool :=
  let w := (h.acq.lines.get t).cfg0
  trgCfg0En w && h.acq.calDone && (if trgCfg0Src w ≤ 1 then h.trk.fires && (!h.trk.inLimp || trgCfg0LimpEn w) else true)

/-- The triggers of a line whose DELAY still runs (R284): not those in the 24 et of fixed path after it. -/
def TLine.running (l : TLine) (now : Nat) : Nat := l.stage.countP (fun d => now + 24 < d.req)

/-- A trigger on a line (R277, R279, R284). -/
def Half.trigger (t : Fin 32) (step : Bool) (pt : Option (Int × List Int)) (h : Half) : Half :=
  let l := h.acq.lines.get t
  if !h.lineOn t then h
  else if l.running h.now < 4 then
    h.acqMap (fun a => { a with lines := upd a.lines t (fun l =>
      { l with stage := l.stage ++ [⟨h.now, h.now + trgCfg1Delay l.cfg1 + 24, step, pt⟩] }) })
  else eachOf (targets (trgCfg0Target l.cfg0)) (fun q h => h.overrun q ⟨t.1, trgCfg0Src l.cfg0, h.now, step, pt⟩ h.now) h

/-- Trigger every line of a source and selection (R278). -/
def Half.triggerSrc (src : Nat) (sel : Option Nat) (step : Bool) (pt : Option (Int × List Int)) (h : Half) : Half :=
  eachIdx 32 (fun t h =>
    let w := (h.acq.lines.get t).cfg0
    if trgCfg0Src w = src && (sel.all (· = trgCfg0Sel w)) then h.trigger t step pt else h) h

/-- A command of a channel starts or ends at the pin (R278, R282): PULSE lines. -/
def Half.pulseTrig (m : Nat) (starts : Bool) (h : Half) : Half :=
  eachIdx 32 (fun t h =>
    let w := (h.acq.lines.get t).cfg0
    if trgCfg0Src w = 3 && trgCfg0Sel w = m && (trgCfg0Edge w = 2 || trgCfg0Edge w = (if starts then 0 else 1)) then
      h.trigger t false none else h) h

/-- How many positions of a sequence were converted (R287). -/
def Run.made (r : Run) : Nat := (r.rst.getD r.poss.length)

/-- The hold of the n-th converted input (R269). -/
def Run.holdOf (q : Nat) (r : Run) (n : Nat) : Nat := if q = 0 then r.hold else r.hold + n * convEt q

/-! ### The test DAC (R276, R291, R298, R299) -/

/-- What a run holds from now on sees the references and the test DAC as they stand now (R276, R291); what it has held already keeps what
stood at its hold. -/
def Half.holdRun (h : Half) (q : Fin 9) (r : Run) : Run :=
  let ps := r.poss.zipIdx
  let mix (old : List Nat) (now : Nat → Bool) : List Nat :=
    (ps.filter (fun x => if h.now ≤ r.holdOf q.1 x.2 then now x.1 else old.contains x.1)).map (·.1)
  { r with refBad := mix r.refBad (fun p => !h.acq.refOk (seqInput q.1 p)), test := mix r.test (fun p => h.acq.testOn (seqInput q.1 p)) }

/-- A reference or the test DAC has changed: the runs under way follow. -/
def Half.holds (h : Half) : Half :=
  h.acqMap (fun a => { a with seqs := Vector.ofFn (fun q : Fin 9 =>
    let s := a.seqs.get q
    { s with run := s.run.map (h.holdRun q), toWrite := s.toWrite.map (h.holdRun q) }) })

/-- A test on a VOLT path or an IS input needs the kill latch or STOP (R299). -/
def tdacNeeds (test input : Nat) : Bool := test ≠ 0 || (12 ≤ input && input < 36)

/-- TDAC_RES (R307). -/
def tdacWord (v : Nat) (d : Int) : Word := put v 3 29 ||| putI d 16 0

/-- A test starts, or is refused (R299): whether it was. -/
def Half.tdacStart (test input code : Nat) (rq : Option (BitVec 16 × Bool)) (h : Half) : Half × Bool :=
  let t := h.acq.tdac
  if t.busy || (tdacNeeds test input && !h.fg.latch && h.trk.st ≠ 0) then
    (if t.busy then h else h.acqMap (fun a => { a with tdac := { t with res := tdacWord 6 0 } }), true)
  else
    let w := putB true 31 ||| put test 2 29 ||| put input 6 23 ||| put code 12 11
    ((h.acqMap (fun a => { a with tdac := { t with cfg := w, busy := true, req := rq } })).holds, false)

/-- A running test ends with a verdict (R298, R307, R444). -/
def Half.tdacEnd (v : Nat) (d : Int) (h : Half) : Half :=
  let t := h.acq.tdac
  if !t.busy then h else
  let w := tdacWord v d
  let h1 := (h.acqMap (fun a => { a with tdac := { t with res := w, busy := false, req := none, cfg := t.cfg &&& 0x7FFFFFFF#32 } })).holds
  let loc := locAin h.id (tdacCfgInput t.cfg)
  let h2 := if v = 1 then h1.raise 0x36 loc else if v = 2 || v = 3 then h1.raise 0x37 loc else if v = 4 then h1.raise 0x38 loc else h1
  match t.req with
  | some (sq, _) => h2.emit (.done 4 sq 0 (le 1 v ++ le 1 0 ++ leI 2 d))
  | none => h2

/-- MANUAL ends when GO is cleared (R298, R307). -/
def Half.tdacStop (h : Half) : Half :=
  let t := h.acq.tdac
  if t.busy && tdacCfgTest t.cfg = 2 then
    (h.acqMap (fun a => { a with tdac := { t with busy := false, req := none, cfg := t.cfg &&& 0x7FFFFFFF#32 } })).holds
  else h

/-- The tracker leaves STOP, or is not in STOP as the latch is released, and neither condition of a running test that needs one holds any
more (R299): ABORTED. -/
def Half.tdacLeave (h : Half) : Half :=
  let t := h.acq.tdac
  if t.busy && tdacNeeds (tdacCfgTest t.cfg) (tdacCfgInput t.cfg) && !h.fg.latch then h.tdacEnd 5 0 else h

/-- The latch is released while a test needs it and the tracker is not in STOP (R299): ABORTED. -/
def Half.tdacAbort (h : Half) : Half := if h.trk.st ≠ 0 then h.tdacLeave else h

/-- ANA_STAT (R340). -/
def Lane.stat (l : Lane) : Word :=
  put l.ninv 8 24 ||| putB l.red 23 ||| putB l.miswired 22 ||| put l.misf 8 8 ||| put l.knock 8 0

end Sys2Proof.Machine
end

