-- ==== Sys2Proof/Machine/LedgerOps.lean ====
section
/-! DEFINITION. Shared operations of the reservoir ledger: usable energy, learned costs, reservations. -/

namespace Sys2Proof.Machine

open Sys2Proof

/-- V_SS of a sensor supply in microvolts as the table of R271 counts it where no other is known: 5 V (log 12). -/
def vssNominal : Int := 5000000

/-- Span and offset of an input's range in microvolts (R271); with REF = RATIO they follow V_SS, `vss`. -/
def rangeAt (vss : Int) (i : Nat) (w : Word) : Int × Int :=
  if i < 12 then (if ainCfgRange w = 0 then (if ainCfgRef w = 2 then (vss, vss / 2) else (5000000, 2500000)) else (20000000, 0))
  else if i < 36 then (4096000, 2048000)
  else match ainCfgRange w with
    | 0 => (5000000, 2500000)
    | 1 => (20000000, 0)
    | _ => (125000000, 62500000)

/-- The code of a voltage in microvolts and whether it is clamped (R271); `vss` is the sensor supply of the input at the hold. -/
def codeOf (vss : Int) (i : Nat) (w : Word) (uv : Int) : BitVec 16 × Bool :=
  let (span, ofs) := rangeAt (max 1 vss) i w
  let isI := 12 ≤ i ∧ i < 36
  let lo := ofs - span / 2
  if uv ≤ lo then ((if isI then 0x8004#16 else 0x8001#16), true)
  else if uv ≥ lo + span then ((if isI then 0x7FFC#16 else 0x7FFF#16), true)
  else if isI then (BitVec.ofInt 16 (4 * max (-8191) (min 8191 (roundDiv ((uv - ofs) * 16384) span.toNat))), false)
  else (BitVec.ofInt 16 (max (-32767) (min 32767 (roundDiv ((uv - ofs) * 65536) span.toNat))), false)

/-- The voltage a code stands for, in V (R271); `vss` is the sensor supply of its conversion. -/
def voltsAt (vss : Int) (i : Nat) (w : Word) (c : BitVec 16) : Rat :=
  let (span, ofs) := rangeAt (max 1 vss) i w
  ((c.toInt : Rat) * span / 65536 + ofs) / 1000000

/-- The same of an input whose range does not follow a sensor supply. -/
def voltsOf (i : Nat) (w : Word) (c : BitVec 16) : Rat := voltsAt vssNominal i w c

/-- The half and half-local input that measure a reservoir (R257, R268). -/
def resInput (c0 : Word) : HalfId × Fin 48 :=
  let g := resCfg0Gpin c0
  (if g < 12 then .A else .B, ⟨36 + g % 12, by have := Nat.mod_lt g (show 12 > 0 by decide); omega⟩)

/-- Usable energy in J at a voltage in V (R241). -/
def ResSt.usable (r : ResSt) (v : Rat) : Rat :=
  let vmin : Rat := (resCfg1VMin r.c1 : Rat) / 10
  (resCfg0Cap r.c0 : Rat) / 1000000 / 2 * (v * v - vmin * vmin)

/-- U_MAX in J (R241). -/
def ResSt.uMax (r : ResSt) : Rat := r.usable ((resCfg1VMax r.c1 : Rat) / 10)

/-- Recharge power in W, scaled while V_IN is below 20.0 V (R242); V_IN in 0.1 V. -/
def ResSt.power (r : ResSt) (vIn : Nat) : Rat :=
  let p : Rat := (resCfg1PR r.c1 : Rat) / 100
  if vIn < 200 then p * vIn / 200 else p

/-- A reservoir's number as an index. -/
def resIx (n : Nat) : Fin 8 := ⟨n % 8, Nat.mod_lt _ (by decide)⟩

/-- The reservoir a pair draws on, none when it draws on none or the reservoir is not in use (R239, R260). -/
def Half.resOf (h : Half) (p : Nat) : Option (Fin 8) :=
  let w := h.led.map.toArray.getD p 0#32
  let r := resIx (resMapRes w)
  if resMapDraw w && resCfg0Valid (h.led.res.get r).c0 then some r else none

/-- COST0 of a profile in J as CONFIG_COMMIT found it (R243, R260). -/
def Half.cost0 (h : Half) (prof : Nat) : Rat := (resCost0Cost0 (h.led.fill.toArray.getD prof 0#32) : Rat) / 100000

/-- A profile has a BOOST phase: its T_LIM is not 0 (R211). -/
def hasBoost (pw : Vector Word 16) : Bool := phBTLim (pw.get 2) ≠ 0

/-- The profile of an index. -/
def Half.prof (h : Half) (i : Nat) : Vector Word 16 := h.profs.toArray.getD i (Vector.replicate 16 0#32)

/-- The history of measured costs of a pair under a profile: 16 copies of COST0 at first (R243). -/
def Half.costHist (h : Half) (pair prof : Nat) : List Rat :=
  (h.led.hist.lookup (pair, prof)).getD (List.replicate 16 (h.cost0 prof))

/-- The learned cost in J: the mean of the last 16 measured (R243), zero for a profile without BOOST (R244). -/
def Half.learned (h : Half) (pair prof : Nat) : Rat :=
  if hasBoost (h.prof prof) then (h.costHist pair prof).sum / 16 else 0

/-- Learn a measured cost (R243). -/
def Half.learn (pair prof : Nat) (e : Rat) (h : Half) : Half :=
  let new := (e :: h.costHist pair prof).take 16
  { h with led := { h.led with hist := ((pair, prof), new) :: h.led.hist.filter (fun x => x.1 ≠ (pair, prof)) } }

/-- The reservation of a slot goes back to the projection unless its BOOST has started (R252). -/
def Half.returnResv (k cyc : Nat) (h : Half) : Half :=
  { h with led := { h.led with resv := h.led.resv.filter (fun r => !(r.k = k && r.cyc = cyc && !r.drawn)) } }

/-- The opening of a slot counts as drawn from here (R252). -/
def Half.drawResv (k cyc : Nat) (h : Half) : Half :=
  { h with led := { h.led with resv := h.led.resv.map (fun r => if r.k = k && r.cyc = cyc then { r with drawn := true } else r) } }

/-- A frozen share pays the learned cost of an opening that draws on it (R255). -/
def Half.drawShare (pair prof : Nat) (h : Half) : Half :=
  match h.resOf pair with
  | none => h
  | some r =>
    let x := h.led.res.get r
    if x.shared && x.frozen then
      { h with led := { h.led with res := put1 h.led.res r { x with share := x.share - h.learned pair prof } } } else h

/-- Drawn reservations leave the list when their slot is done. -/
def Half.dropResv (k cyc : Nat) (h : Half) : Half :=
  { h with led := { h.led with resv := h.led.resv.filter (fun r => !(r.k = k && r.cyc = cyc)) } }

end Sys2Proof.Machine
end

