-- ==== Sys2Proof/Machine/Drive.lean ====
section
/-! DEFINITION. The pins and the drive sequencers (R198 to R233): levels, phases, start and end of a command. -/

namespace Sys2Proof.Machine

open Sys2Proof

/-- The even channel of a pair (R15). -/
def evenCh (p : Fin 24) : Fin 48 := ⟨2 * p.1, by omega⟩

/-- The odd channel of a pair (R15). -/
def oddCh (p : Fin 24) : Fin 48 := ⟨2 * p.1 + 1, by omega⟩

/-- The pair of a channel. -/
def pairOf (m : Fin 48) : Fin 24 := ⟨m.1 / 2, by omega⟩

/-- Change one pair. -/
def Half.pairMap (p : Fin 24) (f : Pair → Pair) (h : Half) : Half := { h with pairs := upd h.pairs p f }

/-- Change one channel. -/
def Half.chanMap (m : Fin 48) (f : Chan → Chan) (h : Half) : Half := { h with chans := upd h.chans m f }

/-- HS of a pair: 1 in BOOST unless the gap before it runs, 1 in PEAK, HOLD1 and HOLD2 after the source gap, else 0
(R209, R212). -/
def Pair.hs (x : Pair) : Bool :=
  if x.phase = 0 then !x.bstGap else if x.phase ≤ 3 then !x.srcGap else false

/-- LS of a pair: 1 in BOOST unless the gap before it runs, chopping or 1 in PEAK, HOLD1 and HOLD2, 1 in FREEWHEEL,
else 0 (R209, R215). -/
def Pair.lsOut (x : Pair) : Bool :=
  if x.phase = 0 then !x.bstGap else if x.phase ≤ 3 then x.ls else x.phase = 4

/-- A timing-mode output is active: a PULSE is ACTIVE or a SET holds it, unless it waits for its next edge after a
release (R203, R233). -/
def Chan.active (c : Chan) : Bool := (c.setBy.isSome || !c.pulses.isEmpty) && !c.blocked

/-- The owner of a pin: SRC, or for SRC NONE a run-time claim of rank 4 (SLUICE) or 5 (GPIO) (R198, R201). -/
def Chan.owner (c : Chan) : Nat :=
  let s := outCfgSrc c.out
  if s = 0 then (match c.claim with | some (4, _) => 3 | some (5, _) => 4 | _ => 0) else s

/-- The safe state of a pin turns its driver off (R205): HIGH_Z; a DRIVE pin is LOW. -/
def Chan.safeOff (c : Chan) : Bool := c.owner ≠ 2 && outCfgSafe c.out = 2

/-- The level of a pin's safe state: HIGH 1, LOW and HIGH_Z 0 (R205, R207); a DRIVE pin is LOW. -/
def Chan.safeLevel (c : Chan) : Bool := c.owner ≠ 0 && c.owner ≠ 2 && outCfgSafe c.out = 1

/-- The commanded level of a pin, after POL, SRC and the floodgate (R207, R228). -/
def Half.pinLevel (h : Half) (m : Fin 48) : Bool :=
  let c := h.chans.get m
  if h.fg.latch then c.safeLevel else
  match c.owner with
  | 1 => c.active != outCfgPol c.out
  | 2 => let x := h.pairs.get (pairOf m); if m.1 % 2 = 0 then x.hs else x.lsOut
  | 3 => c.slLvl
  | 4 => outCfgGpioLvl c.out
  | _ => false

/-- The driver of a pin is off, its 100 kilohm pull-down holds it low (R203, R205): no owner, as before the first CONFIG_COMMIT, or a
HIGH_Z safe state under the kill latch. -/
def Half.driverOff (h : Half) (m : Fin 48) : Bool :=
  let c := h.chans.get m
  c.owner = 0 || (h.fg.latch && c.safeOff)

/-- A pin takes its commanded level: a change counts in EDGES and, on a timing-mode channel, triggers its PULSE lines
(R222, R278); RB follows, and a short at the old level
no longer limits. -/
def Half.settle1 (m : Fin 48) (h : Half) : Half :=
  let c := h.chans.get m
  let lvl := h.pinLevel m
  if lvl = c.level then h else
  let h1 := h.chanMap m (fun c => { c with level := lvl, rb := lvl, limit := false, edges := satInc 16 c.edges })
  if c.owner = 1 then h1.pulseTrig m.1 (lvl != outCfgPol c.out) else h1

/-- Every pin takes its commanded level. -/
def Half.settle (h : Half) : Half := eachIdx 48 Half.settle1 h

/-- PULSE lines of a drive-mode pair (R278, R282): the level at the even pin starts a command where HS first rises for it, and ends it
where HS falls for good, that is in no source gap (log 109). -/
def Half.pairTrig (p : Fin 24) (h : Half) : Half :=
  let x := h.pairs.get p
  let up := (h.chans.get (evenCh p)).level
  if up && !x.cmdOn && x.slot.isSome then (h.pairMap p (fun x => { x with cmdOn := true })).pulseTrig (evenCh p).1 true
  else if !up && x.cmdOn && 4 ≤ x.phase then (h.pairMap p (fun x => { x with cmdOn := false })).pulseTrig (evenCh p).1 false
  else h

/-- The pins of a pair take their levels; the maximum comparator is blanked from here (R214). -/
def Half.settlePair (p : Fin 24) (h : Half) : Half :=
  let h1 := (h.settle1 (evenCh p)).settle1 (oddCh p)
  let h2 := if (h1.chans.get (evenCh p)).level = (h.chans.get (evenCh p)).level &&
     (h1.chans.get (oddCh p)).level = (h.chans.get (oddCh p)).level then h1
    else h1.pairMap p (fun x => { x with pinAt := h.now })
  h2.pairTrig p

/-- Word A of a phase (R217). -/
def phWordA (pw : Vector Word 16) (n : Nat) : Word := pw.toArray.getD (1 + 2 * n) 0#32

/-- Word B of a phase (R217). -/
def phWordB (pw : Vector Word 16) (n : Nat) : Word := pw.toArray.getD (2 + 2 * n) 0#32

/-- A phase is skipped when its T_LIM is 0; FAST_DISCH never is (R211). -/
def phSkipped (pw : Vector Word 16) (n : Nat) : Bool := n ≠ 5 && phBTLim (phWordB pw n) = 0

/-- The next phase in code order that is not skipped (R211). -/
def nextPhase (pw : Vector Word 16) (n : Nat) : Nat :=
  (((List.range 6).filter (fun k => n < k && !phSkipped pw k)).head?).getD 5

/-- The first phase of a profile that is not skipped. -/
def firstPhase (pw : Vector Word 16) : Nat := (((List.range 6).filter (fun k => !phSkipped pw k)).head?).getD 5

/-- The profile of a pair's current or last command. -/
def Half.pairProf (h : Half) (p : Fin 24) : Vector Word 16 := h.prof (h.pairs.get p).prof

/-- The end of BOOST: its length goes to T_BOOST, the ledger takes note (R224, R244). -/
def Half.boostDone (p : Fin 24) (drop : Bool) (h : Half) : Half :=
  let x := h.pairs.get p
  if x.phase ≠ 0 then h else
  (h.pairMap p (fun x => { x with tBoost := sat 16 (roundFree 1 (h.now - x.entry : Nat) 20).toNat })).emit (.boostEnd p.1 drop)

/-- Enter a phase: latches cleared, blanking and T_LIM start, the source gap where the coil changes source, or the gap with
both pins low before a BOOST (R209, R212, R214). A source gap that runs goes on through a change between PEAK, HOLD1 and HOLD2 (R537). -/
def Half.enterGap (p : Fin 24) (n : Nat) (gap bst : Bool) (h : Half) : Half :=
  let a := phWordA (h.pairProf p) n
  (h.pairMap p (fun x =>
    let on := x.srcGap && 1 ≤ x.phase && x.phase ≤ 3 && 1 ≤ n && n ≤ 3
    { x with
      phase := n, hiLat := false, loLat := false, entry := h.now, blank := n ≠ 7 && phABlank a ≠ 0, srcGap := gap || on,
      gapAt := if gap then h.now else x.gapAt, bstGap := bst, ls := true, lsAt := h.now })).settlePair p

/-- Enter a phase without a gap before BOOST. -/
def Half.enterPhase (p : Fin 24) (n : Nat) (gap : Bool) (h : Half) : Half := h.enterGap p n gap false

/-- Go on to the next phase (R211): from BOOST to a battery phase the source gap applies (R209). -/
def Half.toNext (p : Fin 24) (h : Half) : Half :=
  let n := (h.pairs.get p).phase
  let m := nextPhase (h.pairProf p) n
  (h.boostDone p false).enterPhase p m (n = 0 && m ≤ 3)

/-- Go to FAST_DISCH (R211). -/
def Half.toFast (p : Fin 24) (drop : Bool) (h : Half) : Half := (h.boostDone p drop).enterPhase p 5 false

/-- FREEWHEEL, or FAST_DISCH if FREEWHEEL is skipped (R211). -/
def Half.toFree (p : Fin 24) (h : Half) : Half :=
  h.enterPhase p (if phSkipped (h.pairProf p) 4 then 5 else 4) false

/-- To IDLE. -/
def Half.toIdle (p : Fin 24) (h : Half) : Half := h.enterPhase p 7 false

/-- A command starts (R211, R212): the profile's first phase; BOOST after LS high waits 40 et with both pins low; a
profile without BOOST starts with the source gap. While the kill latch is set no profile starts (R228). -/
def Half.drvStart (p : Fin 24) (prof : Nat) (k : Fin 1024) (h : Half) : Half :=
  let h0 := h.pairMap p (fun x => { x with slot := some k })
  if h.fg.latch then h0 else
  let was := (h0.pairs.get p).phase
  let h1 := h0.pairMap p (fun x => { x with prof := prof % 32, srcGap := false })
  let f := firstPhase (h1.prof prof)
  let h2 := h1.enterGap p f (f ≠ 0 && f ≤ 3) (f = 0 && was = 4)
  if f = 0 && was ≠ 4 then h2.emit (.boostStart p.1 prof k.1) else h2

/-- The gap before a BOOST ends: both pins rise in the same et, blanking and T_LIM of BOOST count from here (R212). -/
def Half.boostRise (p : Fin 24) (h : Half) : Half :=
  let x := h.pairs.get p
  let a := phWordA (h.pairProf p) 0
  ((h.pairMap p (fun x => { x with bstGap := false, entry := h.now, blank := phABlank a ≠ 0 })).settlePair p).emit
    (.boostStart p.1 x.prof ((x.slot.map (·.1)).getD 0))

/-- A command ends by WIDTH or DRIVE_END (R211). -/
def Half.drvEnd (p : Fin 24) (h : Half) : Half :=
  let x := h.pairs.get p
  let h1 := h.pairMap p (fun x => { x with slot := none })
  if h.fg.latch then h1 else
  if x.phase ≤ 1 then h1.toFast p false else if x.phase ≤ 3 then h1.toFree p else h1

/-- A command is cut short: FAST_DISCH from any phase but IDLE and FAST_DISCH (R211). -/
def Half.drvAbort (p : Fin 24) (h : Half) : Half :=
  let x := h.pairs.get p
  let h1 := h.pairMap p (fun x => { x with slot := none })
  if h.fg.latch then h1 else
  if x.phase ≠ 5 && x.phase ≠ 7 then h1.toFast p true else h1

/-- The floodgate forces a sequencer to IDLE (R227); a command at the pin ends there (R282). -/
def Half.drvKill (p : Fin 24) (h : Half) : Half :=
  let x := h.pairs.get p
  if x.phase = 7 then h else
  (h.boostDone p true).toIdle p

/-- The kill latch of a half is set: every pin to its safe state, every sequencer to IDLE (R227); CAUSE is the first
cause since the last release (R236). -/
def Half.setLatch (cause : Nat) (h : Half) : Half :=
  if h.fg.latch then h else
  let h1 : Half := eachIdx 24 Half.drvKill h
  let h2 : Half := { h1 with fg := { h1.fg with latch := true, checked := false, cause := cause },
                             led := { h1.led with meas := h1.led.meas.map (fun m => { m with latchAt := some (m.latchAt.getD h.now) }) } }
  h2.settle

/-- The kill latch is released (R233): timing-mode pins wait for their next edge, pairs for their next DRIVE; GPIO and
SLUICE pins follow at once. -/
def Half.releaseLatch (h : Half) : Half :=
  if !h.fg.latch then h else
  let h1 : Half := { h with fg := { h.fg with latch := false, checked := false, offAt := h.now },
                            chans := h.chans.map (fun c => { c with blocked := c.setBy.isSome || !c.pulses.isEmpty }) }
  h1.settle

/-- Every pin reads back its safe level (R207, R232). -/
def Half.readbackSafe (h : Half) : Bool := (idxs 48).all (fun m => (h.chans.get m).rb = (h.chans.get m).safeLevel)

end Sys2Proof.Machine
end

