-- ==== Sys2Proof/Machine/Slots.lean ====
section
/-! DEFINITION. Event slots (R159 to R190): fields, freezing, the hopper, late handling, edges, DONE, withdrawal, release. -/

namespace Sys2Proof.Machine

open Sys2Proof

/-- OFFSET of W1 (R159). -/
def SlotC.offset (c : SlotC) : Nat := fld c.w1 31 8
/-- ACTION of W1. -/
def SlotC.action (c : SlotC) : Nat := fld c.w1 7 4
/-- KIND of W1: true is a cycle angle. -/
def SlotC.kind (c : SlotC) : Bool := c.w1.getLsbD 3
/-- ANGLE of W0 in Q16: signed throw angle, or unsigned cycle angle. -/
def SlotC.angle (c : SlotC) : Int := if c.kind then c.w0.toNat else c.w0.toInt
/-- PROF of W3. -/
def SlotC.prof (c : SlotC) : Nat := fld c.w3 31 24
/-- ARG of W3. -/
def SlotC.arg (c : SlotC) : Nat := fld c.w3 23 16
/-- PRIO of W3. -/
def SlotC.prio (c : SlotC) : Nat := fld c.w3 15 8
/-- EVT of W3. -/
def SlotC.evt (c : SlotC) : Nat := fld c.w3 7 6
/-- CYL of W3. -/
def SlotC.cyl (c : SlotC) : Nat := fld c.w3 4 0
/-- CH of W4. -/
def SlotC.ch (c : SlotC) : Nat := fld c.w4 31 25
/-- ONESHOT of W4. -/
def SlotC.oneshot (c : SlotC) : Bool := c.w4.getLsbD 24

/-- Content with every field zero. -/
def SlotC.zero : SlotC := ⟨0, 0, 0, 0, 0⟩

/-- The half-local channel of a content (R21). -/
def SlotC.chan (c : SlotC) : Fin 48 := ⟨c.ch % 48, Nat.mod_lt _ (by decide)⟩

/-- Content from its fields (R159). -/
def mkContent (ang : Int) (ofs act : Nat) (kind : Bool) (width : Word) (prof arg prio evt cyl ch : Nat) (one : Bool) : SlotC :=
  ⟨BitVec.ofInt 32 ang, put ofs 24 8 ||| put act 4 4 ||| putB kind 3, width,
   put prof 8 24 ||| put arg 8 16 ||| put prio 8 8 ||| put evt 2 6 ||| put cyl 5 0, put ch 7 25 ||| putB one 24⟩

/-- The bits of W0 to W4 a write changes (R159). -/
def SlotC.mask (c : SlotC) : SlotC := ⟨c.w0, c.w1 &&& 0xFFFFFFF8#32, c.w2, c.w3 &&& 0xFFFFFFDF#32, c.w4 &&& 0xFF000000#32⟩

/-- A slot with nothing in it: EMPTY if reserved, FREE in the pool (R159). -/
def Slot.empty (reserved : Bool) : Slot :=
  ⟨SlotC.zero, if reserved then 1 else 0, 0, 0, 0#16, 0#32, 0, 0, .nobody, none, SlotC.zero, none, [], 0, 0, 0#16, false, false, 0, false, false, 0, 0⟩

/-- W5 (R159). -/
def Slot.w5 (s : Slot) : Word := put s.st 4 28 ||| put s.cycTag 8 20 ||| put s.outcome 4 16 ||| put s.tags.toNat 16 0

/-- W7. -/
def Slot.w7 (s : Slot) : Word := BitVec.ofNat 32 s.late

/-- One tag bit (R190). -/
def tagBit (n : Nat) : BitVec 16 := BitVec.ofNat 16 (2 ^ n)

/-- Change one slot. -/
def Half.slotMap (k : Fin 1024) (f : Slot → Slot) (h : Half) : Half := { h with slots := upd h.slots k f }

/-- The presented angle of a content's kind: throw angle of its cylinder, or cycle angle (R135, R167). -/
def Half.presOf (h : Half) (c : SlotC) : Int := if c.kind then h.cyc else h.presented c.cyl

/-- TDC of an entry in the direction of travel (R119). -/
def Half.tdcNow (h : Half) (k : Fin 24) : Int :=
  let tdc : Int := (h.tws.cyl.get k).tdc.toNat
  if h.trk.dir.read then (h.cycLen - tdc) % h.cycLen else tdc

/-- The wraps of a cylinder's presented throw angle so far. -/
def Half.turnOf (h : Half) (cyl : Nat) : Nat :=
  match h.entry cyl with
  | some k => (h.tws.cyl.get k).turn
  | none => 0

/-- The angle left until a content's ANGLE for a commit made when its cylinder's throw angle had wrapped `turn` times; not positive once
it has been passed (R167, R171). A cycle angle is the one next to the throw angle the content stands at in that cycle, ANGLE - TDC'
wrapped into the cycle (R173); its distance is measured in cycle angle. -/
def Half.left (h : Half) (turn : Nat) (c : SlotC) : Int :=
  let len := h.cycLen
  let back := len * ((h.turnOf c.cyl - turn : Nat) : Int)
  if !c.kind then c.angle - h.presented c.cyl - back else
  match h.entry c.cyl with
  | none => wrapS len (c.angle - h.cyc)
  | some k =>
    let d := wrapS len (c.angle - h.tdcNow k) - (h.tws.cyl.get k).pres
    d + wrapS len (c.angle - h.cyc - d) - back

/-- The angle left until a slot's ANGLE. -/
def Half.remaining (h : Half) (s : Slot) : Int := h.left s.turn s.c

/-- The lookahead LA: the larger of two pitches of REF_WHEEL and 12 degrees (R171). -/
def Half.lookahead (h : Half) : Int :=
  max (roundFree 2 (720 * deg) (max 1 (h.wheel h.trk.refInp).teeth)) (12 * deg)

/-- A slot lies inside the lookahead or has been passed (R44, R171). -/
def Half.inLook (h : Half) (s : Slot) : Bool := h.remaining s ≤ h.lookahead

/-- The bank of a slot's channel (R160). -/
def Slot.bank (s : Slot) : Nat :=
  match s.holder with
  | .basic _ _ ch => ch / 12
  | .acq ch => ch / 12
  | .expert ch => ch / 12
  | .nobody => s.c.chan.1 / 12

/-- Hopper entries of a bank in use: slots LOADED or DUE (R172). -/
def Half.occ (h : Half) (b : Nat) : Nat := h.slots.toList.countP (fun s => (s.st = 3 || s.st = 4) && s.c.chan.1 / 12 = b)

/-- Change one bank. -/
def Half.bankMap (b : Nat) (f : Bank → Bank) (h : Half) : Half :=
  match fin? 4 b with
  | some b => { h with banks := upd h.banks b f }
  | none => h

/-- The event entry of a content (R188). -/
def entryBytes (id : HalfId) (c : SlotC) (outcome : Nat) (tags : BitVec 16) (edge : Word) (late : Nat) : List Byte :=
  le 1 c.cyl ++ le 1 (c.action * 16 + c.evt * 4 + id.num) ++ le 1 c.ch ++ le 1 outcome ++ leW c.w0 ++ leW edge ++
    le 2 (sat 16 (roundFree 3 (late * 1000 : Nat) 65536).toNat) ++ le 2 tags.toNat

/-- TAGS with KIND (R190). -/
def kindTag (c : SlotC) (t : BitVec 16) : BitVec 16 := if c.kind then t ||| tagBit 14 else t

/-- The scheduler's event for an outcome (R197). -/
def outcomeClass (o : Nat) : Option Nat :=
  if o = 1 ∨ o = 2 ∨ o = 3 then some 0x18
  else if o = 4 ∨ o = 5 ∨ o = 8 then some 0x19
  else if o = 9 ∨ o = 10 ∨ o = 12 then some 0x1A
  else if o = 11 then some 0x1B else none

/-- Write an event entry and raise the outcome's event (R188, R197). -/
def Half.record (k : Fin 1024) (c : SlotC) (cyc outcome : Nat) (tags : BitVec 16) (edge : Word) (late : Nat) (h : Half) : Half :=
  let h1 := h.emit (.entry c.cyl cyc (entryBytes h.id c outcome (kindTag c tags) edge late) (k.1, cyc))
  match outcomeClass outcome with
  | some cls => h1.raise cls (locSlot h.id c.chan.1 k.1)
  | none => h1

/-- Release a slot (R165): a pool slot becomes FREE and HELD of its bank falls, a reserved slot becomes EMPTY; a
waiting MB3 free completes (R434). -/
def Half.release (k : Fin 1024) (h : Half) : Half :=
  let s := h.slots.get k
  let h1 := h.slotMap k (fun _ => Slot.empty (k.1 < 0x0C0))
  let h2 := if k.1 < 0x0C0 then h1 else h1.bankMap s.bank (fun b => { b with held := b.held - 1 })
  eachOf s.freeSeq (fun q h => h.emit (.done 3 q 0 [])) h2

/-- Freeze a slot with content committed when its cylinder's throw angle had wrapped `turn` times (R161): the record fields are
cleared; inside the lookahead it is late (R44, R180). -/
def Half.freeze (k : Fin 1024) (c : SlotC) (cyc : Nat) (tags cause : BitVec 16) (turn : Nat) (h : Half) : Half :=
  let extra : BitVec 16 := if h.left turn c ≤ h.lookahead then cause else 0#16
  h.slotMap k (fun s => { s with
    turn := turn, c := c, st := 2, cycTag := cyc % 256, cyc := cyc, outcome := 0, tags := kindTag c tags, edgeTs := 0#32, late := 0,
    cause := extra, waits := false, width := c.w2.toNat, deferred := none })

/-- A slot whose words ECC has lost, cleared (R502): DONE goes to EMPTY. -/
def Slot.wiped (s : Slot) : Slot :=
  { s with c := SlotC.zero, st := if s.st = 7 then 1 else s.st, cycTag := 0, outcome := 0, tags := 0#16, edgeTs := 0#32, late := 0, spoil := false }

/-- A release falls due when the slot reaches DONE or is withdrawn (R165): ONESHOT, an MB3 free that waits, or a release
put off before. -/
def Slot.releases (s : Slot) : Bool := s.c.oneshot || s.owed || !s.freeSeq.isEmpty

/-- A slot reaches DONE with an outcome: entry; then its deferred freeze, the release put off, else its release (R165, R177,
R188). A gated command's reservation goes back (R228, R252). -/
def Half.slotDone (k : Fin 1024) (outcome : Nat) (h : Half) : Half :=
  let s := h.slots.get k
  let h1 := (h.slotMap k (fun s => { s with st := 7, outcome := outcome })).record k s.c s.cyc outcome s.tags s.edgeTs s.late
  let h2 := (h1.dropResv k.1 s.cyc).slotMap k (fun s => if s.spoil then s.wiped else s)
  match s.deferred with
  | some (c, cyc, t) => (h2.freeze k c cyc (t ||| tagBit 6) (tagBit 6) s.turnDef).slotMap k (fun x => { x with owed := s.releases })
  | none => if s.releases then h2.release k else h2

/-- The content of a slot FROZEN, LOADED or DUE is withdrawn with an outcome (R161, R185, R186); content waiting for its
freeze is withdrawn with an entry of its own (R177). -/
def Half.withdrawContent (k : Fin 1024) (outcome : Nat) (h : Half) : Half :=
  let s := h.slots.get k
  let h1 := (h.slotMap k (fun s => { s with
    st := 1, outcome := outcome, tags := s.tags ||| s.cause, cause := 0#16, waits := false, deferred := none })).record
    k s.c s.cyc outcome (s.tags ||| s.cause) s.edgeTs s.late
  let h2 := h1.returnResv k.1 s.cyc
  match s.deferred with
  | some (c, cyc, t) => (h2.returnResv k.1 cyc).record k c cyc outcome t 0#32 0
  | none => h2

/-- A slot is withdrawn, and released where a release falls due (R165). -/
def Half.withdraw (k : Fin 1024) (outcome : Nat) (h : Half) : Half :=
  let h1 := h.withdrawContent k outcome
  if (h.slots.get k).releases then h1.release k else h1

/-- The content of an earlier cycle is withdrawn for the content of this commit (R161): a release that falls due waits. -/
def Half.replaceOld (k : Fin 1024) (h : Half) : Half :=
  (h.withdrawContent k 12).slotMap k (fun x => { x with owed := (h.slots.get k).releases })

/-- Content waiting for a freeze is withdrawn at a loss or reversal while the slot itself goes on (R177). -/
def Half.dropDeferred (k : Fin 1024) (outcome : Nat) (h : Half) : Half :=
  let s := h.slots.get k
  match s.deferred with
  | some (c, cyc, t) => ((h.returnResv k.1 cyc).slotMap k (fun s => { s with deferred := none })).record k c cyc outcome t 0#32 0
  | none => h

/-- A LOADED slot becomes DUE now with an OFFSET (R167, R168); its firing is remembered until the next accepted edge
(R101, R184). -/
def Half.makeDue (k : Fin 1024) (ofs : Nat) (h : Half) : Half :=
  let s := h.slots.get k
  let t : BitVec 16 := if h.trk.src.bad > 0 then tagBit 0 else 0#16
  let h1 := h.slotMap k (fun s => { s with st := 4, edgeAt := h.now + ofs, tags := s.tags ||| t })
  { h1 with fired := ⟨k, s.c.cyl, s.cyc, h.now, h.trk.src.cand.isSome⟩ :: h1.fired }

/-- Lateness at an eligibility instant in Q16 (R181). -/
def Half.lateness (h : Half) (s : Slot) : Nat := (-(h.remaining s)).toNat

/-- Skip a late slot: DONE without an edge (R183), its reservation returned (R252). -/
def Half.skipLate (k : Fin 1024) (outcome : Nat) (h : Half) : Half :=
  let h1 := h.returnResv k.1 (h.slots.get k).cyc
  h1.slotDone k outcome

/-- The channel whose scheduling fields apply: the even one of a drive pair (R192, R199). -/
def Half.schChan (h : Half) (m : Fin 48) : Fin 48 :=
  if outCfgSrc (h.chans.get m).out = 2 then evenCh (pairOf m) else m

/-- The late policy of a slot's channel applied once, with its lateness at the eligibility instant (R181, R183, R536). -/
def Half.lateHandle (k : Fin 1024) (late : Nat) (h : Half) : Half :=
  let s := h.slots.get k
  let ch := (h.chans.get (h.schChan s.c.chan)).sch
  let etL : Option Nat := if late = 0 then some 0 else if h.trk.src.inc = 0 then none else some (late * 2 ^ 24 / h.trk.src.inc)
  let h1 := h.slotMap k (fun s => { s with tags := s.tags ||| s.cause, cause := 0#16, late := late, waits := false, st := 3 })
  let pol := schChLatePol ch
  let acts := s.c.action = 3 ∨ s.c.action = 4
  if pol = 1 then h1.skipLate k 4
  else if late = 0 then h1.slotMap k (fun s => { s with outcome := 2 })
  else match etL with
    | some e =>
      if s.c.offset ≥ e then (h1.slotMap k (fun s => { s with outcome := 1 })).makeDue k (s.c.offset - e)
      else if pol = 2 && acts then
        let rem : Int := (s.c.w2.toNat : Int) - ((e : Int) - s.c.offset)
        if rem < (schChMinW ch * etPerUs : Nat) then h1.skipLate k 5
        else (h1.slotMap k (fun s => { s with outcome := 3, width := rem.toNat })).makeDue k 0
      else if late * 100 ≤ schChLateWin ch * 65536 then (h1.slotMap k (fun s => { s with outcome := 2 })).makeDue k 0
      else h1.skipLate k 4
    | none =>
      if pol = 2 && acts then h1.skipLate k 5
      else if late * 100 ≤ schChLateWin ch * 65536 then (h1.slotMap k (fun s => { s with outcome := 2 })).makeDue k 0
      else h1.skipLate k 4

/-- A waiting slot goes first by smaller remaining angle, then lower number (R172). -/
def Half.firstWaiting (h : Half) (k : Fin 1024) : Bool :=
  let s := h.slots.get k
  let r := h.remaining s
  (idxs 1024).all (fun j =>
    let x := h.slots.get j
    j = k || !(x.st = 2 && x.c.chan.1 / 12 = s.c.chan.1 / 12 && h.inLook x) ||
      (let q := h.remaining x; r < q || (r = q && k.1 < j.1)))

/-- A FROZEN slot inside the lookahead takes a hopper entry, or waits for one (R172). A slot passed while it waited is handled at its
load and counted in HOP_LATE (R196: not one already past where its wait began), and so is one late for another cause, with HOPPER_WAIT where it had to wait as well (R180, R536). -/
def Half.hopperLoad (k : Fin 1024) (h : Half) : Half :=
  let s := h.slots.get k
  let b := s.c.chan.1 / 12
  if s.st ≠ 2 || !h.inLook s || !h.trk.fires then h
  else if h.occ b ≥ 16 then
    if s.waits then h
    else ((h.slotMap k (fun s => { s with waits := true, ahead := decide (0 < h.remaining s) })).bankMap b (fun x => { x with waited := satInc 10 x.waited })).raise
      0x1D (locSlot h.id s.c.chan.1 k.1)
  else if !h.firstWaiting k then h
  else
    let passed := h.remaining s ≤ 0
    let wait := s.waits && (passed || s.cause ≠ 0#16)
    let h1 := h.slotMap k (fun s => { s with st := 3, cause := if wait then s.cause ||| tagBit 5 else s.cause })
    let h2 := h1.bankMap b (fun x => { x with
      hopLate := if s.waits && s.ahead && passed then satInc 12 x.hopLate else x.hopLate, hiwat := max x.hiwat (h1.occ b) })
    if ((h2.slots.get k).cause ≠ 0#16) then h2.lateHandle k (h2.lateness s) else h2.slotMap k (fun s => { s with waits := false })

/-- A slot reaches DONE; content frozen there inside the lookahead loads at once where an entry is free (R161, R177). -/
def Half.finish (k : Fin 1024) (outcome : Nat) (h : Half) : Half := (h.slotDone k outcome).hopperLoad k

/-- The et until the presented angle reaches a slot's ANGLE at the present increment; none while it holds. -/
def Half.etToAngle (h : Half) (s : Slot) : Option Nat :=
  let r := h.remaining s
  if r ≤ 0 then some 0
  else if h.trk.src.inc = 0 then none
  else
    let a := h.trk.src.acc % 2 ^ 24
    some ((r.toNat * 2 ^ 24 - a + h.trk.src.inc - 1) / h.trk.src.inc)

/-- A LOADED slot whose angle is reached becomes DUE (R161, R167); a channel without LIMP_EN fires nothing in LIMP (R103). -/
def Half.slotDue (k : Fin 1024) (h : Half) : Half :=
  let s := h.slots.get k
  let ok := h.trk.fires && (!h.trk.inLimp || schChLimpEn (h.chans.get (h.schChan s.c.chan)).sch)
  if s.st = 3 && ok && h.remaining s ≤ 0 then h.makeDue k s.c.offset else h

/-- An ACTIVE DRIVE of a pair, if one is running (R170). -/
def Half.activeDrive (h : Half) (p : Fin 24) : Option (Fin 1024) := (h.pairs.get p).slot

/-- GATED on a slot whose edge falls while the kill latch holds the outputs (R187, R228). -/
def Half.tagGated (k : Fin 1024) (h : Half) : Half :=
  if h.fg.latch then h.slotMap k (fun s => { s with tags := s.tags ||| tagBit 8 }) else h

/-- An ACTIVE PULSE ends (R160). -/
def Half.endPulse (k : Fin 1024) (outcome : Nat) (h : Half) : Half :=
  let m := (h.slots.get k).c.chan
  (((h.tagGated k).chanMap m (fun c => { c with pulses := c.pulses.filter (· ≠ k) })).settle1 m).finish k outcome

/-- An ACTIVE DRIVE's command ends in the ordinary way (R160, R211). -/
def Half.endDrive (k : Fin 1024) (h : Half) : Half :=
  let s := h.slots.get k
  ((h.tagGated k).drvEnd (pairOf s.c.chan)).finish k s.outcome

/-- An ACTIVE DRIVE's command is cut short (R185, R186, R211). -/
def Half.abortDrive (k : Fin 1024) (h : Half) : Half :=
  let s := h.slots.get k
  ((h.tagGated k).drvAbort (pairOf s.c.chan)).finish k 11

/-- The action of a DUE slot takes effect (R160, R168, R187, R282); a FUEL channel's slot counts for R322. Its EDGE_TS is this
instant unless the kill latch keeps the edge from the pin; a TRIG slot's line is asserted either way (R159). -/
def Half.act1 (k : Fin 1024) (h : Half) : Half :=
  let s := h.slots.get k
  if s.st ≠ 4 then h else
  let m := s.c.chan
  let fuel := schChFuel (h.chans.get (h.schChan m)).sch && s.c.action ≤ 4
  let h0 : Half := if !fuel then h else match fin? 24 ((h.entry s.c.cyl).elim 24 (·.1)) with
    | some j => { h with cyls := upd h.cyls j (fun x => { x with fuelCyc := some s.cyc }) }
    | none => h
  let h1 := (h0.slotMap k (fun s => { s with edgeTs := if h.fg.latch && s.c.action ≠ 6 then 0#32 else h.ts })).tagGated k
  match s.c.action with
  | 1 => (((h1.chanMap m (fun c => { c with setBy := some (k, s.c.cyl, s.cyc), blocked := false })).settle1 m)).finish k s.outcome
  | 2 =>
    let h2 := h1.chanMap m (fun c => { c with setBy := none })
    let h3 := eachOf (h2.chans.get m).pulses (fun j h => h.endPulse j (h.slots.get j).outcome) h2
    (h3.settle1 m).finish k s.outcome
  | 3 =>
    ((h1.slotMap k (fun s => { s with st := 5, endAt := h.now + s.width })).chanMap m (fun c =>
      { c with pulses := c.pulses ++ [k], blocked := false })).settle1 m
  | 4 =>
    if (h.activeDrive (pairOf m)).isSome then
      (h.returnResv k.1 s.cyc).finish k 8
    else (h1.slotMap k (fun s => { s with st := 5, endAt := h.now + s.width })).drvStart (pairOf m) s.c.prof k
  | 5 =>
    let h2 := match h1.activeDrive (pairOf m) with
      | some j => h1.endDrive j
      | none => h1
    h2.finish k s.outcome
  | 6 => (match fin? 32 s.c.arg with
      | some t => if trgCfg0Src (h1.acq.lines.get t).cfg0 = 0 then h1.trigger t false none else h1
      | none => h1).finish k s.outcome
  | _ => h1.finish k s.outcome

/-- The order in which actions due in one et take effect (R170). -/
def actRank (a : Nat) : Nat := match a with | 2 => 0 | 5 => 1 | 1 => 2 | 3 => 3 | 4 => 4 | _ => 5

/-- The DUE slots of a slot's channel whose edges fall in the same et and take effect before it, in order (R170). -/
def Half.before (h : Half) (k : Fin 1024) : List (Fin 1024) :=
  let s := h.slots.get k
  let js := (idxs 1024).filter (fun j =>
    let x := h.slots.get j
    x.st = 4 && x.c.chan = s.c.chan && x.edgeAt = s.edgeAt)
  (List.range (actRank s.c.action + 1)).flatMap (fun r => js.filter (fun j =>
    actRank (h.slots.get j).c.action = r && (r < actRank s.c.action || j.1 < k.1)))

/-- The OFFSET of a DUE slot has run out (R168): what goes before it in the same et takes effect, then its own action (R170). -/
def Half.offsetExpire (k : Fin 1024) (h : Half) : Half :=
  if (h.slots.get k).st ≠ 4 then h else (eachOf (h.before k) Half.act1 h).act1 k

/-- The WIDTH of a PULSE or the duration of a DRIVE has run out (R160, R211). -/
def Half.widthExpire (k : Fin 1024) (h : Half) : Half :=
  let s := h.slots.get k
  if s.st ≠ 5 then h
  else if s.c.action = 3 then h.endPulse k s.outcome
  else if s.c.action = 4 then h.endDrive k
  else h

/-- An output held by a SET is taken back at a loss or reversal; the outcome of that SET becomes ABORTED, in the slot where it still
stands there (R185, R186). -/
def Half.dropSet (m : Fin 48) (h : Half) : Half :=
  match (h.chans.get m).setBy with
  | none => h
  | some (k, cyl, cyc) =>
    let s := h.slots.get k
    let h1 := (h.chanMap m (fun c => { c with setBy := none })).settle1 m
    let h2 := if s.st = 7 && s.c.action = 1 && s.c.cyl = cyl && s.cyc = cyc then h1.slotMap k (fun s => { s with outcome := 11 }) else h1
    (h2.emit (.outcome cyl (k.1, cyc) 11)).raise 0x1B (locSlot h.id m.1 k.1)

/-- One slot at a loss (R185). -/
def Half.lossSlot (k : Fin 1024) (h : Half) : Half :=
  let s := h.slots.get k
  if 2 ≤ s.st && s.st ≤ 4 then h.withdraw k 9
  else if s.st = 5 then
    let h1 := h.dropDeferred k 9
    if schChLossPol (h.chans.get (h.schChan s.c.chan)).sch then
      h1.slotMap k (fun s => { s with tags := s.tags ||| tagBit 13 })
    else if s.c.action = 3 then h1.endPulse k 11 else h1.abortDrive k
  else h

/-- One slot at rotation contrary (R186). -/
def Half.reverseSlot (k : Fin 1024) (h : Half) : Half :=
  let s := h.slots.get k
  if 2 ≤ s.st && s.st ≤ 4 then h.withdraw k 10
  else if s.st = 5 then
    let h1 := h.dropDeferred k 10
    if s.c.action = 3 then h1.endPulse k 11 else h1.abortDrive k
  else h

/-- A skip at commit: the event entry, and the release of a ONESHOT slot EMPTY or DONE (R161, R165, R197). -/
def Half.skipAtCommit (outcome : Nat) (cyc : Nat) (limp : BitVec 16) (x : Cand) (h : Half) : Half :=
  let h1 := h.record x.k x.c cyc outcome (x.tags ||| limp) 0#32 0
  let s := h1.slots.get x.k
  if x.c.oneshot && (s.st = 1 || s.st = 7) then h1.release x.k else h1

/-- A commit whose processing waits (R42) meets a loss or a reversal: its cycle record opens, and its content, not frozen yet, is
withdrawn as R177 withdraws deferred content (log 104), a ONESHOT slot released (R165). -/
def Half.dropCommit (outcome : Nat) (k : Fin 24) (h : Half) : Half :=
  let s := h.cyls.get k
  match s.defer with
  | none => h
  | some cc =>
    let cyc := s.count.toNat
    let h1 : Half := { h with cyls := upd h.cyls k (fun s => { s with defer := none }) }
    eachOf cc.ovl (Half.skipAtCommit 8 cyc cc.limp) (eachOf cc.lskip (Half.skipAtCommit 7 cyc cc.limp) (eachOf cc.go (Half.skipAtCommit outcome cyc cc.limp)
      (h1.emit (.opened { cc.opn with cyc := cyc }))))

/-- The half's slots at a loss: entry to LOST, or to STOP from a state that allowed events (R111, R185). -/
def Half.lossSlots (h : Half) : Half :=
  eachIdx 24 (Half.dropCommit 9) (eachIdx 48 Half.dropSet (eachIdx 1024 Half.lossSlot h))

/-- The half's slots at rotation contrary (R186). -/
def Half.reverseSlots (h : Half) : Half :=
  eachIdx 24 (Half.dropCommit 10) (eachIdx 48 Half.dropSet (eachIdx 1024 Half.reverseSlot h))

/-- A tag set on the slots fired since the last accepted edge that meet a condition; an entry already written carries it
too (R101, R184). -/
def Half.tagFired (t : BitVec 16) (p : Fired → Bool) (h : Half) : Half :=
  eachOf (h.fired.filter p) (fun f h =>
    let s := h.slots.get f.k
    let h1 := if s.cyc = f.cyc && 3 < s.st && s.st < 6 then h.slotMap f.k (fun s => { s with tags := s.tags ||| t })
      else if s.cyc = f.cyc && s.st = 7 then h.slotMap f.k (fun s => { s with tags := s.tags ||| t }) else h
    if s.cyc = f.cyc && 3 < s.st && s.st < 6 then h1 else h1.emit (.tag f.cyl (f.k.1, f.cyc) t)) h

/-- STEP_TOL in Q16 times 1000 (R182, R191). -/
def Half.stepTol (h : Half) : Int := schCfgStepTol h.schCfg * 65536

/-- The slots a forward step has passed (R101, R180, R182): `was` is the half before the step, and `moved` how far the presented
angle of a content's kind has moved. A LOADED slot passed by at most STEP_TOL is due with
tag STEP; by more it is handled late with the cause; a FROZEN slot takes the cause along to its load. -/
def Half.stepSlots (was : Half) (moved : SlotC → Int) (rebase : Bool) (h : Half) : Half :=
  eachIdx 1024 (fun k h =>
    let s := h.slots.get k
    if s.st ≠ 2 && s.st ≠ 3 then h else
    let r0 := was.remaining s
    let d := moved s.c
    if r0 ≤ 0 || d < r0 || !h.trk.fires then h
    else if d * 1000 ≤ h.stepTol then
      if s.st = 3 then (h.slotMap k (fun s => { s with tags := s.tags ||| tagBit 3 })).makeDue k s.c.offset else h
    else
      let h1 := h.slotMap k (fun s => { s with cause := s.cause ||| tagBit (if rebase then 1 else 3) })
      if s.st = 3 then h1.lateHandle k (d - r0).toNat else h1.hopperLoad k) h

end Sys2Proof.Machine
end

