-- ==== Sys2Proof/Machine/Receivers.lean ====
section
/-! DEFINITION. The wheel receivers (R54 to R84): levels, the edge latch, wiring conditions, FAILED; and wheel geometry
and prediction (R87 to R92). -/

namespace Sys2Proof.Machine

open Sys2Proof

/-- Change one receiver. -/
def Half.rcvMap (i : Inp) (f : Rcv → Rcv) (h : Half) : Half := { h with rcv := upd h.rcv i.ix f }

/-- Change one receiver's reversed-pair state. -/
def Half.revMap (i : Inp) (f : RevChk → RevChk) (h : Half) : Half := { h with rev := upd h.rev i.ix f }

/-- V_REL + HYS in mV, below which V_ARM never falls (R56, R58). -/
def Rcv.floor (r : Rcv) : Rat := -20 + 10 * (wrxCfg0Hys r.cfg0 : Rat)

/-- What a receiver sees of an edge at the pins (R71, R528): INVERT inverts the pair. -/
def seenBy (r : Rcv) (e : EdgeIn) : EdgeIn :=
  if wrxCfg0Invert r.cfg0 then ⟨e.dt, !e.pol, e.pkNeg, e.pkPos, -e.exc, !e.gapHigh⟩ else e

/-- The larger peaks of two, positive and negative. -/
def peaks (a b : Nat × Nat) : Nat × Nat := (max a.1 b.1, max a.2 b.2)

/-- Magnitudes of a lobe's peaks in mV as WRX_PEAK shows them, in units of 4 mV cut off below and at most 0xFFFF (R74, log 113). -/
def pk4 (p : Nat × Nat) : Nat × Nat := (sat 16 (p.1 / 4), sat 16 (p.2 / 4))

/-- V_PK and V_ARM from an accepted edge's lobe, PK_POS and PK_NEG of the interval since the edge accepted before it (R56, R57, R74).
An edge older than the newest one was held back for it (R533): its interval ends before the newest edge's. -/
def Rcv.accept (e : EdgeIn) (at_ : Nat) (r : Rcv) : Rcv :=
  let newest := at_ = r.lastAt
  let p := if newest then peaks r.lobeRun r.lobeLast else r.lobeRun
  { r with vpk := some e.pkPos, varm := max ((wrxCfg0ThFrac r.cfg0 : Rat) * e.pkPos / 100) r.floor,
           pkPos := (pk4 p).1, pkNeg := (pk4 p).2, accAt := (at_ :: r.accAt).take 16,
           lobeRun := (0, 0), lobeLast := if newest then (0, 0) else r.lobeLast }

/-- An interval begins at the newest edge (R70, R94), or before it where a rebase takes it as the second of two (R98). -/
def Rcv.newRun (second : Bool) (r : Rcv) : Rcv := { r with lobeRun := (0, 0), lobeLast := if second then r.lobeLast else (0, 0) }

/-- V_ARM back at VR_INIT (R58), also where VR_INIT lies below V_REL + HYS: the next halving brings it to that floor (log 113). -/
def Rcv.initArm (r : Rcv) : Rcv := { r with vpk := none, varm := (wrxCfg0VrInit r.cfg0 : Rat) }

/-- A change of the comparator's output stands behind a qualified edge (R56, R60, R69): in VR mode the lobe it ends has armed above
V_ARM, in HALL mode the output differs. -/
def Rcv.changes (e : EdgeIn) (r : Rcv) : Bool := if wrxCfg0Mode r.cfg0 then e.pol != r.tooth else decide (r.varm < e.pkPos)

/-- The input is enabled. -/
def Half.enabled (h : Half) (i : Inp) : Bool := wrxCfg0En (h.rcvOf i).cfg0

/-- The receiver works in HALL mode (R55). -/
def Rcv.hall (r : Rcv) : Bool := wrxCfg0Mode r.cfg0

/-- OPEN (R75). -/
def Wiring.fOpen (w : Wiring) : Bool := w.opn
/-- SHORT_GND (R75, R78). -/
def Wiring.fGnd (w : Wiring) : Bool := w.shortGnd || w.clip = 1
/-- SHORT_BAT. -/
def Wiring.fBat (w : Wiring) : Bool := w.shortBat || w.clip = 2
/-- SHAPE. -/
def Wiring.fShape (w : Wiring) : Bool := w.shape || w.clip = 3
/-- OPEN, SHORT_GND or SHORT_BAT is set (R82, R84). -/
def Wiring.bad (w : Wiring) : Bool := w.fOpen || w.fGnd || w.fBat

/-- WRX_DIAG (R75). -/
def Half.wrxDiag (h : Half) (i : Inp) : Word :=
  let r := h.rcvOf i
  let c := h.revOf i
  put (sat 8 r.cm) 8 24 ||| put (sat 8 r.dcdiff) 8 16 ||| putB r.wir.fOpen 15 ||| putB r.wir.fGnd 14 ||| putB r.wir.fBat 13 |||
    putB c.reversed 12 ||| putB r.wir.fShape 11 ||| putB r.wir.silent 10 ||| putB c.unavail 9 ||| putB c.failed 8

/-- WRX_EDGE_ST (R73). -/
def Rcv.edgeSt (r : Rcv) : Word :=
  putB r.valid 31 ||| putB r.ovr 30 ||| putB r.pol 29 ||| putB r.first 28 ||| putB r.held 27 ||| put r.noise 8 0

/-- WRX_PEAK (R74). -/
def Rcv.peakReg (r : Rcv) : Word := put r.pkPos 16 16 ||| put r.pkNeg 16 0

/-- "Rotation shown" for an input (R77). -/
def Half.rotation (h : Half) (i : Inp) : Bool :=
  h.trk.st ≠ 0 || allInps.any (fun j => j ≠ i && h.enabled j &&
    (match (h.rcvOf j).accAt[15]? with | some t => h.now < t + 500 * etPerMs | none => false))

/-- The reversed-pair check runs on an input (R79, R80): REV_EN, a description with a gap, a decisive signature. -/
def Half.revRuns (h : Half) (i : Inp) : Bool :=
  let r := h.rcvOf i
  wrxCfg1RevEn r.cfg1 && !(h.wheel i).gaps.isEmpty &&
    (if r.hall then wrxCfg0EdgeSel r.cfg0 ≠ 2 else wrxCfg0SigLead r.cfg0 != wrxCfg0SigTrail r.cfg0)

/-- REV_UNAVAIL as CONFIG_COMMIT sets it (R80, R81). -/
def Half.revUnavail0 (h : Half) (i : Inp) : Bool := wrxCfg1RevEn (h.rcvOf i).cfg1 && !h.revRuns i

/-- An input is UNCONFIRMED (R81). -/
def Half.unconfirmed (h : Half) (i : Inp) : Bool :=
  h.enabled i && h.revRuns i && !(h.revOf i).decided && !(h.revOf i).unavail

/-! ### Wheel geometry (R87, R88, R119) -/

/-- A position at which no qualified edge occurs (R526). -/
def Wheel.missing (w : Wheel) (p : Nat) : Bool :=
  w.gaps.any (fun g => (p + w.teeth - g.1 % w.teeth) % w.teeth < g.2)

/-- One position on in a direction. -/
def Wheel.stepPos (w : Wheel) (ast : Bool) (p : Nat) : Nat :=
  if ast then (p + w.teeth - 1) % w.teeth else (p + 1) % w.teeth

/-- The next position with an edge and how many pitches away it stands; gaps have at most four positions (R87). -/
def Wheel.nextTooth (w : Wheel) (ast : Bool) (p : Nat) : Nat × Nat :=
  let rec go : Nat → Nat → Nat → Nat × Nat
    | 0, q, n => (q, n)
    | f + 1, q, n => if w.missing q then go f (w.stepPos ast q) (n + 1) else (q, n)
  go 5 (w.stepPos ast p) 1

/-- The fraction (1/256 pitch) of a marker between p and p + 1, if there is one. -/
def Wheel.markAt (w : Wheel) (p : Nat) : Option Nat := w.marks.lookup p

/-- An expected edge: position, marker, pitches from the previous expected edge, whether it ends a gap. -/
structure Nxt where
  pos  : Nat
  mark : Bool
  span : Rat
  gap  : Bool
deriving DecidableEq, Repr

/-- The expected edge after another on a crank wheel (R88, R90, R119). A marker whose position lies inside a gap is never expected: no edge
leads up to it (log 113). -/
def Wheel.next (w : Wheel) (ast : Bool) (pos : Nat) (mark : Bool) : Nxt :=
  let (q, n) := w.nextTooth ast pos
  if !ast then
    match w.markAt pos, mark with
    | some f, false => ⟨pos, true, (f : Rat) / 256, false⟩
    | some f, true => ⟨q, false, n - (f : Rat) / 256, n > 1⟩
    | none, _ => ⟨q, false, n, n > 1⟩
  else if mark then
    ⟨pos, false, ((w.markAt pos).getD 0 : Rat) / 256, false⟩
  else
    match w.markAt q with
    | some f => ⟨q, true, n - (f : Rat) / 256, n > 1⟩
    | none => ⟨q, false, n, n > 1⟩

/-- The wheel angle of an edge in Q40, the accumulator's own unit (R88, R119); a remainder below it is rounded free (log 10).
AST_OFS moves marker edges running astern as it does tooth edges, and positions in TRIM and MARK are numbers after MK_T is
renumbered 0 (log 106). -/
def Wheel.angle (w : Wheel) (ast : Bool) (pos : Nat) (mark : Bool) : Int :=
  let n : Nat := if mark then pos * 256 + (w.markAt pos).getD 0 else pos * 256
  roundFree 4 ((n * rev40 : Nat) : Int) (256 * max 1 w.teeth) +
    ((if mark then 0 else (w.trim.lookup pos).getD 0) + (if ast then w.astOfs else 0)) * 2 ^ 24

/-- The same in the direction of travel, within one revolution. -/
def Wheel.travel40 (w : Wheel) (ast : Bool) (pos : Nat) (mark : Bool) : Nat :=
  let a := w.angle ast pos mark
  ((if ast then -a else a) % (rev40 : Int)).toNat

/-- Insert a feature by angle. -/
def insFeat (x : Int × Bool) : List (Int × Bool) → List (Int × Bool)
  | [] => [x]
  | y :: t => if x.1 ≤ y.1 then x :: y :: t else y :: insFeat x t

/-- The features of a phase input in the order of travel (R87, R534). -/
def PhaseDesc.feats (d : PhaseDesc) (ast : Bool) : List (Int × Bool) :=
  (if ast then d.featAst else d.feat).foldr insFeat []

/-- The angle from a feature to the next in the order of travel. -/
def featSpan (len : Int) (fs : List (Int × Bool)) (j : Nat) : Int :=
  let a := (fs.getD j (0, false)).1
  let b := (fs.getD ((j + 1) % max 1 fs.length) (0, false)).1
  let d := (b - a) % len
  if d = 0 then len else d

/-! ### Prediction (R91, R92) -/

/-- The predicted normalised period in et from the history in 1/256 et, newest first (R91). -/
def predT (depth : Nat) (hist : List Nat) : Option Rat :=
  let h : List Rat := hist.map (fun x => (x : Rat) / 256)
  let lim (t1 t : Rat) : Rat := max (3 / 4 * t1) (min (133 / 100 * t1) t)
  match h.take (max 1 (min depth 4)) with
  | [] => none
  | [t1] => some t1
  | [t1, t2] => some (lim t1 (2 * t1 - t2))
  | [t1, t2, t3] => some (lim t1 (3 * t1 - 3 * t2 + t3))
  | t1 :: t2 :: t3 :: t4 :: _ => some (lim t1 ((9 * t1 - 3 * t2 - 5 * t3 + 3 * t4) / 4))

/-- A period enters the history: the interval over the pitches it spans, 8 fractional bits (R90). -/
def pushHist (depth : Nat) (hist : List Nat) (int span : Rat) : List Nat :=
  ((roundFreeQ 5 (if span = 0 then 0 else int / span * 256)).toNat :: hist).take (max 2 (min depth 4))

/-- The unit reads a phase input (LIMP, R122). -/
def Half.isPhase (h : Half) (u : TUnit) : Bool := u.inp = some .cma || u.inp = some .cmb || h.trk.inLimp && u.inp = h.trk.phaseInp

/-- The expected edge after the unit's last one; in LIMP the next feature, one pitch being one degree (R122, log 13). -/
def Half.nextOf (h : Half) (u : TUnit) : Nxt :=
  if h.isPhase u then
    let fs := h.phaseDesc.feats h.trk.dir.read
    ⟨(u.pos + 1) % max 1 fs.length, false, (featSpan h.cycLen fs u.pos : Rat) / 65536, false⟩
  else (h.wheel (u.inp.getD .ckd)).next h.trk.dir.read u.pos u.mark

/-- The angle of an edge of a unit in the direction of travel, Q40. -/
def Half.angle40 (h : Half) (u : TUnit) (pos : Nat) (mark : Bool) : Nat :=
  if h.isPhase u then (((h.phaseDesc.feats h.trk.dir.read).getD pos (0, false)).1 % h.cycLen).toNat * 2 ^ 24
  else (h.wheel (u.inp.getD .ckd)).travel40 h.trk.dir.read pos mark

/-- The modulus of a unit's accumulator. -/
def Half.unitMod (h : Half) (u : TUnit) : Nat := if h.isPhase u then h.cycLen.toNat * 2 ^ 24 else rev40

/-- PRED_DEPTH (R125); after a TRACKER_SET the old one until the next accepted edge (R436). -/
def Trk.depth (t : Trk) : Nat := (t.held.map (·.1)).getD (trkCfg0PredDepth t.cfg0)

/-- The gate's lower bound (R92); after a TRACKER_SET the old one until the next accepted edge (R436). -/
def Trk.gateLo (t : Trk) : Rat := ((t.held.map (·.2)).getD (trkCfg0GateLo t.cfg0) : Nat) / 100

/-- The predicted interval to a unit's next expected edge in et (R91). -/
def Half.predInt (h : Half) (u : TUnit) : Option Rat := (predT h.trk.depth u.hist).map (· * (h.nextOf u).span)

/-- The instant a unit's gate closes (R92). -/
def Half.gateEnd (h : Half) (u : TUnit) : Option Rat := (h.predInt u).map (fun d => u.lastAt + 9 / 5 * d)

/-- Pitches per revolution of a unit; in LIMP 360 degrees. -/
def Half.pitches (h : Half) (u : TUnit) : Nat := if h.isPhase u then 360 else max 1 (h.wheel (u.inp.getD .ckd)).teeth

/-- Crank speed in rpm from a unit's predicted period (R128). -/
def Half.rpmOf (h : Half) (u : TUnit) : Option Rat :=
  match predT h.trk.depth u.hist with
  | some t => if t ≤ 0 then none else some (60 * (etPerSec : Rat) / (t * h.pitches u))
  | none => none

/-- Crank speed in rpm (R128). -/
def Half.rpm (h : Half) : Option Rat := h.rpmOf h.trk.src

/-- TRK_SPEED in 1/65536 rpm (R128). -/
def Half.speed (h : Half) : Nat := match h.rpm with
  | some r => (roundFreeQ 6 (r * 65536)).toNat
  | none => 0

/-! ### Blanking (R62 to R66, R530) -/

/-- BLANK_MIN in et. -/
def Rcv.blankMin (r : Rcv) : Rat := 20 * (wrxCfg1BlankMin r.cfg1 : Rat)

/-- The length of a window over an interval (R62). -/
def Rcv.blankLen (r : Rcv) (int : Rat) : Rat := max ((wrxCfg1BlankFrac r.cfg1 : Rat) / 100 * int) r.blankMin

/-- Open the blanking window of an input at an instant over an interval; an edge in the period in which it ends lies
outside (R62, R65). -/
def Half.openBlank (i : Inp) (at_ int : Rat) (h : Half) : Half :=
  h.rcvMap i (fun r => { r with blankEnd := (at_ + r.blankLen int).floor.toNat })

/-- The unit that uses an input follows the SYNC row: its own prediction (R530). -/
def Half.syncRow (h : Half) (i : Inp) : Bool :=
  (h.trk.src.inp = some i && h.trk.runs) || (h.trk.sec.inp = some i && h.trk.secSt = 2) ||
    (h.trk.phaseInp = some i && 3 ≤ h.trk.st && h.trk.st ≤ 6)

/-! ### The edge latch (R67, R68) -/

/-- EDGE_SEL passes a change of a polarity; a VR receiver's edge is the fall to NO_TOOTH (R55, R56, R60). -/
def Rcv.selects (r : Rcv) (pol : Bool) : Bool :=
  if r.hall then (match wrxCfg0EdgeSel r.cfg0 with | 0 => !pol | 1 => pol | _ => true) else !pol

/-- A clear of VALID (R67, R68): an edge of the same EVCLK period wins. -/
def Rcv.clearValid (now : Nat) (r : Rcv) : Rcv := { r with valid := r.valid && r.nEdges ≠ 0 && r.lastAt = now }

/-- A qualified edge outside blanking enters the latch (R67, R70, R529). -/
def Half.latchEdge (i : Inp) (e : EdgeIn) (h : Half) : Half :=
  h.rcvMap i (fun r => { r with
    tooth := e.pol, held := false, ts := h.ts, pol := e.pol, ovr := r.ovr || r.valid, valid := true, first := r.firstPend,
    firstPend := false, lobeRun := peaks r.lobeRun r.lobeLast, lobeLast := peaks r.lobeCur (e.pkPos, e.pkNeg), lobeCur := (0, 0),
    lastQ := h.now, lastInt := if r.nEdges = 0 then 0 else h.now - r.lastAt, lastAt := h.now,
    nEdges := if r.firstPend then 1 else r.nEdges + 1, wir := { r.wir with silent := false } })

/-! ### FAILED (R82) and the events of wiring (R83) -/

/-- Set flags and raise an event for every flag of WRX_DIAG[15:10] that becomes set (R83). -/
def Half.wiringEvents (old : Half) (i : Inp) (h : Half) : Half :=
  let a := (old.rcvOf i).wir
  let b := (h.rcvOf i).wir
  let loc := locInp h.id i.ix.1
  let up (p q : Bool) (c : Nat) (h : Half) : Half := if !p && q then h.raise c loc else h
  ((((((up a.fOpen b.fOpen 0x00 h) |> up a.fGnd b.fGnd 0x01) |> up a.fBat b.fBat 0x02) |>
    up (old.revOf i).reversed (h.revOf i).reversed 0x03) |> up a.fShape b.fShape 0x04) |> up a.silent b.silent 0x05)

/-- INPUT_HOLD holds an input: an open or short class is lasting and an event of it within its window names the input
(R463). -/
def Half.inputHeld (h : Half) (i : Inp) : Bool :=
  [0x00, 0x01, 0x02].any (fun c => h.flt.reacts c && (h.flt.cntOf c).evts.any (fun e =>
    h.flt.inWin e && e.2.loc = locInp h.id i.ix.1))

/-- A condition under which FAILED holds: open, short, or a reversed pair under REFUSE (R82). -/
def Half.failCond (h : Half) (i : Inp) : Bool :=
  (h.rcvOf i).wir.bad || ((h.revOf i).reversed && wrxCfg0RevPolicy (h.rcvOf i).cfg0)

end Sys2Proof.Machine
end

