-- ==== Sys2Proof/Machine/TrackOps.lean ====
section
/-! DEFINITION. The angle tracker's state changes (R86, R100, R104, R105, R109 to R118, R121): losing sync, the forward
step and the correction, the direction unit, the advance to SYNC, the entry to LIMP. -/

namespace Sys2Proof.Machine

open Sys2Proof

/-- A tracking unit that has taken nothing yet on an input. -/
def TUnit.seek (i : Option Inp) : TUnit := ⟨i, false, 0, false, false, 0, [], none, 0, 0, 0, none, none, none, 0, 0, (0, false)⟩

/-- Change the tracker. -/
def Half.trkMap (f : Trk → Trk) (h : Half) : Half := { h with trk := f h.trk }

/-- Change the angle source unit. -/
def Half.srcMap (f : TUnit → TUnit) (h : Half) : Half := h.trkMap (fun t => { t with src := f t.src })

/-- Change the second crank unit. -/
def Half.secMap (f : TUnit → TUnit) (h : Half) : Half := h.trkMap (fun t => { t with sec := f t.sec })

/-- The input of the angle source, 7 in a location code where there is none (R531). -/
def Half.srcLoc (h : Half) : Word := locInp h.id (match h.trk.src.inp with | some i => i.ix.1 | none => 7)

/-- The location code of an input (R531). -/
def Half.inLoc (h : Half) (i : Inp) : Word := locInp h.id i.ix.1

/-- The crank wheel on which acquisition takes place (R86, R463): REF_WHEEL, or the wheel to which the source was switched by class since
STOP; the other when it is FAILED. -/
def Half.acqInp (h : Half) : Option Inp :=
  let r := h.trk.swTo.getD h.trk.refInp
  let o := otherCrank r
  if (h.wheel r).present && !h.failed r then some r
  else if (h.wheel o).present && !h.failed o then some o
  else if (h.wheel r).present then some r else none

/-- The window that a qualified edge opens in the STOP and SEEK rows of R62: BLANK_MIN alone at the first edges, at FIRST,
and in STOP on the wheel on which acquisition begins; every other input follows the SEEK row in STOP too (R530). A candidate leaves the
window as it was (R95, log 113). -/
def Half.openBlankSeek (i : Inp) (h : Half) : Half :=
  let r := h.rcvOf i
  h.openBlank i h.now (if (h.trk.st = 0 && h.acqInp = some i) || r.nEdges < 2 then 0 else r.lastInt)

/-- The second crank unit starts anew on the wheel beside a source (R111, R113). -/
def Half.restartSec (src : Option Inp) (h : Half) : Half :=
  let o := otherCrank (src.getD h.trk.refInp)
  let on := trkCfg0SecondEn h.trk.cfg0 && (h.wheel o).present
  h.trkMap (fun t => { t with sec := TUnit.seek (if on then some o else none), alt := TUnit.seek none,
                              secSt := if !on then 0 else if h.failed o then 3 else 1 })

/-- The confirmation of the direction is re-armed (R110, R111). -/
def DirU.rearm (d : DirU) : DirU := { d with conf := false, running := false, travel := 0, refs := 0, contra := 0 }

/-- No cylinder's cycle goes on where the cycle angle ends: none has committed in the cycle that the next valid angle stands in
(R175, R193). -/
def Half.newCycles (h : Half) : Half := { h with cyls := h.cyls.map (fun c => { c with committed := false, skip := false }) }

/-- Enter LOST or STOP (R105, R110, R111, R129): the angle becomes invalid, and with it the twist mode is NONE (R143); from LOST, and
from STOP out of a state that allowed events, SYNC_LOSS is raised and posted (R454) and the slots follow R185. -/
def Half.loseSync (dst : Nat) (h : Half) : Half :=
  let t := h.trk
  let acts := dst = 7 || t.fires
  let last := if t.angleValid then h.cyc else t.lastCyc
  let loc := h.srcLoc
  let dir := t.dir.rearm
  let h1 := (h.trkMap (fun t => { t with
    st := dst, src := { TUnit.seek none with pos := t.src.pos, bad := t.src.bad }, rev := 0, swPend := false, lastCyc := last,
    dir := if dst = 0 then { dir with read := dir.cmd, seen := false, flip := 0 } else { dir with flip := 0 },
    phase := { t.phase with agree := 0, other := 0, feat := none, lost := if dst = 7 && (t.st = 1 || t.st = 7) then t.phase.lost else 0 },
    swTo := if dst = 0 then none else t.swTo })).restartSec h.acqInp
  let h2 : Half := if dst = 0 then { h1 with rcv := h1.rcv.map Rcv.initArm } else h1
  let h3 : Half := { h2 with
    fired := [], tws := { h2.tws with mode := 0, ramp := false, rangeTrav := none, okTrav := none, fromNone := false } }
  if !acts then h3.newCycles else
  (((h3.raise 0x11 loc).emit (.unsol 0 0x8003 h.frame (le 1 h.id.num ++ le 1 dst ++ zeros 2 ++ leI 4 last) true)).lossSlots.newCycles).emit .anaLoss

/-- Set the sync state. -/
def Half.setSt (n : Nat) (h : Half) : Half := h.trkMap (fun t => { t with st := n })

/-- The throw angles are presented anew where the cycle angle is set (R107, R108, R532): no slot becomes due by it. -/
def Half.presentFresh (h : Half) : Half :=
  let len := h.cycLen
  let cy := h.cyc
  { h with tws := { h.tws with cyl := h.tws.cyl.map (fun c => { c with pres := wrapS len (cy + c.c) }) } }

/-! ### Correction (R100, R101) -/

/-- STEP of the angle clock in 1/20 degree (R303). -/
def aclkStep20 (w : Word) : Nat :=
  match aclkCfgStep w with
  | 0 => 20 | 1 => 10 | 2 => 4 | 3 => 2 | _ => 1

/-- The number of the last multiple of STEP at or below an angle (R278). -/
def aclkMult (w : Word) (a : Int) : Int := a * 20 / (65536 * (aclkStep20 w : Nat))

/-- A forward step past multiples of STEP makes one trigger with STEP (R281). -/
def Half.aclkJump (old moved : Int) (h : Half) : Half :=
  let w := h.acq.aclk
  if aclkCfgEn w && h.trk.fires && aclkMult w old < aclkMult w (old + moved) then
    (h.acqMap (fun a => { a with aclkAt := some (aclkMult w (h.cyc)) })).triggerSrc 1 none true
      (some (aclkMult w h.cyc * (aclkStep20 w : Nat), (h.tws.cyl.map (·.c)).toList))
  else h

/-- The source accumulator steps forward (R100 step 2): slots in the span are handled under R101 and R182. -/
def Half.stepAcc (d : Nat) (rebase : Bool) (h : Half) : Half :=
  if d = 0 then h else
  let h1 := (h.setAcc (h.trk.src.acc + d)).present
  if !h.trk.angleValid then h1 else
  let len := h.cycLen
  (h.stepSlots (fun c => (h1.presOf c - h.presOf c) % len) rebase h1).aclkJump h.cyc ((h1.cyc - h.cyc) % len)

/-- The travel from a unit's edge to another in its accumulator's unit. -/
def Half.spanTo (h : Half) (u : TUnit) (n : Nxt) : Nat :=
  let m := h.unitMod u
  let d := (h.angle40 u n.pos n.mark + m - h.angle40 u u.pos u.mark % m) % m
  if d = 0 then m else d

/-- How far an accumulator stands past an angle, slightly behind it counted as negative. -/
def progOf (m acc th : Nat) : Int :=
  let p := (acc + m - th % m) % m
  if p * 8 ≥ m * 7 then (p : Int) - m else p

/-- INC of R100 step 3: the travel left over the predicted interval, rounded; 0 where none is left. -/
def incOf (left : Int) (d : Option Rat) : Nat :=
  match d with
  | some d => if left ≤ 0 ∨ d ≤ 0 then 0 else (roundRat (left / d)).toNat
  | none => 0

/-- The correction of R100 on the angle source, which stands at its accepted edge: `diff` is that edge's angle less the
accumulator. The lateness of a slot that the step passes is taken at the new INC (R181). -/
def Half.correct (diff : Int) (rebase : Bool) (h : Half) : Half :=
  let u := h.trk.src
  let left : Int := (h.spanTo u (h.nextOf u) : Int) + min diff 0
  let inc := incOf left (h.predInt u)
  (h.srcMap (fun u => { u with inc := inc })).stepAcc diff.toNat rebase

/-- The accumulator of a unit set to the angle of its edge, with INC (R107, R532). -/
def Half.placed (h : Half) (u : TUnit) : TUnit :=
  { u with acc := h.angle40 u u.pos u.mark % h.unitMod u, inc := incOf (h.spanTo u (h.nextOf u)) (h.predInt u) }

/-! ### The direction unit (R114 to R118) -/

/-- The quadrature input (R125). -/
def Trk.quadInp (t : Trk) : Inp := if trkCfg0QuadIn t.cfg0 then .aux2 else .aux1

/-- The input whose failure is the direction source's (R117). -/
def Half.dirInp (h : Half) : Option Inp :=
  match trkCfg0DirSrc h.trk.cfg0 with
  | 0 => h.trk.phaseInp
  | 1 => h.trk.src.inp
  | _ => some h.trk.quadInp

/-- The direction source has failed: FAILED or SILENT (R117). -/
def Half.dirBad (h : Half) : Bool :=
  match h.dirInp with
  | some i => h.failed i || (h.rcvOf i).wir.silent
  | none => false

/-- DIR_SRC_LOST follows the direction source; a running span is abandoned (R117). -/
def Half.dirCheck (h : Half) : Half :=
  let bad := h.dirBad
  h.trkMap (fun t => { t with dir := { t.dir with srcLost := bad, running := t.dir.running && !bad } })

/-- A reading takes part in the span (R118). -/
def DirU.span (d : DirU) (r : Bool) : DirU :=
  if r ≠ d.cmd then { d with running := false, travel := 0, refs := 0 }
  else if d.running || d.conf then d else { d with running := true, travel := 0, refs := 0 }

/-- A quadrature reading at an accepted edge of the angle source (R115, R116, R532): the half, rotation contrary, and
whether the direction read changes. `p` is the position last accepted before the edge, `at_` the edge's instant. Contrary readings that
go on after rotation contrary start a new pair (log 106). -/
def Half.quadRead (lvl : Bool) (p : Nat × Bool) (at_ : Nat) (h : Half) : Half × Bool × Bool :=
  if trkCfg0DirSrc h.trk.cfg0 ≠ 2 || h.dirBad then (h, false, false) else
  let r := lvl != trkCfg0QuadLvl h.trk.cfg0
  let d := h.trk.dir
  let contra := if r = d.cmd then 0 else d.contra + 1
  let flip := if r = d.read then 0 else d.flip + 1
  let d1 : DirU := { d with
    contra := if contra ≥ 2 then 0 else contra, flip := if flip ≥ 2 then 0 else flip, seen := d.seen || flip = 0 || flip ≥ 2,
    read := if flip ≥ 2 then r else d.read, prevPos := if flip = 1 then p else d.prevPos,
    contraAt := if flip = 1 then at_ else d.contraAt }
  let h1 := h.trkMap (fun t => { t with dir := d1.span r })
  (if contra = 1 then h1.raise 0x0D (h.inLoc h.trk.quadInp) else h1, contra ≥ 2, flip ≥ 2)

/-- A reading by gap order or cam pattern (R115, R116): whether it is rotation contrary. Where the direction read changes, the second unit
starts anew in the direction then read (R113). -/
def Half.readDir (r : Bool) (h : Half) : Half × Bool :=
  if h.dirBad then (h, false) else
  let h1 := h.trkMap (fun t => { t with dir := { t.dir.span r with read := r, seen := true } })
  (if r = h.trk.dir.read then h1 else h1.restartSec h1.trk.src.inp, r ≠ h.trk.dir.cmd)

/-- The angle source has travelled on (R118): `ran` says whether the span ran before this edge, `ref` whether the edge is
a reference. -/
def Half.dirTravel (span : Rat) (ref ran : Bool) (h : Half) : Half :=
  let n := trkCfg0DirSpan h.trk.cfg0
  let full := (h.pitches h.trk.src : Rat) * n
  h.trkMap (fun t =>
    let d := t.dir
    if !d.running then t else
    let d1 : DirU := { d with travel := d.travel + span, refs := d.refs + bit (ref && ran) }
    let ok := if n = 0 then d1.refs ≥ 1 else d1.travel ≥ full
    { t with dir := if ok then { d1 with conf := true, running := false } else d1 })

/-- Rotation contrary (R110, R186): DIRECTION, the confirmation re-armed, all slots withdrawn and every output in action ended. Where the
tracker leaves a state that allowed events for PHASE, open windows of analysis complete INCOMPLETE as at a loss (R324); the cylinders' cycles
go on, since the angle stays valid (R175). -/
def Half.contrary (h : Half) : Half :=
  let quad := trkCfg0DirSrc h.trk.cfg0 = 2
  let h1 := ((h.raise 0x0E h.srcLoc).trkMap (fun t => { t with dir := t.dir.rearm })).reverseSlots
  match h.trk.st with
  | 3 => if quad then h1 else h1.loseSync 7
  | 4 => if quad then (h1.setSt 3).emit .anaLoss else h1.loseSync 7
  | 5 => if quad then (h1.setSt 3).emit .anaLoss else h1.loseSync 7
  | 6 => h1.loseSync 7
  | _ => h1

/-! ### Speed, SYNC (R105, R109, R123) -/

/-- The longest interval between features, in degrees. -/
def Half.longFeat (h : Half) : Rat :=
  let fs := h.phaseDesc.feats h.trk.dir.read
  (((List.range fs.length).foldl (fun m j => max m (featSpan h.cycLen fs j)) 0 : Int) : Rat) / 65536

/-- LIMP cannot run at a period of so many et per degree (R123). -/
def Half.limpSlow (h : Half) (t : Rat) : Bool := 9 / 5 * t * h.longFeat > 2 ^ 32

/-- The speed events of R110 at an edge that leaves the angle source as `u`: STOP below 4.5 rpm, OVERSPEED_TRACK and LOST above 3300 rpm,
and in LIMP the limit of R123. Where another event of the edge has changed the state (`free` false) they only count (R112). -/
def Half.speedCheck (free : Bool) (st0 : Nat) (u : TUnit) (h : Half) : Half :=
  if st0 = 0 then h else
  match h.rpmOf u with
  | none => h
  | some r =>
    if r > 3300 && st0 ≠ 7 then
      let h1 := h.raise 0x12 (match u.inp with | some i => h.inLoc i | none => h.srcLoc)
      if free then h1.loseSync 7 else h1
    else if !free then h
    else if r < 9 / 2 then h.loseSync 0
    else match predT h.trk.depth u.hist with
      | some t => if h.trk.inLimp && h.limpSlow t then h.loseSync 0 else h
      | none => h

/-- The inputs in use by the tracker that are not FAILED (R109). -/
def Half.inUse (h : Half) : List Inp :=
  (h.trk.src.inp.toList ++ h.trk.sec.inp.toList ++ h.trk.phaseInp.toList ++
    (if trkCfg0DirSrc h.trk.cfg0 = 2 then [h.trk.quadInp] else [])).filter (fun i => !h.failed i)

/-- No input in use is UNCONFIRMED (R81, R109). -/
def Half.confirmedAll (h : Half) : Bool := h.inUse.all (fun i => !h.unconfirmed i)

/-- PHASE to SYNC (R109). -/
def Half.trySync (h : Half) : Half :=
  let t := h.trk
  if t.st = 3 && t.src.refs ≥ 2 && (h.cycLen = 360 * deg || t.phase.agree ≥ 2) && t.dir.conf &&
      h.confirmedAll && h.rpm.any (fun r => 5 ≤ r) then h.setSt 4 else h

/-- Open the window of an input from its unit's last edge over its predicted interval (R62, R530). -/
def Half.openPred (u : TUnit) (h : Half) : Half :=
  match u.inp, h.predInt u with
  | some i, some d => h.openBlank i u.lastAt d
  | _, _ => h

/-- The window that an edge of the angle source opens once its consequences are taken (R62): over the predicted interval, and where the
tracker has gone to LOST or STOP, by the row of that state. -/
def Half.openAfter (i : Inp) (h : Half) : Half := if h.trk.runs then h.openPred h.trk.src else h.openBlankSeek i

/-- The angle source passes its reference (R109, R110); the return to SYNC waits while an input in use is UNCONFIRMED (R81). -/
def Half.reference (h : Half) : Half :=
  let h1 := h.srcMap (fun u => { u with refs := u.refs + 1 })
  if h1.trk.st = 5 && h1.trk.chkTravel ≥ 360 && h1.confirmedAll then h1.setSt 4 else h1

/-- Enter SYNC_CHECK. -/
def Half.toCheck (h : Half) : Half := h.trkMap (fun t => { t with st := 5, chkTravel := 0 })

/-! ### LIMP (R121, R122) -/

/-- The pattern fits with the newest feature edge at index `j`: polarities and normalised intervals (R121). -/
def limpFits (lo : Rat) (len : Int) (fs : List (Int × Bool)) (k : Nat) (es : List (Nat × Bool)) (j : Nat) : Bool :=
  let n := max 1 fs.length
  let ix (i : Nat) : Nat := (j + n * k - i) % n
  let per (i : Nat) : Rat :=
    (((es.getD i (0, false)).1 : Rat) - (es.getD (i + 1) (0, false)).1) / ((featSpan len fs (ix (i + 1)) : Rat) / 65536)
  es.length ≥ k && (List.range k).all (fun i => (es.getD i (0, false)).2 = (fs.getD (ix i) (0, false)).2) &&
    (List.range (k - 2)).all (fun i => 0 < per (i + 1) && lo ≤ per i / per (i + 1) && per i / per (i + 1) ≤ 9 / 5)

/-- The index of the newest feature when exactly one rotation of the pattern fits in the commanded direction (R121). -/
def Half.limpIndex (h : Half) : Option Nat :=
  let d := h.phaseDesc
  let fs := d.feats h.trk.dir.cmd
  match (List.range fs.length).filter (limpFits h.trk.gateLo h.cycLen fs (max 3 d.k) h.trk.phase.edges) with
  | [j] => some j
  | _ => none

/-- The normalised periods of the feature edges in et per degree, newest first. -/
def Half.limpPeriods (h : Half) (j : Nat) : List Rat :=
  let fs := h.phaseDesc.feats h.trk.dir.cmd
  let n := max 1 fs.length
  let es := h.trk.phase.edges
  (List.range (max 3 h.phaseDesc.k - 1)).map (fun i =>
    (((es.getD i (0, false)).1 : Rat) - (es.getD (i + 1) (0, false)).1) /
      ((featSpan h.cycLen fs ((j + n * 32 - (i + 1)) % n) : Rat) / 65536))

/-- A crank wheel is FAILED or SILENT, or the engine description has none of that name (R121). -/
def Half.crankGone (h : Half) (i : Inp) : Bool := !(h.wheel i).present || h.failed i || (h.rcvOf i).wir.silent

/-- The limp conditions of R121, with the index of the newest feature. LIMP_OFF holds them unmet (R463), and so does a speed at which
R123 ends LIMP. LIMP_DELAY cycles are counted in the features that have arrived in SEEK or LOST (log 106). -/
def Half.limpConds (h : Half) : Option Nat :=
  let fs := h.phaseDesc.feats h.trk.dir.cmd
  let gone := h.crankGone .ckd && h.crankGone .ckf
  let waited := (h.trk.st = 1 || h.trk.st = 7) && h.trk.phase.lost ≥ trkCfg1LimpDelay h.trk.cfg1 * fs.length
  if trkCfg0LimpEn h.trk.cfg0 && !h.flt.reacts 0x10 && fs.length ≥ 3 && (gone || waited) &&
      h.trk.phaseInp.any (fun i => !h.failed i) then
    match h.limpIndex with
    | some j =>
      match h.limpPeriods j with
      | t :: _ => if 0 < t && 60 * (etPerSec : Rat) / (t * 360) ≥ 5 && !h.limpSlow t then some j else none
      | [] => none
    | none => none
  else none

/-- The tracker leaves STOP: the next commit of a reservoir's cylinders opens its start period (R253), and a test of the test DAC that needed
STOP ends (R299). -/
def Half.armStart (h : Half) : Half :=
  if h.trk.st ≠ 0 then h else
  ({ h with led := { h.led with res := h.led.res.map (fun x => { x with armed := true }) } } : Half).tdacLeave

/-- Enter LIMP where its conditions are met (R110, R122): the phase input becomes the angle source, the acquisition wheel is sought, and with
SECOND_EN the second crank unit seeks the other one (R113). The limp angle has run on since the last feature, whose blanking window follows
the SYNC row (R62, R530). POS is the number of the feature in the order of travel: the spec gives a feature no position of its own (log 113). -/
def Half.tryLimp (h : Half) : Half :=
  if !(h.trk.st = 0 || h.trk.st = 1 || h.trk.st = 7) then h else
  match h.limpConds with
  | none => h
  | some j =>
    let es := h.trk.phase.edges
    let hist := ((h.limpPeriods j).map (fun t => (roundFreeQ 5 (t * 256)).toNat)).take (max 2 (min h.trk.depth 4))
    let u : TUnit := { TUnit.seek h.trk.phaseInp with
      known := true, pos := j, accPos := (j, false), hasLast := true, lastAt := (es.headD (h.now, false)).1, hist := hist }
    let a := h.acqInp
    let h1 := ((h.armStart.restartSec a).trkMap (fun t => { t with
      st := 6, dir := { t.dir with read := t.dir.cmd, flip := if t.dir.read = t.dir.cmd then t.dir.flip else 0 }, src := u, rev := 0,
      alt := TUnit.seek a, phase := { t.phase with lost := 0 } }))
    let h2 := h1.srcMap h1.placed
    let gone := h.now - (es.headD (h.now, false)).1
    let h3 := h2.srcMap (fun u => { u with acc := (u.acc + gone * u.inc) % h2.accMod })
    h3.presentFresh.openPred h3.trk.src

/-- In LIMP the order of the features reads the direction, where no quadrature partner does (R122): the last K features fit the pattern
of the direction that is not commanded, and not the commanded one's. -/
def Half.limpTurned (h : Half) : Bool :=
  let fits (a : Bool) : Bool :=
    let fs := h.phaseDesc.feats a
    (List.range fs.length).any (limpFits h.trk.gateLo h.cycLen fs (max 3 h.phaseDesc.k) h.trk.phase.edges)
  h.trk.inLimp && trkCfg0DirSrc h.trk.cfg0 ≠ 2 && !fits h.trk.dir.cmd && fits (!h.trk.dir.cmd)

end Sys2Proof.Machine
end

