-- ==== Sys2Proof/Machine/Seek.lean ====
section
/-! DEFINITION. Acquisition of a crank wheel (R106, R107, R533): candidates, gap candidates, marker pairs, the position. -/

namespace Sys2Proof.Machine

open Sys2Proof

/-- The position of the tooth that ends a gap in a direction (R87). -/
def Wheel.gapEnd (w : Wheel) (ast : Bool) (g : Nat × Nat) : Nat :=
  if ast then (g.1 + w.teeth - 1) % max 1 w.teeth else (g.1 + g.2) % max 1 w.teeth

/-- The gap with a first missing position. -/
def Wheel.gapAt (w : Wheel) (first : Nat) : Nat × Nat := (w.gaps.find? (fun g => g.1 = first)).getD (first, 0)

/-- The tooth positions between a gap and the gap before it in a direction of travel (R89, R107). -/
def Wheel.runBefore (w : Wheel) (ast : Bool) (g : Nat × Nat) : Nat :=
  let back (p : Nat) : Nat := if ast then (p + 1) % max 1 w.teeth else (p + w.teeth - 1) % max 1 w.teeth
  let start := if ast then (g.1 + g.2) % max 1 w.teeth else back g.1
  let rec go : Nat → Nat → Nat → Nat
    | 0, _, n => n
    | f + 1, p, n => if w.missing p then n else go f (back p) (n + 1)
  go w.teeth start 0

/-- The gap and direction that a gap count and the run before it identify (R107). -/
def Wheel.identify (w : Wheel) (asts : List Bool) (m : Nat) (run : Option Nat) : Option ((Nat × Nat) × Bool) :=
  let single := w.gaps.length = 1
  match asts.flatMap (fun a => (w.gaps.filter (fun g => g.2 = m && (single || run = some (w.runBefore a g)))).map (fun g => (g, a))) with
  | [x] => some x
  | (g, a) :: rest => if single || rest.all (fun y => y.1 = g && y.2 = a) then some (g, a) else none
  | [] => none

/-- The gap count whose m + 1 lies nearest to a ratio, the smaller on a tie (R106). -/
def Wheel.nearestGap (w : Wheel) (r : Rat) : Nat :=
  let dist (m : Nat) : Rat := if r < (m + 1 : Nat) then (m + 1 : Nat) - r else r - (m + 1 : Nat)
  w.gaps.foldl (fun b g => if b = 0 || dist g.2 < dist b || (dist g.2 = dist b && g.2 < b) then g.2 else b) 0

/-- What one edge did in SEEK: the unit after it, a candidate that became NOISE, the class (R93), whether it was accepted,
the candidate a rebase was made with, the pitches travelled, a confirmed gap's edge, the position where it became known (first
missing position of its gap, direction, position), and a gap candidate that is dropped, a tooth after all. -/
structure Sought where
  u      : TUnit
  noise  : Option Nat
  cls    : Nat
  acc    : Bool
  rebase : Option Nat
  travel : Rat
  gap    : Option EdgeIn
  known  : Option (Nat × Bool × Nat)
  drop   : Option (Nat × EdgeIn)
deriving DecidableEq, Repr

/-- The normalised period of an interval over one pitch, in 1/256 et. -/
def per256 (int : Rat) : Nat := (roundFreeQ 5 (int * 256)).toNat

/-- On a wheel without gaps, what the first primary edge after a phase-input marker edge makes known (R107): direction and position. -/
def Wheel.afterMark (w : Wheel) (asts : List Bool) : Nat × Bool × Nat :=
  let ast := asts.headD false
  (0, ast, if ast then w.teeth - 1 else 0)

/-- One edge in SEEK, without a candidate held (R106, R107): `mk` says that a phase-input marker edge came since the last
primary edge of a wheel without gaps. -/
def seekPlain (w : Wheel) (lo : Rat) (depth : Nat) (asts : List Bool) (at_ : Nat) (lvl : Bool) (e : EdgeIn) (mk : Bool)
    (u : TUnit) : Sought :=
  let int : Rat := at_ - u.lastAt
  let keep := max 2 (min depth 4)
  let tooth (hist : List Nat) (run : Option Nat) (tr : Rat) : Sought :=
    let u1 : TUnit := { u with lastAt := at_, hist := hist.take keep, run := run, gapCand := none, cand := none, bad := 0 }
    ⟨u1, none, 0, true, none, tr, none, if w.gaps.isEmpty && mk then some (w.afterMark asts) else none, none⟩
  match u.gapCand with
  | some (ik, m, ge) =>
    let p := ik / (m + 1 : Nat)
    let r := if p = 0 then 0 else int / p
    if lo ≤ r && r ≤ 9 / 5 then
      let s := tooth (per256 int :: per256 p :: u.hist) (some 2) (m + 2 : Nat)
      match w.identify asts m u.run with
      | some (g, a) => { s with gap := some ge, known := some (g.1, a, (w.nextTooth a (w.gapEnd a g)).1) }
      | none => { s with gap := some ge }
    else { tooth [per256 int] (u.run.map (· + 2)) 2 with drop := some (u.lastAt.floor.toNat, ge) }
  | none =>
    match u.hist with
    | [] => tooth [per256 int] (u.run.map (· + 1)) 1
    | p :: _ =>
      let r := if p = 0 then 0 else int * 256 / p
      if r < lo then ⟨{ u with cand := some (at_, lvl) }, none, 5, false, none, 0, none, none, none⟩
      else
        let mmin := w.gaps.foldl (fun b g => if b = 0 then g.2 else min b g.2) 0
        if !w.gaps.isEmpty && u.hist.length ≥ 2 && (mmin + 2 : Nat) / (2 : Rat) ≤ r then
          ⟨{ u with lastAt := at_, gapCand := some (int, w.nearestGap r, e) }, none, 1, true, none, 0, none, none, none⟩
        else tooth (per256 int :: u.hist) (u.run.map (· + 1)) 1

/-- One edge in SEEK (R106, with the candidate rows of R95). At a rebase the first primary edge after the marker is the candidate, or the edge
itself where the marker came after the candidate (`mkC`, R107). -/
def seekStep (w : Wheel) (lo : Rat) (depth : Nat) (asts : List Bool) (at_ : Nat) (lvl : Bool) (e : EdgeIn) (mk mkC : Bool)
    (u : TUnit) : Sought :=
  match u.cand with
  | none => seekPlain w lo depth asts at_ lvl e mk u
  | some (c, _) =>
    let ic : Rat := c - u.lastAt
    let r : Rat := if ic = 0 then 0 else (at_ - c : Rat) / ic
    if 4 / 5 ≤ r && r ≤ 5 / 4 then
      ⟨{ u with lastAt := at_, hist := [per256 (at_ - c), per256 ic], cand := none, gapCand := none, run := u.run.map (· + 2), bad := 0 },
        none, 6, true, some c, 2, none,
        if w.gaps.isEmpty && mk then
          let (f, ast, p) := w.afterMark asts
          some (f, ast, if mkC then p else (w.nextTooth ast p).1)
        else none, none⟩
    else { seekPlain w lo depth asts at_ lvl e mk { u with cand := none } with noise := some c }

/-- A marker pair (R533): the edge waiting at `a` and the edge at `b`, against the interval before them. -/
def markerPair (w : Wheel) (lo : Rat) (a b : Nat) (u : TUnit) : Bool :=
  let ia : Rat := a - u.lastAt
  let ib : Rat := b - a
  let base : Rat := match u.gapCand with
    | some (ik, _, _) => ik
    | none => (u.hist.headD 0 : Rat) / 256
  0 < base && 0 < ia + ib && lo ≤ (ia + ib) / base && (ia + ib) / base ≤ 9 / 5 &&
    w.marks.any (fun x =>
      let f : Rat := (x.2 : Rat) / 256
      let q := ia / (ia + ib)
      f - 1 / 16 ≤ q && q ≤ f + 1 / 16)

/-- A unit's first edge: class START, the period history empty (R94). -/
def TUnit.start (at_ : Nat) (u : TUnit) : TUnit :=
  { TUnit.seek u.inp with hasLast := true, lastAt := at_, acc := u.acc, pos := u.pos, bad := u.bad }

end Sys2Proof.Machine
end

