-- ==== Sys2Proof/Machine/Tracker.lean ====
section
/-! DEFINITION. What the tracker does with an edge, with a gate that closes, and with a receiver that fails (R79 to R82,
R86, R93 to R123, R532 to R535). -/

namespace Sys2Proof.Machine

open Sys2Proof

/-- The quadrature level now (R115, R530). -/
def Half.quadLvl (h : Half) : Bool := (h.rcvOf h.trk.quadInp).tooth

/-- An edge becomes NOISE (R96): NOISE_REJECTED. -/
def Half.noiseAt (i : Inp) (at_ : Nat) (pol : Bool) (h : Half) : Half :=
  (h.raise 0x09 (h.inLoc i)).emit (.tooth i.ix.1 (BitVec.ofNat 32 at_) pol false 4 0)

/-- The source's candidate becomes NOISE; what fired while it was held carries CAND (R95, R184). -/
def Half.srcNoise (i : Inp) (pol : Bool) (h : Half) : Half :=
  match h.trk.src.cand with
  | none => h
  | some (c, _) =>
    let h1 := ((h.noiseAt i c pol).tagFired (tagBit 2) (·.cand)).srcMap (fun u => { u with cand := none })
    { h1 with fired := h1.fired.map (fun f => { f with cand := false }) }

/-! ### Checks at a gap (R78 to R81) -/

/-- A gap shows a reversed pair (R79). -/
def Half.gapReversed (h : Half) (i : Inp) (lead : Int) (e : EdgeIn) : Bool :=
  let r := h.rcvOf i
  if r.hall then e.gapHigh != wrxCfg0SigLead r.cfg0
  else (decide (lead < 0) != wrxCfg0SigLead r.cfg0) && (decide (e.exc < 0) != wrxCfg0SigTrail r.cfg0)

/-- A gap is decisive (R79). -/
def Half.gapDecisive (h : Half) (i : Inp) (lead : Int) (e : EdgeIn) : Bool :=
  (h.rcvOf i).hall || (lead.natAbs ≥ 100 && e.exc.natAbs ≥ 100)

/-- One test of the clipped signature on two lobes in mV (R78, R529). -/
def Half.clipTest (i : Inp) (a b : Nat) (h : Half) : Half :=
  let r := h.rcvOf i
  if r.hall || !wrxCfg1ShapeEn r.cfg1 || !h.rotation i then h
  else
    let hit := (a ≥ 3000 && b ≤ 1000) || (b ≥ 3000 && a ≤ 1000)
    h.revMap i (fun c => if hit then { c with clipRun := c.clipRun + 1, okRun := 0 } else { c with clipRun := 0, okRun := c.okRun + 1 })

/-- The clipped-signature test at a tooth of a wheel without gaps, on PK_POS and PK_NEG in units of 4 mV (R74, R78). -/
def Half.toothClip (i : Inp) (h : Half) : Half :=
  if (h.wheel i).gaps.isEmpty then h.clipTest i (4 * (h.rcvOf i).pkPos) (4 * (h.rcvOf i).pkNeg) else h

/-- The first edge of a rebase is accepted (R74, R78): its interval is tested as a tooth's, and the second edge's begins. -/
def Half.rebaseFirst (i : Inp) (c : Nat) (h : Half) : Half :=
  let p := pk4 (h.rcvOf i).lobeRun
  let h1 := if (h.wheel i).gaps.isEmpty then h.clipTest i (4 * p.1) (4 * p.2) else h
  h1.rcvMap i (fun r => { r.newRun true with accAt := (c :: r.accAt).take 16 })

/-- Both edges of a rebase are accepted; the second one's lobe gives V_PK (R57). -/
def Half.rebaseLobes (i : Inp) (e : EdgeIn) (c : Nat) (h : Half) : Half := (h.rebaseFirst i c).rcvMap i (Rcv.accept e h.now)

/-- FAILED is set (R82). -/
def Half.setFailed (i : Inp) (h : Half) : Half := h.revMap i (fun c => { c with failed := true, clearAt := none })

/-- The checks at a classified gap: reversed pair, contradicting gaps, clipped signature (R78, R79, R81). SHAPE that contradicting gaps
raise stands until the half is reset: the spec lets nothing clear it (log 106). A gap that is not decisive leaves a run of contradicting gaps
as it is (log 113). -/
def Half.gapChecks (i : Inp) (e : EdgeIn) (h : Half) : Half :=
  let lead := (h.revOf i).leadLobe
  let h1 := h.clipTest i lead.natAbs e.exc.natAbs
  if !h.revRuns i then h1 else
  let c := h1.revOf i
  let dec := h1.gapDecisive i lead e
  let rev := h1.gapReversed i lead e
  if c.decided then
    if !dec then h1
    else if !rev then h1.revMap i (fun c => { c with contra := 0 })
    else
      let h2 := h1.revMap i (fun c => { c with contra := c.contra + 1 })
      if c.contra + 1 ≥ 3 then h2.wiringEvents i (h2.rcvMap i (fun r => { r with wir := { r.wir with shape := true } })) else h2
  else if c.unavail then h1
  else if !dec then
    h1.revMap i (fun c => { c with tries := c.tries + 1, unavail := c.tries + 1 ≥ 4 })
  else
    let h2 := h1.wiringEvents i (h1.revMap i (fun c => { c with decided := true, reversed := rev }))
    if !rev then h2
    else if wrxCfg0RevPolicy (h2.rcvOf i).cfg0 then h2.setFailed i
    else h2.rcvMap i (fun r => { r with cfg0 := r.cfg0 ||| putB true 27, firstPend := true })

/-- The lobe of an edge is kept as the lead lobe of a gap that may follow (R79). -/
def Half.keepLobe (i : Inp) (e : EdgeIn) (h : Half) : Half := h.revMap i (fun c => { c with leadLobe := e.exc })

/-! ### The second crank unit (R113) -/

/-- The second unit goes back to SEEK; where a switch to it was pending the angle source is gone (R110, R113). -/
def Half.secSeek (h : Half) : Half :=
  let h1 := h.trkMap (fun t => { t with sec := TUnit.seek t.sec.inp, secSt := if t.secSt = 2 then 1 else t.secSt })
  if h.trk.swPend then h1.loseSync 7 else h1

/-- The cycle angles that the second unit's edge stands for: the end angle for either revolution (R102, R113). -/
def Half.secAngles (h : Half) : List Int :=
  let u := h.trk.sec
  let w := h.wheel (u.inp.getD .ckf)
  let a := h.angle40 u u.pos u.mark
  [endAngle h.cycLen w h.trk.dir.read a 0, endAngle h.cycLen w h.trk.dir.read a 1]

/-- Its reference arrives: LOCKED within SEC_WIN (R113). -/
def Half.secLock (h : Half) : Half :=
  if h.trk.secSt = 1 && h.trk.angleValid && !h.trk.inLimp &&
      h.secAngles.any (fun a => (wrapS h.cycLen (a - h.cyc)).natAbs * 10 ≤ trkCfg1SecWin h.trk.cfg1 * 65536) then
    (h.trkMap (fun t => { t with secSt := 2, sec := h.placed t.sec })).openPred h.trk.sec
  else h

/-- The accumulator of a wheel for a cycle angle in Q40 (R102, R119, R535): accumulator and revolution index. -/
def Half.express (h : Half) (w : Wheel) (cyc40 : Int) : Nat × Nat :=
  let len : Int := h.cycLen * 2 ^ 24
  let x := ((if h.trk.dir.read then cyc40 + w.cycOfs * 2 ^ 24 else cyc40 - w.cycOfs * 2 ^ 24) % len).toNat
  (x % rev40, if h.trk.dir.read then h.trk.rev else x / rev40)

/-- The cycle angle in Q40. -/
def Half.cyc40 (h : Half) : Int := h.cyc * 2 ^ 24 + (h.trk.src.acc % 2 ^ 24 : Nat)

/-- The second unit becomes the angle source at its accepted edge (R110, R122, R535): the accumulator re-expressed, then its correction. -/
def Half.takeOver (oldSec : TUnit) (oldSt : Nat) (h : Half) : Half :=
  let u := h.trk.sec
  let w := h.wheel (u.inp.getD .ckf)
  let (acc, rev) := h.express w h.cyc40
  let h1 := h.trkMap (fun t => { t with
    src := { u with acc := acc, refs := 0 }, rev := rev, sec := oldSec, secSt := oldSt, swPend := false })
  let m := h1.accMod
  let th := h1.angle40 u u.pos u.mark
  let diff := ((th : Int) - acc + m / 2) % m - m / 2
  (h1.correct diff false).openPred u

/-- Where a switch waits and the second unit is LOCKED, its accepted edge makes it the angle source (R110). A former source that has not
FAILED was left by class, and the switch stands until STOP (R463). -/
def Half.secSwitch (h : Half) : Half :=
  let old := h.trk.src
  if h.failed (old.inp.getD .ckd) then h.takeOver (TUnit.seek old.inp) 3
  else (h.takeOver old 2).trkMap (fun t => { t with swTo := t.src.inp })

/-! ### FAILED (R82, R110, R113) -/

/-- A loss of sync that LIMP ends at the same instant leaves the cylinders' cycles as they were: a cylinder commits at most once in one
(R175). -/
def Half.keepCycles (old h : Half) : Half :=
  if old.trk.angleValid && h.trk.inLimp then
    { h with cyls := Vector.ofFn (fun k => { h.cyls.get k with committed := (old.cyls.get k).committed, skip := (old.cyls.get k).skip }) }
  else h

/-- The tracker learns that an input is FAILED. -/
def Half.onFailed (i : Inp) (h : Half) : Half :=
  let t := h.trk
  let h1 :=
    if t.src.inp = some i && !t.inLimp then
      if t.st = 4 || t.st = 5 then
        if t.secSt = 2 && !t.swPend then (h.raise 0x0F (h.inLoc i)).toCheck.trkMap (fun t => { t with swPend := true })
        else if t.swPend then h else h.loseSync 7
      else if t.st = 1 then
        let a := h.acqInp
        (h.trkMap (fun t => { t with src := TUnit.seek a, dir := t.dir.rearm })).restartSec a
      else h
    else if t.sec.inp = some i && t.secSt ≠ 0 then
      (h.secSeek).trkMap (fun t => { t with secSt := if t.sec.inp = some i then 3 else t.secSt })
    else if t.alt.inp = some i then h.trkMap (fun t => { t with alt := TUnit.seek (some i) })
    else h
  Half.keepCycles h h1.dirCheck.tryLimp

/-! ### The angle source's edges -/

/-- The expected position of the primary edge after a marker (R107). -/
def Half.markPos (h : Half) (w : Wheel) : Nat := if h.trk.dir.read then w.teeth - 1 else 0

/-- A phase-input marker edge came after an instant, and not after another (R107). -/
def Half.markIn (h : Half) (t till : Rat) : Bool := h.trk.phase.edges.any (fun x => t < (x.1 : Rat) && (x.1 : Rat) ≤ till)

/-- An edge of the angle source that came at `till` is its reference (R109). -/
def Half.isRef (h : Half) (u : TUnit) (n : Nxt) (till : Rat) : Bool :=
  let w := h.wheel (u.inp.getD .ckd)
  !h.isPhase u && (if w.gaps.isEmpty then !n.mark && h.markIn u.lastAt till && n.pos = h.markPos w
    else n.gap && n.pos = w.gapEnd h.trk.dir.read (w.gapAt u.refPos))

/-- On a wheel without gaps the marker stands at another position than expected (R107, R110). -/
def Half.refMisplaced (h : Half) (u : TUnit) (n : Nxt) (till : Rat) : Bool :=
  let w := h.wheel (u.inp.getD .ckd)
  !h.isPhase u && w.gaps.isEmpty && !n.mark && h.markIn u.lastAt till && n.pos ≠ h.markPos w

/-- The class of an expected edge that is accepted (R93). -/
def Nxt.cls (n : Nxt) : Nat := if n.mark then 2 else if n.gap then 1 else 0

/-- The lobe checks at an accepted edge, and FAILED where they find it (R78, R79, R82). -/
def Half.lobeChecks (i : Inp) (e : EdgeIn) (n : Nxt) (h : Half) : Half :=
  let h1 := (if n.gap then h.gapChecks i e else h.toothClip i).keepLobe i e
  if h1.failed i && !h.failed i then h1.onFailed i else h1

/-- An event of an edge that sends the tracker to LOST, unless another event of that edge has changed its state (R112). -/
def Half.loseAt (st0 : Nat) (h : Half) : Half := if h.trk.st = st0 then h.loseSync 7 else h

/-- What follows the acceptance of an edge of the angle source, in the order of R112: travel of the direction span and the reading by
gap order, FAILED, a misplaced reference, the reference, speed; then SYNC and the window. `st0` is the state before the edge. -/
def Half.afterSrc (st0 : Nat) (i : Inp) (e : EdgeIn) (u : TUnit) (n : Nxt) (ran : Bool) (h : Half) : Half :=
  let at_ := h.trk.src.lastAt
  let ref := h.isRef u n at_
  let h1 := h.dirTravel n.span ref ran
  let (h2, con) := if ref && trkCfg0DirSrc h1.trk.cfg0 = 1 then h1.readDir h1.trk.dir.read else (h1, false)
  let h3 := (if con then h2.contrary else h2).lobeChecks i e n
  let h4 := if h.refMisplaced u n at_ then (h3.raise 0x0B (h.inLoc i)).loseAt st0
    else if ref && h3.trk.runs then h3.reference else h3
  ((h4.speedCheck (h4.trk.st = st0 || (st0 = 5 && h4.trk.st = 4)) st0 h.trk.src).trySync).openAfter i

/-- The class of an edge the source accepts: REBASE as one of a rebase's two, else as expected (R93). -/
def Nxt.clsOf (n : Nxt) (reb : Bool) : Nat := if reb then 6 else n.cls

/-- From an accepted edge on the tracker uses what TRACKER_SET has set (R436). -/
def Half.useSet (h : Half) : Half := h.trkMap (fun t => { t with held := none })

/-- The expected edge of the angle source is accepted (R95, R100). -/
def Half.srcAccept (reb : Bool) (st0 : Nat) (i : Inp) (e : EdgeIn) (ran : Bool) (h0 : Half) : Half :=
  let h := h0.useSet
  let u := h.trk.src
  let n := h.nextOf u
  let diff : Int := (h.spanTo u n : Int) - progOf (h.unitMod u) u.acc (h.angle40 u u.pos u.mark)
  let u1 : TUnit := { u with
    pos := n.pos, mark := n.mark, hasLast := true, lastAt := h.now,
    hist := pushHist h.trk.depth u.hist (h.now - u.lastAt) n.span, cand := none, bad := 0, accPos := (n.pos, n.mark) }
  let h1 := (h.srcMap (fun _ => u1)).correct diff false
  let h2 : Half := { (h1.rcvMap i (Rcv.accept e h.now)) with fired := [] }
  let h3 := h2.trkMap (fun t => { t with chkTravel := t.chkTravel + n.span * 360 / h.pitches u })
  (h3.emit (.tooth i.ix.1 h.ts e.pol false (n.clsOf reb) n.pos)).afterSrc st0 i e u n ran

/-- The direction read has changed at an edge (R532): both contrary edges are taken in the new direction, no slot becomes due. `reb` says
that the edge is one of a rebase's two: its class is REBASE, and R532 alone says what it stands for (log 113). -/
def Half.srcFlip (reb : Bool) (st0 : Nat) (i : Inp) (at_ : Nat) (e : EdgeIn) (ran : Bool) (h0 : Half) : Half :=
  let h := h0.useSet
  let d := h.trk.dir
  let u0 : TUnit := { h.trk.src with pos := d.prevPos.1, mark := d.prevPos.2, lastAt := (d.contraAt : Rat) }
  let n := h.nextOf u0
  let u1 : TUnit := { u0 with
    pos := n.pos, mark := n.mark, hasLast := true, lastAt := at_,
    hist := pushHist h.trk.depth [] (at_ - d.contraAt : Nat) n.span, cand := none, bad := 0, accPos := (n.pos, n.mark) }
  let h1 := (h.srcMap (fun _ => h.placed u1)).presentFresh
  let h2 : Half := { (h1.rcvMap i (Rcv.accept e at_)) with fired := [] }
  let h3 := (h2.emit (.tooth i.ix.1 (BitVec.ofNat 32 at_) e.pol false (n.clsOf reb) n.pos)).restartSec h2.trk.src.inp
  h3.afterSrc st0 i e u0 n ran

/-- In LIMP the order of the features has read the direction that is not commanded (R116, R122). -/
def Half.turned (turn : Bool) (h : Half) : Half :=
  if turn then h.trkMap (fun t => { t with dir := { t.dir with read := !t.dir.cmd, seen := true } }) else h

/-- The last edges accepted of an angle source that the same edge ends (R110, R112, R127): POS and the run of bad teeth follow them, their
lobes and windows too, and their other events only count. -/
def Half.srcLast (st0 : Nat) (i : Inp) (e : EdgeIn) (n : Nxt) (v : TUnit) (mis : Bool) (h : Half) : Half :=
  let h1 := (h.srcMap (fun u => { u with pos := n.pos, mark := n.mark, bad := 0 })).lobeChecks i e n
  let h2 := if mis then h1.raise 0x0B (h.inLoc i) else h1
  (h2.speedCheck false st0 v).openAfter i

/-- The expected edge arrives within the gate: the direction is read first (R112, R115, R532). `st0` is the state before the edge; where
the reading, or the order of the features in LIMP (`turn`), ends in LOST, the edge's other events only count. -/
def Half.srcWithin (turn reb : Bool) (st0 : Nat) (i : Inp) (e : EdgeIn) (h : Half) : Half :=
  let u := h.trk.src
  let n := h.nextOf u
  let ran := h.trk.dir.running
  let (h1, con, flip) := (h.turned turn).quadRead h.quadLvl u.accPos h.now
  let h2 := if con || turn then h1.contrary else h1
  if !h2.trk.runs then
    ((h2.rcvMap i (Rcv.accept e h.now)).emit (.tooth i.ix.1 h.ts e.pol false (n.clsOf reb) n.pos)).srcLast st0 i e n
      { u with hist := pushHist h.trk.depth u.hist (h.now - u.lastAt) n.span } (h.refMisplaced u n h.now)
  else if flip && !h2.trk.inLimp then h2.srcFlip reb st0 i h.now e ran else h2.srcAccept reb st0 i e ran

/-- The rows of R95 without a candidate. -/
def Half.srcGate (turn : Bool) (i : Inp) (e : EdgeIn) (h : Half) : Half :=
  let u := h.trk.src
  let below : Bool := match h.predInt u with
    | some d => decide ((h.now : Rat) - u.lastAt < h.trk.gateLo * d)
    | none => false
  if below then
    let h1 := (h.srcMap (fun u => { u with cand := some (h.now, h.quadLvl) })).emit (.tooth i.ix.1 h.ts e.pol false 5 u.pos)
    if turn then (h1.turned true).contrary else h1
  else h.srcWithin turn false h.trk.st i e

/-- In GAP_FOUND and PHASE a rebase restarts the counts toward R109 items 1 and 2 (R110). -/
def Half.recountRefs (st0 : Nat) (h : Half) : Half :=
  if h.trk.st = st0 && (st0 = 2 || st0 = 3) then
    h.trkMap (fun t => { t with src := { t.src with refs := 0 }, phase := { t.phase with agree := 0 } })
  else h

/-- A rebase (R98, R101, R110), its events in the order of R112. -/
def Half.srcRebase (turn : Bool) (i : Inp) (e : EdgeIn) (c : Nat) (clvl : Bool) (h0 : Half) : Half :=
  let h := h0.useSet
  let u := h.trk.src
  let n1 := h.nextOf u
  let um : TUnit := { u with pos := n1.pos, mark := n1.mark, lastAt := c }
  let n2 := h.nextOf um
  let st0 := h.trk.st
  let ran := h.trk.dir.running
  let hist := pushHist h.trk.depth (pushHist h.trk.depth [] (c - u.lastAt) n1.span) (h.now - c) n2.span
  let v : TUnit := { u with hist := hist }
  let log (h : Half) : Half := (h.emit (.tooth i.ix.1 (BitVec.ofNat 32 c) e.pol false 6 n1.pos)).emit (.tooth i.ix.1 h.ts e.pol false 6 n2.pos)
  let take (h : Half) : Half := h.rebaseLobes i e c
  let mis := h.refMisplaced u n1 c || h.refMisplaced um n2 h.now
  let ref := h.isRef u n1 c || h.isRef um n2 h.now
  let h1 := (((h.turned turn).raise 0x0A (h.inLoc i)).tagFired (tagBit 1) (·.cand)).trkMap (fun t => { t with accelImpl := true })
  let (h2, con1, flip1) := h1.quadRead clvl u.accPos c
  let (h3, con2, flip2) := if flip1 then (h2, false, false) else h2.quadRead h.quadLvl (n1.pos, n1.mark) h.now
  let (h3g, con3) := if ref && trkCfg0DirSrc h.trk.cfg0 = 1 then h3.readDir h3.trk.dir.read else (h3, false)
  let h4 := if con1 || con2 || con3 || turn then h3g.contrary else h3g
  if !h4.trk.runs then (log (take h4)).srcLast st0 i e n2 v mis else
  if flip1 && !h4.trk.inLimp then ((h4.recountRefs st0).srcFlip true st0 i c e ran).srcWithin false true st0 i e else
  if flip2 && !h4.trk.inLimp then
    (((h4.recountRefs st0).emit (.tooth i.ix.1 (BitVec.ofNat 32 c) e.pol false 6 h4.trk.dir.prevPos.1)).rebaseFirst i c).srcFlip true st0 i h.now e ran
  else if h4.trk.st = st0 && (mis || st0 = 5) then
    ((log (take h4)).srcMap (fun x => { x with pos := n2.pos, mark := n2.mark })).loseSync 7 |>.srcLast st0 i e n2 v mis
  else
  let h4m := if mis then h4.raise 0x0B (h.inLoc i) else h4
  let h5 := (if h4m.trk.st = 4 then h4m.toCheck else h4m.recountRefs st0).srcMap (fun x => { x with refs := x.refs + bit ref })
  let diff : Int := (h.spanTo u n1 + h.spanTo um n2 : Nat) - progOf (h.unitMod u) h5.trk.src.acc (h.angle40 u u.pos u.mark)
  let h6 := (h5.srcMap (fun x => { x with
    pos := n2.pos, mark := n2.mark, accPos := (n2.pos, n2.mark), hasLast := true, lastAt := h.now, hist := hist, cand := none,
    bad := 0 })).correct diff true
  let h7 : Half := { take h6 with fired := [] }
  let h8 := ((log h7).dirTravel (n1.span + n2.span) ref ran).toothClip i
  ((h8.speedCheck (h8.trk.st = st0) st0 v).keepLobe i e).openAfter i

/-- An edge of the angle source where its position is known (R95); `turn` says that the order of the features in LIMP turns with it. -/
def Half.srcKnown (turn : Bool) (i : Inp) (e : EdgeIn) (h : Half) : Half :=
  let u := h.trk.src
  match u.cand with
  | none => h.srcGate turn i e
  | some (c, l) =>
    let ic : Rat := c - u.lastAt
    let r : Rat := if ic = 0 then 0 else ((h.now : Rat) - c) / ic
    if 4 / 5 ≤ r && r ≤ 5 / 4 then
      if (h.nextOf u).gap then
        (((h.srcNoise i e.pol).noiseAt i h.now e.pol).raise 0x0B (h.inLoc i)).loseSync 7
      else h.srcRebase turn i e c l
    else (h.srcNoise i e.pol).srcGate turn i e

/-- The wheel position of the angle source becomes known (R107, R110) at an edge. Where that edge gave the first contrary quadrature reading,
the position before it is what R532 goes back to. -/
def Half.srcFound (first : Nat) (ast : Bool) (pos at_ : Nat) (h : Half) : Half :=
  let x := (h.wheel (h.trk.src.inp.getD .ckd)).next (!ast) pos false
  let two := h.cycLen = 360 * deg
  let (h0, con) := if trkCfg0DirSrc h.trk.cfg0 = 1 then h.readDir ast else (h, false)
  let h1 := if con then h0.contrary else h0
  let h2 := h1.trkMap (fun t => { t with
    st := if two then 3 else 2, rev := 0, phase := { t.phase with agree := 0, other := 0, lost := 0 },
    src := { t.src with known := true, pos := pos, mark := false, accPos := (pos, false), refPos := first, refs := 1, run := none, gapCand := none, bad := 0 } })
  let h3 := (h2.srcMap h2.placed).trkMap (fun t => { t with dir := { t.dir with
    prevPos := if t.dir.flip = 1 && t.dir.contraAt = at_ then (x.pos, x.mark) else t.dir.prevPos } })
  let h4 := if two then h3.presentFresh else h3
  h4.openPred h4.trk.src

/-- What an edge in SEEK leaves on its receiver and in the logs (R57, R93, R95, R96): a candidate that became NOISE or REBASE, a gap
candidate that is a tooth after all, the edge itself, its lobe where it is accepted. A candidate opens no window: the one before it, which
it found ended, stands (log 113). -/
def Half.seekLog (i : Inp) (at_ : Nat) (e : EdgeIn) (s : Sought) (h : Half) : Half :=
  let h1 := match s.noise with | some c => h.noiseAt i c e.pol | none => h
  let h2 := match s.rebase with
    | some c => ((h1.raise 0x0A (h.inLoc i)).trkMap (fun t => { t with accelImpl := true })).emit
        (.tooth i.ix.1 (BitVec.ofNat 32 c) e.pol false 6 0)
    | none => h1
  let h3 := match s.drop with
    | some (t, ge) => h2.emit (.tooth i.ix.1 (BitVec.ofNat 32 t) ge.pol false 0 0)
    | none => h2
  let h4 := h3.emit (.tooth i.ix.1 (BitVec.ofNat 32 at_) e.pol false s.cls 0)
  match s.acc, s.rebase with
  | true, some c => h4.rebaseLobes i e c
  | true, none => h4.rcvMap i (Rcv.accept e at_)
  | false, _ => if s.cls = 5 && at_ = h.now then h4.rcvMap i (fun r => { r with blankEnd := min r.blankEnd h.now }) else h4

/-- The lobe checks at an edge accepted in SEEK: a confirmed gap's, or a tooth's (R78, R79). -/
def Half.seekChecks (i : Inp) (e : EdgeIn) (s : Sought) (h : Half) : Half :=
  let h1 := match s.gap with | some ge => h.gapChecks i ge | none => h.toothClip i
  if s.u.gapCand.isSome then h1 else h1.keepLobe i e

/-- The step of SEEK at an edge of a unit (R106, R107). -/
def Half.seekOf (h : Half) (i : Inp) (u : TUnit) (asts : List Bool) (at_ : Nat) (lvl : Bool) (e : EdgeIn) : Sought :=
  seekStep (h.wheel i) h.trk.gateLo h.trk.depth asts at_ lvl e (h.markIn u.lastAt at_) (u.cand.any (fun c => h.markIn c.1 at_)) u

/-- One edge in SEEK on the angle source, decided at an instant (R106, R107, R110): an accepted edge's quadrature reading comes first, a
rebase's candidate's before it (R115), and where the direction read changes the history restarts with the interval between the two contrary
edges (R532) and the second unit starts anew (R113). -/
def Half.srcSeek1 (i : Inp) (at_ : Nat) (lvl : Bool) (e : EdgeIn) (h : Half) : Half :=
  let u := h.trk.src
  let step (g : Half) : Sought := h.seekOf i u (if trkCfg0DirSrc h.trk.cfg0 = 1 then [false, true] else [g.trk.dir.read]) at_ lvl e
  let s0 := step h
  let c := s0.rebase.getD 0
  let (g0, con0, flip0) := match s0.rebase, u.cand with
    | some c, some (_, l) => h.quadRead l (0, false) c
    | _, _ => (h, false, false)
  let (g, con, flip) := if s0.acc then g0.quadRead lvl (0, false) at_ else (g0, false, false)
  let s := step g
  let v : TUnit :=
    if flip then { s.u with hist := [per256 (at_ - g.trk.dir.contraAt : Nat)], run := none, gapCand := none }
    else if flip0 then { s.u with hist := [per256 (at_ - c : Nat), per256 (c - g0.trk.dir.contraAt : Nat)], run := none, gapCand := none }
    else s.u
  let g1 := if flip || flip0 then g.restartSec (some i) else g
  let h1 := ((if s.acc then g1.useSet else g1).srcMap (fun _ => v)).seekLog i at_ e s
  if !s.acc then h1 else
  let h2 := ((if con || con0 then h1.contrary else h1).dirTravel s.travel s.known.isSome h.trk.dir.running).seekChecks i e s
  let h3 := if h2.failed i && !h.failed i then h2.onFailed i else
    match s.known with
    | some (f, a, p) => h2.srcFound f a p at_
    | none => h2
  h3.speedCheck true h3.trk.st h3.trk.src

/-- The first edge of a marker pair in SEEK (R533): class MARK, with its quadrature reading (R115). -/
def Half.seekMark (i : Inp) (a : Nat) (lvl : Bool) (e : EdgeIn) (h : Half) : Half :=
  let (h1, con, flip) := h.quadRead lvl (0, false) a
  let h2 := if con then h1.contrary else h1
  let h3 := if flip then (h2.srcMap (fun u => { u with hist := [], run := none, gapCand := none })).restartSec (some i) else h2
  (h3.emit (.tooth i.ix.1 (BitVec.ofNat 32 a) e.pol false 2 0)).rcvMap i (Rcv.accept e a)

/-- An edge is START (R94): nothing but the beginning of a period and of an interval (R57, R74). -/
def Half.logStart (i : Inp) (e : EdgeIn) (first : Bool) (h : Half) : Half :=
  (h.rcvMap i (Rcv.newRun false)).emit (.tooth i.ix.1 h.ts e.pol first 7 0)

/-- The window a gap candidate opens runs over one pitch of the gap, which R106 expects next (R62, R530, log 107). -/
def Half.seekBlank (i : Inp) (h : Half) : Half :=
  match h.trk.src.inp, h.trk.src.gapCand with
  | some j, some (ik, m, _) => if i = j && h.trk.st = 1 then h.openBlank i h.now (ik / (m + 1 : Nat)) else h
  | _, _ => h

/-- Acquisition begins (R86, R94, R110): SEEK; the edge is START, on the angle source or on another wheel, where a second unit on that wheel
begins its period with it. POS and BAD_RUN stand until an edge is accepted (R97, R127). -/
def Half.startSeek (i : Inp) (e : EdgeIn) (first : Bool) (h : Half) : Half :=
  let a := h.acqInp
  let h1 := (h.armStart.trkMap (fun t => { t with
    st := 1, src := { TUnit.seek a with pos := t.src.pos, bad := t.src.bad }, dir := t.dir.rearm })).restartSec a
  if a = some i then (h1.srcMap (TUnit.start h.now)).logStart i e first
  else if h1.trk.sec.inp = some i then (h1.secMap (TUnit.start h.now)).logStart i e first
  else h1.logStart i e first

/-- An edge in SEEK on the angle source (R106, R533). Where the edge that waited has ended the search, the newest one is taken in the state
that it left: known, or START out of LOST, and out of STOP on the wheel of acquisition (R94, R110). -/
def Half.srcSeek (i : Inp) (e : EdgeIn) (h : Half) : Half :=
  let u := h.trk.src
  let w := h.wheel i
  if !u.hasLast then
    (h.srcMap (TUnit.start h.now)).logStart i e false
  else if w.marks.isEmpty then (h.srcSeek1 i h.now h.quadLvl e).seekBlank i
  else match u.pend with
    | none => h.srcMap (fun u => { u with pend := some (h.now, h.quadLvl, e) })
    | some (a, la, ea) =>
      let h1 := h.srcMap (fun u => { u with pend := none })
      if markerPair w h.trk.gateLo a h.now u then ((h1.seekMark i a la ea).srcSeek1 i h.now h.quadLvl e).seekBlank i
      else
        let h2 := (h1.srcSeek1 i a la ea).seekBlank i
        if h2.trk.st = 1 then
          if h2.trk.src.inp = some i && h2.trk.src.hasLast then h2.srcMap (fun u => { u with pend := some (h.now, h.quadLvl, e) }) else h2
        else if h2.trk.runs then h2.srcKnown false i e
        else if h2.failed i || (h2.trk.st = 0 && h2.acqInp ≠ some i) then h2
        else h2.startSeek i e false

/-! ### The second unit's edges -/

/-- The crank wheel sought in LIMP has a known position (R110): the angle source again, or LOST. -/
def Half.limpCompare (i : Inp) (h : Half) : Half :=
  if h.secAngles.any (fun a => (wrapS h.cycLen (a - h.cyc)).natAbs ≤ 2 * 65536) then
    let u := h.trk.sec
    let h1 := h.toCheck
    let lim := h.cyc40
    let w := h.wheel i
    let (acc, rev) := h.express w lim
    let h2 := h1.trkMap (fun t => { t with src := { u with acc := acc, refs := 0 }, rev := rev })
    let m := h2.accMod
    let th := h2.angle40 u u.pos u.mark
    let diff := ((th : Int) - acc + m / 2) % m - m / 2
    ((h2.restartSec (some i)).correct diff false).openPred u
  else (h.raise 0x10 (h.inLoc i)).loseSync 7

/-- The second unit's reference, or in LIMP any known position, has its consequence. -/
def Half.secRef (i : Inp) (h : Half) : Half := if h.trk.inLimp then h.limpCompare i else h.secLock

/-- One edge of the second unit in SEEK without a position (R106, R113). -/
def Half.secSeek1 (i : Inp) (at_ : Nat) (lvl : Bool) (e : EdgeIn) (h : Half) : Half :=
  let u := h.trk.sec
  let s := h.seekOf i u [h.trk.dir.read] at_ lvl e
  let h1 := (h.secMap (fun _ => s.u)).seekLog i at_ e s
  if !s.acc then h1 else
  let h5 := h1.seekChecks i e s
  let h6 := match s.u.gapCand with
    | some (ik, m, _) => h5.openBlank i at_ (ik / (m + 1 : Nat))
    | none => h5
  match s.known with
  | some (f, _, p) =>
    let h7 := h6.secMap (fun u => { u with known := true, pos := p, mark := false, accPos := (p, false), refPos := f, refs := 1, run := none, gapCand := none, bad := 0 })
    (h7.secMap h7.placed).secRef i
  | none => h6

/-- What follows an edge that the second unit accepts: its window, a waiting switch (R110), its reference. -/
def Half.secTail (i : Inp) (ref : Bool) (h : Half) : Half :=
  let h1 := if h.trk.secSt = 2 then h.openPred h.trk.sec else h
  if h1.trk.swPend && h1.trk.secSt = 2 then h1.secSwitch
  else if ref || h1.trk.inLimp then h1.secRef i else h1

/-- The second unit accepts its expected edge (R100, R113); where a switch waits it becomes the angle source (R110). -/
def Half.secAccept (i : Inp) (e : EdgeIn) (h : Half) : Half :=
  let u := h.trk.sec
  let n := h.nextOf u
  let tr := h.spanTo u n
  let diff : Int := (tr : Int) - progOf rev40 u.acc (h.angle40 u u.pos u.mark)
  let u1 : TUnit := { u with
    pos := n.pos, mark := n.mark, hasLast := true, lastAt := h.now,
    hist := pushHist h.trk.depth u.hist (h.now - u.lastAt) n.span, cand := none, bad := 0, accPos := (n.pos, n.mark),
    acc := if h.trk.secSt = 2 then (u.acc + diff.toNat) % rev40 else h.angle40 u n.pos n.mark % rev40 }
  let left : Int := (h.spanTo u1 (h.nextOf u1) : Int) + (if h.trk.secSt = 2 then min diff 0 else 0)
  let u2 : TUnit := { u1 with inc := incOf left (h.predInt u1) }
  let ref := h.isRef u n h.now
  let h1 := ((h.secMap (fun _ => u2)).rcvMap i (Rcv.accept e h.now)).emit
    (.tooth i.ix.1 h.ts e.pol false n.cls n.pos)
  if h.refMisplaced u n h.now then (h1.raise 0x0B (h.inLoc i)).secSeek else
  let h2 := if n.gap then h1.gapChecks i e else h1.toothClip i
  (h2.keepLobe i e).secTail i ref

/-- The second unit makes a rebase (R98, R113). -/
def Half.secRebase (i : Inp) (e : EdgeIn) (c : Nat) (h : Half) : Half :=
  let u := h.trk.sec
  let n1 := h.nextOf u
  let um : TUnit := { u with pos := n1.pos, mark := n1.mark, lastAt := c }
  let n2 := h.nextOf um
  let u1 : TUnit := { um with
    pos := n2.pos, mark := n2.mark, accPos := (n2.pos, n2.mark), lastAt := h.now, cand := none, bad := 0,
    hist := pushHist h.trk.depth (pushHist h.trk.depth [] (c - u.lastAt) n1.span) (h.now - c) n2.span }
  let h1 := (h.raise 0x0A (h.inLoc i)).trkMap (fun t => { t with sec := h.placed u1, accelImpl := true })
  let h2 := ((h1.rebaseLobes i e c).toothClip i).emit (.tooth i.ix.1 (BitVec.ofNat 32 c) e.pol false 6 n1.pos)
  let h3 := (h2.emit (.tooth i.ix.1 h.ts e.pol false 6 n2.pos)).keepLobe i e
  if h.refMisplaced u n1 c || h.refMisplaced um n2 h.now then (h3.raise 0x0B (h.inLoc i)).secSeek
  else h3.secTail i (h.isRef u n1 c || h.isRef um n2 h.now)

/-- The rows of R95 without a candidate on the second unit. -/
def Half.secGate (i : Inp) (e : EdgeIn) (h : Half) : Half :=
  let u := h.trk.sec
  let below : Bool := match h.predInt u with
    | some d => decide ((h.now : Rat) - u.lastAt < h.trk.gateLo * d)
    | none => false
  if below then
    (h.secMap (fun u => { u with cand := some (h.now, false) })).emit (.tooth i.ix.1 h.ts e.pol false 5 u.pos)
  else h.secAccept i e

/-- An edge on the second crank wheel (R113). -/
def Half.secEdge (i : Inp) (e : EdgeIn) (first : Bool) (h : Half) : Half :=
  let u := h.trk.sec
  if first || !u.hasLast then
    let h1 := if first && h.trk.secSt = 2 then h.secSeek else h
    (h1.secMap (TUnit.start h.now)).logStart i e first
  else if u.known then
    match u.cand with
    | none => h.secGate i e
    | some (c, _) =>
      let ic : Rat := c - u.lastAt
      let r : Rat := if ic = 0 then 0 else ((h.now : Rat) - c) / ic
      if 4 / 5 ≤ r && r ≤ 5 / 4 then
        if (h.nextOf u).gap then
          (((h.noiseAt i c e.pol).noiseAt i h.now e.pol).raise 0x0B (h.inLoc i)).secSeek
        else h.secRebase i e c
      else ((h.noiseAt i c e.pol).secMap (fun u => { u with cand := none })).secGate i e
  else if (h.wheel i).marks.isEmpty then h.secSeek1 i h.now false e
  else match u.pend with
    | none => h.secMap (fun u => { u with pend := some (h.now, false, e) })
    | some (a, la, ea) =>
      let h1 := h.secMap (fun u => { u with pend := none })
      if markerPair (h.wheel i) h.trk.gateLo a h.now u then
        ((h1.emit (.tooth i.ix.1 (BitVec.ofNat 32 a) ea.pol false 2 0)).rcvMap i (Rcv.accept ea a)).secSeek1 i h.now false e
      else
        let h2 := h1.secSeek1 i a la ea
        if h2.trk.sec.inp = some i then
          if h2.trk.sec.known then h2.secGate i e
          else if h2.trk.sec.hasLast then h2.secMap (fun u => { u with pend := some (h.now, false, e) })
          else (h2.secMap (TUnit.start h.now)).logStart i e false
        else if h2.trk.src.inp = some i && h2.trk.runs then h2.srcKnown false i e
        else if h2.trk.st = 7 then h2.startSeek i e false else h2

/-- An edge in LIMP on the wheel of acquisition, sought beside the second unit (R110, R122): taken as a second unit's. -/
def Half.altEdge (i : Inp) (e : EdgeIn) (first : Bool) (h : Half) : Half :=
  let swap (h : Half) : Half := h.trkMap (fun t => { t with sec := t.alt, alt := t.sec })
  let h1 := (swap h).secEdge i e first
  if h1.trk.inLimp then swap h1 else h1

/-! ### Dispatch of a qualified edge -/

/-- In LIMP a crank wheel has a unit that seeks it (R113, R122), or gets one, where the wheel sought beside the second unit's is gone. -/
def Half.limpSeeks (h : Half) (i : Inp) : Bool :=
  h.trk.sec.inp = some i || h.trk.alt.inp = some i || !h.trk.alt.inp.any (fun j => !h.crankGone j)

/-- An edge on a crank wheel that the tracker takes (R68, R110). -/
def Half.crankEdge (i : Inp) (e : EdgeIn) (first : Bool) (h0 : Half) : Half :=
  let h := h0.trkMap (fun t => { t with crankAt := h0.now })
  match h.trk.st with
  | 0 => if h.acqInp = some i then h.startSeek i e first else h.secEdge i e first
  | 7 => h.startSeek i e first
  | 6 => if h.trk.sec.inp = some i then h.secEdge i e first
         else if h.trk.alt.inp = some i then h.altEdge i e first
         else (h.trkMap (fun t => { t with alt := TUnit.seek (some i) })).altEdge i e first
  | n =>
    if h.trk.src.inp = some i then
      if first && n ≠ 1 then (h.loseSync 7).startSeek i e first
      else if first then (h.srcMap (TUnit.start h.now)).logStart i e true
      else if n = 1 then h.srcSeek i e else h.srcKnown false i e
    else h.secEdge i e first

/-- The features within CAM_WIN of a cycle angle with matching polarity (R108). -/
def Half.camNear (h : Half) (ast : Bool) (c : Int) (pol : Bool) : Bool :=
  (h.phaseDesc.feats ast).any (fun f => f.2 = pol && (wrapS h.cycLen (c - f.1)).natAbs * 10 ≤ trkCfg1CamWin h.trk.cfg1 * 65536)

/-- The feature nearest to a cycle angle, of a polarity where one is asked for. -/
def Half.nearFeat (h : Half) (c : Int) (pol : Option Bool) : Option Nat :=
  let fs := h.phaseDesc.feats h.trk.dir.read
  let dist (j : Nat) : Nat := (wrapS h.cycLen (c - (fs.getD j (0, false)).1)).natAbs
  (List.range fs.length).foldl (fun b j =>
    if pol.any (· ≠ (fs.getD j (0, false)).2) then b
    else match b with
      | some k => if dist j < dist k then some j else b
      | none => some j) none

/-- A cam feature was accepted (R57); with a cycle phase its window runs to the next expected feature (R530). The phase unit predicts
that interval, outside LIMP, as the angle left over the angle source's INC (log 106); where INC is 0 it has none, and the window is
BLANK_MIN. -/
def Half.camAccept (i : Inp) (e : EdgeIn) (h : Half) : Half :=
  let h1 := (h.rcvMap i (Rcv.accept e h.now)).toothClip i
  if !h1.trk.angleValid then h1.openBlankSeek i else if h1.trk.src.inc = 0 then h1.openBlank i h1.now 0 else
  let fs := h1.phaseDesc.feats h1.trk.dir.read
  match h1.nearFeat h1.cyc (some e.pol) with
  | none => h1.openBlank i h1.now 0
  | some j =>
    let left := featSpan h1.cycLen fs j - wrapS h1.cycLen (h1.cyc - (fs.getD j (0, false)).1)
    h1.openBlank i h1.now ((max left 0 * 2 ^ 24 : Int) / (h1.trk.src.inc : Rat))

/-- The direction by cam pattern (R115, R534): none when the edge matches neither pattern. Both patterns are held against the cycle angle in
the direction now read, that direction's first (log 113). -/
def Half.camDir (h : Half) (angles : List Int) (pol : Bool) : Option Bool :=
  let r := h.trk.dir.read
  if angles.any (fun a => h.camNear r a pol) then some r
  else if angles.any (fun a => h.camNear (!r) a pol) then some (!r) else none

/-- A cam edge while the wheel position is known (R108, R110, R115). On a two-stroke engine r is always 0 and the cycle phase needs no
feature: one outside its window raises CAM_MISMATCH and changes no state (log 106). -/
def Half.camEdge (i : Inp) (e : EdgeIn) (h : Half) : Half :=
  let u := h.trk.src
  let w := h.wheel (u.inp.getD .ckd)
  let four := h.cycLen = 720 * deg
  let ang (r : Nat) : Int := endAngle h.cycLen w h.trk.dir.read u.acc r
  let angles := if four then [ang 0, ang 1] else [ang 0]
  let st0 := h.trk.st
  let (h1, con) := if trkCfg0DirSrc h.trk.cfg0 ≠ 0 then (h, false) else
    match h.camDir angles e.pol with
    | some r => h.readDir r
    | none => (h, false)
  let h2 := if con then h1.contrary else h1
  let hit0 := h.camNear h.trk.dir.read (ang 0) e.pol
  let hit1 := four && h.camNear h.trk.dir.read (ang 1) e.pol
  let mism (h : Half) : Half := h.raise 0x0C (h.inLoc i)
  if !four then
    (if hit0 then h2.camAccept i e else if (h.phaseDesc.feats h.trk.dir.read).isEmpty then h2 else mism h2) else
  if st0 = 2 then
    if hit0 && hit1 then h2
    else if !hit0 && !hit1 then mism h2
    else if h2.trk.st ≠ 2 then h2
    else
      let h3 := h2.trkMap (fun t => { t with
        st := 3, rev := if hit1 then 1 else 0, phase := { t.phase with agree := 1, other := 0 } })
      (h3.presentFresh).camAccept i e
  else
    let own := if h.trk.rev = 0 then hit0 else hit1
    let oth := if h.trk.rev = 0 then hit1 else hit0
    if own then
      ((h2.trkMap (fun t => { t with phase := { t.phase with agree := t.phase.agree + 1, other := 0 } })).camAccept i e).trySync
    else
      let h3 := mism (h2.trkMap (fun t => { t with phase := { t.phase with agree := t.phase.agree, other := if oth then t.phase.other + 1 else 0 } }))
      if h3.trk.st ≠ st0 then h3
      else if st0 = 3 then (h3.trkMap (fun t => { t with st := 2, phase := { t.phase with agree := 0, other := 0 } })).newCycles
      else if h3.trk.phase.other ≥ 3 then h3.loseSync 7 else h3

/-- An edge on the phase input (R107, R108, R121, R122). An edge with FIRST is no feature and no marker (R70, R94): it only starts the
period. Outside LIMP an edge accepted as a feature or marker is classed TOOTH; the class of another one is free (log 106). -/
def Half.phaseEdge (i : Inp) (e : EdgeIn) (first : Bool) (h0 : Half) : Half :=
  if first then
    let h := (h0.trkMap (fun t => { t with phase := { t.phase with edges := [] } })).logStart i e true
    if h.trk.inLimp then h.srcMap (fun u => { u with hist := [], hasLast := true, lastAt := h.now, cand := none }) else h
  else
  let keep := 2 * max 3 h0.phaseDesc.k + 2
  let h := h0.trkMap (fun t => { t with phase := { t.phase with
    edges := ((h0.now, e.pol) :: t.phase.edges).take keep,
    lost := if t.st = 1 || t.st = 7 then t.phase.lost + 1 else t.phase.lost } })
  if h.trk.inLimp then
    h.srcKnown h.limpTurned i e
  else
    let w := h.wheel (h.trk.src.inp.getD .ckd)
    let h1 := if h.trk.runs then h.camEdge i e else h
    let h2 := if w.present && w.gaps.isEmpty && !h1.trk.runs then (h1.rcvMap i (Rcv.accept e h.now)).toothClip i else h1
    let taken := (h2.rcvOf i).accAt.head? = some h.now
    (h2.emit (.tooth i.ix.1 h.ts e.pol false (if taken then 0 else Config.freeNat 1 h.now % 8) 0)).tryLimp

/-- The tracker uses an input: it takes the edge latch (R68, R113, R115). The spec gives no way into the diagnostic hold that R68 names,
and the model has none (log 106). -/
def Half.uses (h : Half) (i : Inp) : Bool :=
  let t := h.trk
  let crank := (i = .ckd || i = .ckf) && (h.wheel i).present
  !h.failed i && h.enabled i &&
    ((crank && (t.src.inp = some i || t.sec.inp = some i || (t.st = 6 && h.limpSeeks i) || t.st = 7 || (t.st = 0 && h.acqInp = some i))) ||
      t.phaseInp = some i || (trkCfg0DirSrc t.cfg0 = 2 && t.quadInp = i))

/-! ### Gates (R95, R97) -/

/-- The angle source's gates close (R97): it runs with a known position, and is not a FAILED wheel that waits for its successor (R110). -/
def Half.srcGated (h : Half) : Bool :=
  h.trk.src.known && h.trk.runs && !(h.trk.swPend && h.failed (h.trk.src.inp.getD .ckd))

/-- The angle source's gate closes (R95, R97, R101, R110). The synthetic edge's period changes the speed, which R105 and R123 test. -/
def Half.srcGateClose (h : Half) : Half :=
  let u := h.trk.src
  match u.inp, h.predInt u, h.srcGated with
  | some i, some d, true =>
    let h1 := h.srcNoise i false
    let n := h1.nextOf u
    let at_ : Rat := u.lastAt + d
    let t := (predT h1.trk.depth u.hist).getD 0
    let u1 : TUnit := { h1.trk.src with
      pos := n.pos, mark := n.mark, lastAt := at_, hist := pushHist h1.trk.depth u.hist t 1, cand := none, bad := u.bad + 1 }
    let ran := h.trk.dir.running
    let h2 := ((h1.srcMap (fun _ => u1)).raise 0x08 (h.inLoc i)).tagFired (tagBit 0) (fun f => at_ ≤ (f.at_ : Rat))
    let h3 := ((h2.emit (.tooth i.ix.1 (BitVec.ofNat 32 at_.floor.toNat) false false 3 n.pos)).dirTravel n.span false ran).openPred u1
    if u1.bad ≥ 2 || h3.trk.st = 5 then h3.loseSync 7 else h3.speedCheck true h3.trk.st h3.trk.src
  | _, _, _ => h

/-- The second unit's gate closes (R97, R113). -/
def Half.secGateClose (h : Half) : Half :=
  let u := h.trk.sec
  match u.inp, h.predInt u, u.known with
  | some i, some d, true =>
    let h1 := match u.cand with | some (c, _) => h.noiseAt i c false | none => h
    let n := h.nextOf u
    let at_ : Rat := u.lastAt + d
    let t := (predT h.trk.depth u.hist).getD 0
    let u1 : TUnit := { u with
      pos := n.pos, mark := n.mark, lastAt := at_, hist := pushHist h.trk.depth u.hist t 1, cand := none, bad := u.bad + 1 }
    let h2 := ((h1.secMap (fun _ => u1)).raise 0x08 (h.inLoc i)).emit (.tooth i.ix.1 (BitVec.ofNat 32 at_.floor.toNat) false false 3 n.pos)
    if u1.bad ≥ 2 then h2.secSeek else if h2.trk.secSt = 2 then h2.openPred u1 else h2
  | _, _, _ => h

/-- The gates that have closed before now: a gate ends at ratio 1.8, at most `n` of each unit (R92, R95). -/
def Half.dueGates : Nat → Half → Half
  | 0, h => h
  | n + 1, h =>
    let late (u : TUnit) : Bool := u.known && (h.gateEnd u).any (fun g => g < (h.now : Rat))
    let h1 := if late h.trk.src then h.srcGateClose else h
    let h2 := if h.trk.sec.known && (h.gateEnd h.trk.sec).any (fun g => g < (h.now : Rat)) then h1.secGateClose else h1
    Half.dueGates n h2

/-! ### Overspeed hardware (R230) -/

/-- OS_WHEEL as an input (R237). -/
def Half.osInp (h : Half) : Inp := if osCfgOsWheel h.fg.osCfg then .ckf else .ckd

/-- An edge that the overspeed receiver passes on (R230). -/
def Half.overspeed (h : Half) : Half :=
  let f := h.fg
  let t := osCfgOsT f.osCfg * 16
  let k := osCfgOsK f.osCfg
  match f.osLast with
  | none => { h with fg := { f with osLast := some h.now } }
  | some l =>
    let int := h.now - l
    let short := if int < t then f.osShort + 1 else 0
    let long := if int * 100 ≥ 105 * t then f.osLong + 1 else 0
    let asserts := !f.osTrip && short ≥ k && t ≠ 0
    let drops := f.osTrip && long ≥ k
    let h1 : Half := { h with fg := { f with
      osLast := some h.now, osShort := short, osLong := long, osTrip := asserts || (f.osTrip && !drops) } }
    if asserts then ((h1.raise 0x28 (locInp h.id h.osInp.ix.1)).emit (.kill (if h.id = .A then 3 else 4))) else h1

/-! ### The edge itself -/

/-- A comparator change outside blanking becomes a qualified edge (R56, R60, R62, R67, R68, R70). -/
def Half.qualified (i : Inp) (raw : EdgeIn) (h00 : Half) : Half :=
  let h := h00.dueGates 3
  let r := h.rcvOf i
  let e := seenBy r raw
  if !wrxCfg0En r.cfg0 || !r.selects e.pol || !r.changes e || h.now < r.blankEnd then h else
  let first := r.firstPend
  let follows := h.syncRow i
  let h1 := h.latchEdge i e
  let h2 := if i = h1.osInp then h1.overspeed else h1
  let h3 := if first || !follows then h2.openBlankSeek i else h2
  if !h3.uses i then h3.emit (.tooth i.ix.1 h3.ts e.pol first (if first then 7 else Config.freeNat 1 h3.now % 8) 0) else
  let h4 := (h3.rcvMap i (fun r => { r with valid := false })).dirCheck
  let h5 := if i = .ckd || i = .ckf then h4.crankEdge i e first
    else if h4.trk.phaseInp = some i then h4.phaseEdge i e first
    else h4.emit (.tooth i.ix.1 h4.ts e.pol first (if first then 7 else Config.freeNat 1 h4.now % 8) 0)
  let h6 := if h5.failed i then h5.onFailed i else h5.dirCheck
  h6.trySync

/-! ### What follows from outside an edge -/

/-- FAILED clears: the next edge carries FIRST, the second unit leaves FAILED (R82, R113). -/
def Half.onFailedClear (i : Inp) (h : Half) : Half :=
  let h1 := (h.revMap i (fun c => { c with failed := false, clearAt := none })).rcvMap i (fun r => { r with firstPend := true })
  (h1.trkMap (fun t => { t with secSt := if t.sec.inp = some i && t.secSt = 3 then 1 else t.secSt })).dirCheck

/-- SOURCE_SWITCH by class (R463): every MISSING_TOOTH event within its window names the present angle source and the
second unit is LOCKED. The wheel switched to is kept where the switch is made (`Half.secSwitch`). -/
def Half.switchByClass (h : Half) : Half :=
  let t := h.trk
  match t.src.inp with
  | none => h
  | some i =>
    let evs := (h.flt.cntOf 0x08).evts.filter h.flt.inWin
    if h.flt.reacts 0x08 && (t.st = 4 || t.st = 5) && t.secSt = 2 && !t.swPend && !evs.isEmpty &&
        evs.all (fun e => e.2.loc = h.inLoc i) then
      ((h.raise 0x0F (h.inLoc i)).toCheck).trkMap (fun t => { t with swPend := true })
    else h

/-- The commanded direction changes (R114, R421): rotation contrary while the engine turns; at rest it is the direction
until one is read. -/
def Half.commandDir (ast : Bool) (h : Half) : Half :=
  if h.trk.dir.cmd = ast then h else
  let h1 := h.trkMap (fun t => { t with dir := { t.dir.rearm with cmd := ast } })
  if h.trk.st = 0 then h1.trkMap (fun t => { t with dir := { t.dir with read := ast, seen := false, flip := 0 } })
  else h1.contrary

/-- Enable a receiver (R58, R69, R81): output state from the input level, the first edge to carry FIRST, REVERSED cleared,
INVERT as the image gives it, its checks afresh; REV_UNAVAIL after four undecided gaps ends here. The decay of R58 counts on from the
last accepted edge before (log 106). -/
def Half.enable (i : Inp) (lvl : InLevel) (h : Half) : Half :=
  let inv := h.cfg.inverts.contains i
  let h1 := h.rcvMap i (fun r => { r.initArm with
    cfg0 := (r.cfg0 &&& ~~~(putB true 27)) ||| putB true 31 ||| putB inv 27, tooth := lvl = .above, held := lvl = .inside,
    firstPend := true, nEdges := 0, lastAt := h.now, lastInt := 0, blankEnd := h.now, seq := [], lastQ := h.now,
    lobeRun := (0, 0), lobeLast := (0, 0), lobeCur := (0, 0) })
  let c0 := h1.revOf i
  let un := h1.revUnavail0 i
  let h2 := h1.revMap i (fun _ => ⟨false, false, un, 0, 0, 0, 0, 0, c0.failed, c0.clearAt, c0.hold⟩)
  if c0.failed && c0.clearAt.isNone && !h2.failCond i && !h2.inputHeld i then h2.onFailedClear i else h2

end Sys2Proof.Machine
end

