-- ==== Sys2Proof/Machine/Twist.lean ====
section
/-! DEFINITION. The twist unit (R130 to R147): modes, ramp, corrections, presentation; the static table. -/

namespace Sys2Proof.Machine

open Sys2Proof

/-- TWIST_MAX in Q16 times 100 (R153). -/
def Tws.max100 (t : Tws) : Int := (twsCfg0TwistMax t.cfg0 : Int) * 65536

/-- The engine has two crank wheels. -/
def Half.twoWheels (h : Half) : Bool := h.cfg.ckd.present && h.cfg.ckf.present

/-- Both crank wheels are tracked (R155). -/
def Half.bothTracked (h : Half) : Bool := h.twoWheels && h.trk.secSt = 2 && !h.trk.swPend && !h.trk.inLimp

/-- The second crank wheel is usable (R143). -/
def Half.secondUsable (h : Half) : Bool := h.bothTracked && twsCfg0TwEn h.tws.cfg0

/-- The angle source is CKF. -/
def Half.srcIsF (h : Half) : Bool := h.trk.src.inp = some .ckf

/-- The measured twist (R130, R134); the end angles lie within SEC_WIN, which fixes the revolution. -/
def Half.tauMeas (h : Half) : Int :=
  let u := h.trk.sec
  let w := h.wheel (u.inp.getD .ckf)
  let other := endAngle h.cycLen w h.trk.dir.read u.acc 0
  let d := wrapS (360 * deg) (h.cyc - other)
  if h.srcIsF then -d else d

/-- One pitch of the angle source in Q16. -/
def Half.pitchQ (h : Half) : Int := 360 * deg / h.pitches h.trk.src

/-- Linear interpolation of a table column at x between breakpoints i and i + 1. -/
def lerpQ (x0 x1 y0 y1 x : Rat) : Rat := if x1 = x0 then y0 else y0 + (y1 - y0) * (x - x0) / (x1 - x0)

/-- The place of a value among breakpoints, clamped to the edges: index and value (R147). -/
def bracket (bps : List Nat) (x : Rat) : Nat × Rat :=
  let lo : Rat := (bps.headD 0 : Rat)
  let hi : Rat := (bps.getLast?.getD 0 : Rat)
  let v := max lo (min hi x)
  let i := (bps.filter (fun b => (b : Rat) ≤ v)).length - 1
  (min i (bps.length - 2), v)

/-- The static twist in Q16 at a speed in rpm and a load in 0.1 % (R146, R147). -/
def TwistTable.eval (t : TwistTable) (rpm load : Rat) : Rat :=
  let (i, s) := bracket t.spd rpm
  let (j, l) := bracket t.ld load
  let row (k : Nat) : Rat :=
    let r := t.tau.getD k []
    lerpQ (t.ld.getD j 0 : Nat) (t.ld.getD (j + 1) 0 : Nat) (r.getD j 0 : Int) (r.getD (j + 1) 0 : Int) l
  lerpQ (t.spd.getD i 0 : Nat) (t.spd.getD (i + 1) 0 : Nat) (row i) (row (i + 1)) s

/-- Foreground step 1 writes the static twist from the snapshot's speed and the last load figure (R147). -/
def Half.tableTwist (h : Half) : Half :=
  let load : Rat := match h.tws.load with
    | some l => l
    | none => (h.cfg.table.ld.headD 0 : Nat)
  { h with tws := { h.tws with tauS := roundFreeQ 8 (h.cfg.table.eval ((h.snap.speed : Rat) / 65536) load) } }

/-- The mode entered from NONE (R143). -/
def Half.modeFromNone (h : Half) : Nat :=
  if h.trk.inLimp then 4
  else if h.secondUsable then 1
  else if !h.twoWheels || !trkCfg0SecondEn h.trk.cfg0 || !twsCfg0TwEn h.tws.cfg0 then 2
  else 3

/-- Change the twist unit. -/
def Half.twsMap (f : Tws → Tws) (h : Half) : Half := { h with tws := f h.tws }

/-- TWIST_FALLBACK (R158). -/
def Half.twistFallback (h : Half) : Half := (h.raise 0x14 h.srcLoc).twsMap (fun t => { t with fbSeen := true })

/-- Mode changes (R143) at a recomputation with the measured twist. TW_EN = 0 forces SINGLE also where a mode runs (R153), with a ramp as
any mode change with a valid angle makes one (log 106). TWIST_RANGE starts its ramp from the value last stored where none was within
TWIST_MAX in MEASURED, and is raised in MEASURED alone (log 113). -/
def Half.twistMode (tm : Int) (h : Half) : Half :=
  let t := h.tws
  let st := h.trk.st
  let fires := st = 4 || st = 5
  let usable := h.secondUsable
  let mag : Int := tm.natAbs
  let h1 : Half :=
    if !h.trk.angleValid then
      h.twsMap (fun t => { t with mode := 0, ramp := false, rangeTrav := none, okTrav := none, fromNone := false })
    else if t.mode = 0 || (t.mode = 4 && !h.trk.inLimp) then
      let m := h.modeFromNone
      let h1 := h.twsMap (fun t => { t with
        mode := m, ramp := false, rangeTrav := none, okTrav := none, fromNone := m = 3,
        tauA := if m = 1 then tm else if m = 4 then 0 else t.tauS, inMaxTau := if mag * 100 ≤ t.max100 then tm else t.inMaxTau })
      if m = 3 && st = 4 then h1.twistFallback else h1
    else if (t.mode = 1 || t.mode = 3) && !twsCfg0TwEn t.cfg0 then
      h.twsMap (fun t => { t with mode := 2, ramp := true, rangeTrav := none, okTrav := none, fromNone := false })
    else if t.mode = 1 then
      if !usable then
        let h1 := h.twsMap (fun t => { t with mode := 3, ramp := true, rangeTrav := none, okTrav := none, fromNone := false })
        if fires then h1.twistFallback else h1
      else if t.rangeTrav.any (fun x => x ≥ 2 * h.pitchQ) && mag * 100 > t.max100 then
        let h1 := (h.raise 0x15 h.srcLoc).twsMap (fun t => { t with
          mode := 3, twRange := true, tauA := if t.ramp then t.tauA else t.inMaxTau, ramp := true, rangeTrav := none, okTrav := none, fromNone := false })
        if fires then h1.twistFallback else h1
      else h
    else if t.mode = 3 then
      let small := mag * 1000 ≤ 8 * t.max100
      let first := t.fromNone && !t.syncSeen && usable && !t.lockSeen && small
      let turn := usable && small && t.okTrav.any (fun x => x ≥ 360 * deg)
      if (first || turn) && !h.flt.reacts 0x15 then
        h.twsMap (fun t => { t with mode := 1, ramp := true, rangeTrav := none, okTrav := none })
      else if st = 4 && t.lastSt ≠ 4 then h.twistFallback else h
    else h
  h1.twsMap (fun t => { t with
    lockSeen := usable, lastSt := st, syncSeen := if st = 0 then false else t.syncSeen || st = 4 })

/-- The applied twist after `dt` et (R142, R144). -/
def Half.applyTwist (tm : Int) (dt : Nat) (h : Half) : Half :=
  let t := h.tws
  let target : Rat := if t.mode = 1 then tm else if t.mode = 4 then 0 else t.tauS
  if !t.ramp || t.mode = 0 then h.twsMap (fun t => { t with tauA := if t.mode = 0 then t.tauA else target, ramp := false })
  else
    let step : Rat := match predT h.trk.depth h.trk.src.hist with
      | some p => if p ≤ 0 then 0 else (twsCfg0TwRamp t.cfg0 : Rat) * 65536 / 1000 * dt / p
      | none => 0
    let new := if t.tauA < target then min target (t.tauA + step) else max target (t.tauA - step)
    h.twsMap (fun t => { t with tauA := new, ramp := new ≠ target })

/-- The correction of an entry (R131, R134, R142). -/
def Half.corrOf (h : Half) (c : TwsCyl) : Int :=
  let ast := h.trk.dir.read
  let tdc : Int := c.tdc.toNat
  let s : Int := c.s.toInt
  let s1 := if ast then -s else s
  let tdc1 := if ast then (h.cycLen - tdc) % h.cycLen else tdc
  let w : Rat := (twsWW c.w : Rat) / 16384
  let tw : Rat := if h.tws.mode = 4 then 0 else if h.srcIsF then w * h.tws.tauA else (w - 1) * h.tws.tauA
  roundFreeQ 7 tw + s1 - tdc1

/-- The corrections written and the throw angles presented anew; slots a rise in c_k passes are handled as passed by a
forward step (R134, R135, R180). -/
def Half.writeCorr (h : Half) : Half :=
  let fresh := h.trk.angleValid && h.tws.mode = 0
  let h1 := h.twsMap (fun t => { t with cyl := t.cyl.map (fun c => { c with c := h.corrOf c }) })
  if !h.trk.angleValid then h1
  else if fresh then h1.presentFresh
  else
    let h2 := h1.present
    if !(idxs 24).any (fun k => (h2.tws.cyl.get k).pres ≠ (h.tws.cyl.get k).pres) then h2 else
    let len := h.cycLen
    h.stepSlots (fun c => (h2.presOf c - h.presOf c) % len) false h2

/-- What a sample at this recomputation would have (R149), kept while a probe's signal is high. -/
def Half.twsPt (h : Half) : TwsPt :=
  ⟨h.now, h.trk.st = 4 && h.tws.mode = 1 && !h.tws.ramp, h.tws.tauA, h.tws.cyl.map (·.pres), h.trk.src.inc, h.trk.dir.read⟩

/-- The trail of a probe (R149) grows by this recomputation while it is kept. -/
def Half.twsTrail (h : Half) : Half := if h.tws.trail.isEmpty then h else h.twsMap (fun t => { t with trail := h.twsPt :: t.trail })

/-- One recomputation (R134): measured twist, mode, applied twist, corrections. -/
def Half.twist (h : Half) : Half :=
  let dt := h.now - h.tws.lastRec
  let usable := h.secondUsable
  let tm := if h.bothTracked then h.tauMeas else h.tws.tauM
  let mag : Int := tm.natAbs
  let cy := h.cyc
  let len := h.cycLen
  let wasNone := h.tws.mode = 0
  let h1 := h.twsMap (fun t =>
    let d := if h.trk.angleValid then (cy - t.pitchMark) % len else 0
    { t with
      tauM := tm, pitchMark := cy, lastRec := h.now,
      inMaxTau := if usable && mag * 100 ≤ t.max100 then tm else t.inMaxTau,
      rangeTrav := if usable && mag * 100 > t.max100 then some ((t.rangeTrav.map (· + d)).getD 0) else none,
      okTrav := if usable && mag * 1000 ≤ 8 * t.max100 then some ((t.okTrav.map (· + d)).getD 0) else none })
  let h2 := ((h1.applyTwist tm dt).twistMode tm).applyTwist tm 0
  (if wasNone && h2.tws.mode ≠ 0 then
    (h2.twsMap (fun t => { t with cyl := t.cyl.map (fun c => { c with c := h2.corrOf c }) })).presentFresh
  else h2.writeCorr).twsTrail

/-- END (R154); in LIMP, where the spec names no end, it shows none (log 113). -/
def Half.twsEnd (h : Half) : Nat :=
  match h.tws.mode with
  | 1 => 2
  | 2 => if h.srcIsF then 1 else 0
  | 3 => if h.srcIsF then 1 else 0
  | _ => 3

/-- TWS_STAT (R154). -/
def Half.twsStat (h : Half) : Word :=
  put h.tws.mode 3 29 ||| putB h.tws.ramp 28 ||| put h.twsEnd 2 26 ||| putB h.tws.twRange 25 ||| putB h.tws.fbSeen 24

/-- SOURCE (R127). -/
def Half.trkSource (h : Half) : Nat :=
  if h.trk.inLimp then 2 else match h.trk.src.inp with
  | some .ckd => 0
  | some .ckf => 1
  | _ => 3

/-- TRK_STAT (R127). -/
def Half.trkStat (h : Half) : Word :=
  let t := h.trk
  put t.st 4 28 ||| put h.trkSource 2 26 ||| put t.secSt 2 24 ||| putB t.dir.read 23 ||| putB t.dir.conf 22 |||
    putB t.angleValid 21 ||| putB t.dir.srcLost 20 ||| putB t.accelImpl 19 ||| putB t.src.cand.isSome 18 |||
    put (min t.src.bad 2) 2 16 ||| put t.src.pos 10 0

/-- TRK_ANGLE (R128). -/
def Half.trkAngle (h : Half) : Word := BitVec.ofInt 32 h.cyc

/-- What is latched at a frame tick (R36, R133): the tracker's snapshot, then slice and lane status. -/
def Half.takeSnap (h : Half) : Half :=
  let v := h.trk.angleValid
  { h with snap := {
      st := h.trk.st, valid := v, angle := if v then h.cyc else 0,
      throws := h.tws.cyl.map (fun c => if v && c.valid then BitVec.ofInt 32 c.pres else 0x80000000#32),
      speed := h.speed, astern := h.trk.dir.read,
      slices := h.acq.slices.map (·.failed), lanes := h.ana.lanes.map Lane.stat } }

/-- The throw angle of an entry in the snapshot, none where it is invalid (R133). -/
def Snap.throwAt (s : Snap) (k : Fin 24) : Option Int :=
  let w := s.throws.get k
  if w = 0x80000000#32 then none else some w.toInt

/-- A new weight and offset take effect at the cylinder's commit instant (R140). -/
def Half.takeWeights (k : Fin 24) (h : Half) : Half :=
  match (h.tws.cyl.get k).pend with
  | none => h
  | some (w, s) =>
    (h.twsMap (fun t => { t with cyl := upd t.cyl k (fun c => { c with w := w, s := s, pend := none }) })).writeCorr

end Sys2Proof.Machine
end

