-- ==== Sys2Proof/Machine/Analysis.lean ====
section
/-! DEFINITION. The analysis lanes (R310 to R329): samples, windows, pegging, figures, traces. -/

namespace Sys2Proof.Machine

open Sys2Proof

/-- Change the lanes. -/
def Half.laneMap (j : Fin 12) (f : Lane → Lane) (h : Half) : Half := { h with ana := { h.ana with lanes := upd h.ana.lanes j f } }

/-- A resolution code in 1/20 degree (R303, R311). -/
def res20 (c : Nat) : Nat :=
  match c with
  | 0 => 20 | 1 => 10 | 2 => 4 | 3 => 2 | _ => 1

/-- The code of a resolution in 1/20 degree. -/
def resCode (r : Nat) : Nat := if r = 20 then 0 else if r = 10 then 1 else if r = 4 then 2 else if r = 2 then 3 else 4

/-- The cylinder of a lane. -/
def Lane.cyl (l : Lane) : Nat := anaCfg0Cyl (l.cfg.get 0)

/-- The lane is in use. -/
def Lane.en (l : Lane) : Bool := anaCfg0En (l.cfg.get 0)

/-- The resolution of a throw cycle, reduced or not, in 1/20 degree (R311, R312). -/
def Lane.resAt (l : Lane) (red : Bool) : Nat := if red then 2 else res20 (anaCfg0Res (l.cfg.get 0))

/-- The resolution in force. -/
def Lane.res (l : Lane) : Nat := l.resAt l.red

/-- An 11-bit angle field in units of 0.5 degree, as Q16. -/
def halfDeg (v : Int) : Rat := (v * 32768 : Int)

/-! ### Geometry and scaling (R315, R316) -/

/-- The largest number of `n` bits, of which `m` are taken as known, whose k-th power does not exceed x (bit by bit, from the top). -/
def rootBits (k : Nat) (x : Rat) : Nat → Nat → Nat
  | 0, m => m
  | n + 1, m => rootBits k x n (if ((2 * m + 1 : Nat) * 2 ^ n : Nat) ^ k ≤ x then 2 * m + 1 else 2 * m)

/-- The k-th root of a number up to 2^64, to 2^-64, rounded down (log 14). -/
def rootQ (k : Nat) (x : Rat) : Rat := (rootBits k (x * (2 ^ 64) ^ k) 128 0 : Nat) / 2 ^ 64

/-- A number to 2^-128, rounded down. -/
def cut128 (x : Rat) : Rat := ((x * 2 ^ 128).floor : Rat) / 2 ^ 128

/-- The number pi to 40 decimals (log 14). -/
def piQ : Rat := 31415926535897932384626433832795028841971 / 10 ^ 40

/-- The cosine's power series from its term of index `2 i` on, `t` that term, `y` the square of the argument. -/
def cosSeries (y : Rat) : Nat → Nat → Rat → Rat
  | 0, _, _ => 0
  | n + 1, i, t => t + cosSeries y n (i + 1) (-(cut128 (t * y / ((2 * i + 1) * (2 * i + 2) : Nat))))

/-- The cosine of an angle in degrees, -180 to 180, to 2^-64 and better (log 14). -/
def cosDeg (a : Rat) : Rat := let x := cut128 (a * piQ / 180); cosSeries (cut128 (x * x)) 32 0 1

/-- A power with an exponent in 1/1000 (R319), to 2^-64 (log 14). -/
def powQ (x : Rat) (n : Nat) : Rat := rootQ 1000 (x ^ n)

/-- The volume in mm³ at an entry of the table: `i` times 0.05 degree from piston TDC (R315). -/
def Geom.entry (g : Geom) (i : Nat) : Rat :=
  let r := g.stroke / 2
  let area := piQ * g.bore * g.bore / 4
  let vd := area * g.stroke
  let c := cosDeg ((i : Rat) / 20)
  vd / (g.cr - 1) + area * (r + g.conrod - r * c - rootQ 2 (g.conrod * g.conrod - r * r * (1 - c * c)))

/-- The swept volume in mm³. -/
def Geom.vd (g : Geom) : Rat := piQ * g.bore * g.bore * g.stroke / 4

/-- The volume at a throw angle in Q16: linear in the table, symmetric, and folded beyond 180 degrees (R315). -/
def Geom.volume (g : Geom) (phi : Rat) : Rat :=
  let a := (if phi < 0 then -phi else phi) / 65536
  let b := if 180 < a then 360 - a else a
  let x := (if b < 0 then -b else b) * 20
  let i := x.floor.toNat
  let f := x - (i : Rat)
  g.entry i + (g.entry (i + 1) - g.entry i) * f

/-- The pressure of a sample in bar before pegging (R316), from the voltage its code stands for under the range of its conversion (R271). -/
def Half.pm (h : Half) (j : Fin 12) (l : Lane) (s : Smp) : Rat :=
  (anaScalePOfs l.scale : Rat) / 100 + (anaScalePGain l.scale : Rat) / 100 * voltsAt s.vss j.1 (h.acq.ain.toArray.getD j.1 0#32) s.code

/-! ### Samples and windows (R313, R314, R317) -/

/-- The next valid value of a list. -/
def nextValid : List (Rat × Option Rat) → Option (Rat × Rat)
  | [] => none
  | (x, some v) :: _ => some (x, v)
  | (_, none) :: t => nextValid t

/-- Invalid samples filled by linear interpolation between their valid neighbours (R314); those at the edges, that have one neighbour at
most, stay open. -/
def fillSmps : Option (Rat × Rat) → List (Rat × Option Rat) → List (Rat × Option Rat)
  | _, [] => []
  | _, (x, some v) :: t => (x, some v) :: fillSmps (some (x, v)) t
  | p, (x, none) :: t =>
    match p, nextValid t with
    | some (x0, v0), some (x1, v1) =>
      let v := if x1 = x0 then v0 else v0 + (v1 - v0) * (x - x0) / (x1 - x0)
      (x, some v) :: fillSmps (some (x, v)) t
    | _, _ => (x, none) :: fillSmps p t

/-- The longest run of invalid samples. -/
def longestRun : Nat → Nat → List Smp → Nat
  | _, m, [] => m
  | r, m, s :: t => if s.ok then longestRun 0 m t else longestRun (r + 1) (max m (r + 1)) t

/-- The cycle's pressures as (throw angle, p_m), oldest first, invalid samples filled (R314); the first of them may have their left neighbour in
the cycle before. A sample without a neighbour on one side holds a free value (log 114). -/
def Half.filled (h : Half) (j : Fin 12) (l : Lane) (all : List Smp) : List (Rat × Rat) :=
  let ss := l.tail.reverse ++ all
  ((fillSmps none (ss.map (fun s => (s.phi, if s.ok then some (h.pm j l s) else none)))).zip ss).map (fun x =>
    (x.1.1, x.1.2.getD (Config.edgeFill (j.1 + 12 * h.id.num) x.2.hold)))

/-- Points between an angle and the first sample at or above it that have no sample, where none stands below the angle either. -/
def Lane.missing (l : Lane) (all : List Smp) (lo phi : Rat) : Nat :=
  if all.any (fun s => s.phi < lo) then 0 else ((phi - lo) / ((l.res : Rat) * 65536 / 20)).floor.toNat

/-- The samples of a window, from the first at or above its start to the first at or above its end, which closes it (R317). -/
def winSmps (all : List Smp) (lo hi : Rat) : List Smp :=
  (all.takeWhile (fun s => s.phi < hi) ++ (all.dropWhile (fun s => s.phi < hi)).take 1).filter (fun s => lo ≤ s.phi)

/-- A window's samples: invalid count, validity, and the filled pressures as (throw angle, p_m) (R314, R317). `all` holds
the cycle's samples oldest first; points before the first sample count as invalid. -/
def Half.window (h : Half) (j : Fin 12) (l : Lane) (all : List Smp) (lo hi : Rat) : Nat × Bool × List (Rat × Rat) :=
  let ss := winSmps all lo hi
  let head : Nat := match ss with
    | s :: _ => l.missing all lo s.phi
    | [] => 3
  let bad := ss.countP (fun s => !s.ok) + head
  (bad, longestRun head 0 ss < 3 && head < 3 && bad ≤ 16,
    (h.filled j l all).filter (fun x => lo ≤ x.1 && x.1 ≤ (ss.getLast?.map (·.phi)).getD hi))

/-- The hold of the sample that closes a window (R323), or of the newest. -/
def Lane.closedAt (l : Lane) (hi : Rat) (now : Nat) : Nat :=
  match l.smps.reverse.find? (fun s => hi ≤ s.phi), l.smps with
  | some s, _ => s.hold
  | none, s :: _ => s.hold
  | none, [] => now

/-- The samples of a window (R317): from the first at or above its start to the first at or above its end, which closes it. -/
def inWindow (lo hi : Rat) (xs : List (Rat × Rat)) : List (Rat × Rat) :=
  (xs.takeWhile (fun x => x.1 < hi) ++ (xs.dropWhile (fun x => x.1 < hi)).take 1).filter (fun x => lo ≤ x.1)

/-- Consecutive pairs of a list. -/
def pairsOf {α : Type} : List α → List (α × α)
  | a :: b :: t => (a, b) :: pairsOf (b :: t)
  | _ => []

/-! ### Figures (R320, R321) -/

/-- Net heat release in J up to each sample (R320): (throw angle, Q). -/
def heat (g : Geom) (gam : Rat) (ps : List (Rat × Rat)) : List (Rat × Rat) :=
  match ps with
  | [] => []
  | (x0, _) :: _ =>
    let step (acc : Rat × List (Rat × Rat)) (q : (Rat × Rat) × (Rat × Rat)) : Rat × List (Rat × Rat) :=
      let (a, b) := q
      let va := g.volume a.1
      let vb := g.volume b.1
      let d := (gam / (gam - 1) * ((a.2 + b.2) / 2) * (vb - va) + 1 / (gam - 1) * ((va + vb) / 2) * (b.2 - a.2)) / 10000
      (acc.1 + d, (b.1, acc.1 + d) :: acc.2)
    (((pairsOf ps).foldl step (0, [(x0, 0)])).2).reverse

/-- The first angle at which Q reaches a fraction of QTOT, interpolated (R320). -/
def mfb (qs : List (Rat × Rat)) (target : Rat) : Option Rat :=
  match qs with
  | (x, q) :: rest =>
    if target ≤ q then some x
    else ((pairsOf ((x, q) :: rest)).find? (fun p => target ≤ p.2.2)).map (fun p =>
      if p.2.2 = p.1.2 then p.2.1 else p.1.1 + (p.2.1 - p.1.1) * (target - p.1.2) / (p.2.2 - p.1.2))
  | [] => none

/-- The largest second component, first of equals. -/
def maxBy (l : List (Rat × Rat)) : Option (Rat × Rat) :=
  l.foldl (fun m x => match m with
    | none => some x
    | some y => if y.2 < x.2 then some x else some y) none

/-- High-pass pressures over nine samples (R321). -/
def highPass (ps : List (Rat × Rat)) : List (Rat × Rat) :=
  let a := ps.toArray
  (List.range ps.length).filterMap (fun i =>
    if i < 4 ∨ ps.length ≤ i + 4 then none
    else
      let s := (List.range 9).foldl (fun t m => t + (a.getD (i + m - 4) (0, 0)).2) 0
      let x := a.getD i (0, 0)
      some (x.1, x.2 - s / 9))

/-- A Q16 angle of a result. -/
def qAngle (x : Rat) : Int := roundFreeQ 20 x

/-- A pressure in units of 100 Pa from bar (R326). -/
def pUnits (x : Rat) : Int := roundFreeQ 21 (x * 1000)

/-- w_k tau_app + s_k' of a cylinder (R326). -/
def Half.ckOf (h : Half) (cyl : Nat) : Int :=
  match h.entry cyl with
  | none => 0
  | some k =>
    let c := h.tws.cyl.get k
    let s : Int := if h.trk.dir.read then -c.s.toInt else c.s.toInt
    roundFreeQ 7 ((twsWW c.w : Rat) / 16384 * h.tws.tauA) + s

/-- The flags shared by both stages, of a window's samples (R314, R324, R326). -/
def Lane.flags (l : Lane) (ss : List Smp) (incomplete : Bool) : Nat :=
  128 * bit l.red + 64 * bit (ss.any (·.off)) + 32 * bit (ss.any (·.spare)) + 16 * bit incomplete + 8 * bit l.pegFail + 4 * bit (ss.any (·.limp))

/-- The end of the pegging window, at which the pegging offset is formed (R317, R319); FIXED, whose angles R318 leaves alone, forms it no later
than the combustion window needs it, and not before its own sample (log 114). -/
def Lane.pegAt (l : Lane) : Option Rat :=
  let a2 := halfDeg (anaCfg3PegA2 (l.cfg.get 3))
  match anaCfg0PegMode (l.cfg.get 0) with
  | 0 => none
  | 3 => some (max (halfDeg (anaCfg3PegA1 (l.cfg.get 3))) (min a2 (halfDeg (anaCfg1CmbEnd (l.cfg.get 1)))))
  | _ => some a2

/-- A result of a stage whose window ends at `hi`, with none of its figures but the pegging offset, which a window of its own gives (R319). -/
def Half.blank (h : Half) (j : Fin 12) (l : Lane) (imep : Bool) (qual ninv : Nat) (hi : Rat) : ResOut :=
  ⟨imep, j.1 + 12 * h.id.num, l.cyl, l.cycNo, qual, resCode l.res, if l.pegAt.isNone then some 0 else l.peg.map pUnits, none, none, none, none, none, none, none, none, none,
    none, ninv, h.ckOf l.cyl, none, false, l.closedAt hi h.now⟩

/-- The location code of a lane's input. -/
def Half.laneLoc (h : Half) (j : Fin 12) : Word := locAin h.id j.1

/-- The cycle window (R317, R320, R336): whether it is valid, the cycle angle of the largest p_m and the span of p_m. -/
def Half.cycleMax (h : Half) (j : Fin 12) (l : Lane) (all : List Smp) : Bool × Option Int × Rat :=
  let hi : Rat := ((h.cycLen / 2 : Int) : Rat)
  let (_, ok, _) := h.window j l all (-hi) hi
  (ok, if !ok then (none, 0) else
  let ps := (all.filter (fun s => s.ok && s.phi < hi)).map (fun s => ((s.ang : Rat), h.pm j l s))
  match maxBy ps, maxBy (ps.map (fun x => (x.1, -x.2))) with
  | some m, some n => (some (roundFreeQ 22 (m.1 * 65536 / 20)), m.2 + n.2)
  | _, _ => (none, 0))

/-- The other half is asked whether a FUEL slot of the cylinder fired in it, where none did in this (R322). -/
def Half.askFuel (j : Fin 12) (r : ResOut) (h : Half) : Half := if r.fuel then h else h.emit (.fuelAsk j r.cyl r.cyc)

/-- The combustion window closes (R320 to R322): the figures and the flags that need no other cycle. -/
def Half.closeCmb (j : Fin 12) (incomplete : Bool) (h : Half) : Half :=
  let l := h.ana.lanes.get j
  let all := l.smps.reverse
  let lo := halfDeg (anaCfg1CmbStart (l.cfg.get 1))
  let hi := halfDeg (anaCfg1CmbEnd (l.cfg.get 1))
  let (ninv, ok, raw) := h.window j l all lo hi
  let fl := l.flags (winSmps all lo hi) incomplete
  let fuel := match h.entry l.cyl with
    | some k => (h.cyls.get k).fuelCyc = some l.cycNo
    | none => false
  if incomplete || !ok then
    let r : ResOut := { h.blank j l false (0x8000 + 0x2000 + fl) ninv hi with fuel := fuel }
    ((h.laneMap j (fun l => { l with cmbDone := true, ninv := sat 8 ninv, results := l.results ++ [r] })).raise 0x3A (h.laneLoc j)).askFuel j r
  else
    let peg := l.peg.getD 0
    let ps := raw.map (fun x => (x.1, x.2 + peg))
    -- the knock filter reaches four samples back from the window (R321)
    let before := (((h.filled j l all).filter (fun x => x.1 < lo)).reverse.take 4).reverse
    let gam : Rat := (anaCfg4Gamma (l.cfg.get 4) : Rat) / 1000
    let qs := heat h.cfg.geom gam ps
    let qt := (maxBy qs).map (·.2)
    let m (x : Nat) : Option Int := match qt with
      | some q => if q ≤ 0 then none else (mfb qs (q * x / 100)).map qAngle
      | none => none
    let pk := maxBy ps
    let dp := maxBy ((pairsOf ps).filterMap (fun p =>
      if p.2.1 = p.1.1 then none else some (p.2.1, (p.2.2 - p.1.2) / ((p.2.1 - p.1.1) / 65536))))
    let kw := inWindow (halfDeg (anaCfg2KwStart (l.cfg.get 2))) (halfDeg (anaCfg2KwEnd (l.cfg.get 2))) (highPass (before.map (fun x => (x.1, x.2 + peg)) ++ ps))
    let ki := if anaCfg0KnEn (l.cfg.get 0) then maxBy (kw.map (fun x => (x.1, if x.2 < 0 then -x.2 else x.2))) else none
    let knock := ki.any (fun x => (anaCfg5KiThr (l.cfg.get 5) : Rat) < x.2 * 100)
    let r : ResOut := { h.blank j l false (0x8000 + 512 * bit knock + fl) ninv hi with
      pmax := pk.map (fun x => pUnits x.2), apmax := pk.map (fun x => qAngle x.1),
      dpmax := dp.map (fun x => pUnits x.2), qtot := qt.map (fun q => roundFreeQ 23 (q * 10)),
      mfb10 := m 10, mfb50 := m 50, mfb90 := m 90, ki := ki.map (fun x => pUnits x.2), aki := ki.map (fun x => qAngle x.1),
      qJ := qt, fuel := fuel }
    let h1 := h.laneMap j (fun l => { l with
      cmbDone := true, ninv := sat 8 ninv, knock := if knock then satInc 8 l.knock else l.knock, results := l.results ++ [r] })
    let h2 := (if knock then h1.raise 0x3E (h.laneLoc j) else h1).askFuel j r
    match pk with
    | some x => h2.emit (.calPeak l.cyl l.cycNo (qAngle x.1) ((all.filter (fun s => x.1 ≤ s.phi)).map (fun s => (s.phi, s.tau, s.keep))) h.trk.dir.read)
    | none => h2

/-- The IMEP window in Q16, none when the lane computes none (R317). -/
def Lane.imepWin (l : Lane) : Option (Rat × Rat) :=
  match anaCfg0ImepMode (l.cfg.get 0) with
  | 0 => some (halfDeg (-360), halfDeg 360)
  | 1 => some (halfDeg (-720), halfDeg 720)
  | _ => none

/-- The IMEP window closes (R317, R320). -/
def Half.closeImep (j : Fin 12) (incomplete : Bool) (h : Half) : Half :=
  let l := h.ana.lanes.get j
  match l.imepWin with
  | none => h.laneMap j (fun l => { l with impDone := true })
  | some (lo, hi) =>
    let all := l.smps.reverse
    let (ninv, ok, raw) := h.window j l all lo hi
    let fl := l.flags (winSmps all lo hi) incomplete
    if incomplete || !ok then
      let r := h.blank j l true (0x4000 + 0x1000 + fl) ninv hi
      (h.laneMap j (fun l => { l with impDone := true, results := l.results ++ [r] })).raise 0x3A (h.laneLoc j)
    else
      let peg := l.peg.getD 0
      let w := (pairsOf (raw.map (fun x => (x.1, x.2 + peg)))).foldl (fun t p =>
        t + (p.1.2 + p.2.2) / 2 * (h.cfg.geom.volume p.2.1 - h.cfg.geom.volume p.1.1)) 0
      let vd := h.cfg.geom.vd
      let r : ResOut := { h.blank j l true (0x4000 + fl) ninv hi with imepV := some (pUnits (if vd = 0 then 0 else w / vd)) }
      h.laneMap j (fun l => { l with impDone := true, results := l.results ++ [r] })

/-- LAST of a MAP input scaled to bar (R319). -/
def Half.mapRef (h : Half) (l : Lane) : Option Rat :=
  let i := 36 + anaCfg0PegGp (l.cfg.get 0) % 12
  match h.acq.last.toArray[i]? with
  | none => none
  | some x =>
    if x.code = 0x8000#16 || x.hold.all (fun t => t + 80000 < h.now) then none
    else some ((anaPscaleGOfs l.pscale : Rat) / 1000 + (anaPscaleGGain l.pscale : Rat) / 1000 * voltsOf i (h.acq.ain.toArray.getD i 0#32) x.code)

/-- The pegging window closes (R319); one that is invalid is an event of its own (R343). -/
def Half.closePeg (j : Fin 12) (h : Half) : Half :=
  let l := h.ana.lanes.get j
  let all := l.smps.reverse
  let a1 := halfDeg (anaCfg3PegA1 (l.cfg.get 3))
  let a2 := halfDeg (anaCfg3PegA2 (l.cfg.get 3))
  let first (a : Rat) : Option (Rat × Rat) := match (all.dropWhile (fun s => s.phi < a)).head? with
    | some s => if s.ok && l.missing all a s.phi = 0 then some (s.phi, h.pm j l s) else none
    | none => none
  let dp : Option Rat := match anaCfg0PegMode (l.cfg.get 0) with
    | 1 =>
      let ss := all.filter (fun s => a1 ≤ s.phi)
      if ss.isEmpty || ss.any (fun s => !s.ok) || ss.head?.any (fun s => l.missing all a1 s.phi ≠ 0) then none
      else (h.mapRef l).map (fun p => p - (ss.map (fun s => h.pm j l s)).sum / (ss.length : Nat))
    | 2 => match first a1, first a2 with
      | some x, some y =>
        let n := anaCfg4PolyN (l.cfg.get 4)
        let v1 := powQ (h.cfg.geom.volume x.1) n
        let v2 := powQ (h.cfg.geom.volume y.1) n
        if v1 = v2 then none else some ((y.2 * v2 - x.2 * v1) / (v1 - v2))
      | _, _ => none
    | 3 => (first a1).map (fun x => (anaCfg3PegP (l.cfg.get 3) : Rat) / 10 - x.2)
    | _ => some 0
  let hi := l.pegAt.getD a2
  let (_, ok, _) := h.window j l all a1 hi
  let h1 := if !ok && all.any (fun s => s.phi < hi) then h.raise 0x3A (h.laneLoc j) else h
  match dp with
  | some d => h1.laneMap j (fun l => { l with peg := some d })
  | none => (h1.laneMap j (fun l => { l with peg := some 0, pegFail := true })).raise 0x3B (h.laneLoc j)

/-- The combustion window, then the IMEP window, has ended at or before an angle and is not computed yet (R317). -/
def Lane.ended (l : Lane) (phi : Rat) : Bool × Bool :=
  (!l.cmbDone && halfDeg (anaCfg1CmbEnd (l.cfg.get 1)) ≤ phi, !l.impDone && l.imepWin.any (fun w => w.2 ≤ phi))

/-- The newest samples, one or two, are invalid: the next may be the valid neighbour that fills them (R314). -/
def Lane.waits (l : Lane) : Bool := let n := (l.smps.takeWhile (fun s => !s.ok)).length; n = 1 || n = 2

/-- The windows that the newest sample closes (R317); their figures wait for a valid neighbour unless `now_` (R314, R323, log 114). -/
def Half.closeWindows (j : Fin 12) (now_ : Bool) (phi : Rat) (h : Half) : Half :=
  let l := h.ana.lanes.get j
  let h1 := if l.peg.isNone && l.pegAt.any (· ≤ phi) then h.closePeg j else h
  if l.waits && !now_ then h1 else
  let h2 := if (l.ended phi).1 then h1.closeCmb j false else h1
  if (l.ended phi).2 then h2.closeImep j false else h2

/-- The throw angle of a lane's newest sample. -/
def Lane.newest (l : Lane) : Option Rat := l.smps.head?.map (·.phi)

/-- Windows that have ended wait for a neighbour: when the sample that closed the first of them was held. -/
def Lane.waitsSince (l : Lane) (now : Nat) : Option Nat :=
  match l.newest with
  | none => none
  | some phi =>
    match l.ended phi with
    | (true, _) => some (l.closedAt (halfDeg (anaCfg1CmbEnd (l.cfg.get 1))) now)
    | (false, true) => l.imepWin.map (fun w => l.closedAt w.2 now)
    | _ => none

/-- Windows that wait for a neighbour wait no longer: their results are due (R323). -/
def Half.closeNow (j : Fin 12) (h : Half) : Half :=
  match (h.ana.lanes.get j).newest with
  | some phi => h.closeWindows j true phi
  | none => h

/-! ### Traces (R328, R329) -/

/-- The bytes of a trace block. -/
def Trace.bytes (cyl : Nat) (t : Trace) : List Byte :=
  let ss := t.smps.reverse
  le 1 cyl ++ le 1 t.cyc ++ le 1 t.res ++
    le 1 (128 * bit t.decim.isSome + 64 * bit t.shed + 32 * bit t.inv + 16 * bit t.limp) ++ le 4 t.cyc ++
    leI 4 (roundFree 46 (t.a0 * 65536) 20) ++ leW t.hold0 ++ le 2 ss.length ++ le 2 (t.decim.getD 0xFFFF) ++ le 1 (if t.decim.isSome then 2 else 1) ++
    zeros 11 ++ ss.flatMap (fun c => le 2 c.toNat)

/-- The step from one sample of a block to the next, in 1/20 degree. -/
def Trace.step (t : Trace) : Int := (res20 t.res : Nat) * (if t.decim.isSome then 2 else 1)

/-- Points without a sample join a block. -/
def Trace.skip (n : Int) (t : Trace) : Trace :=
  { t with smps := List.replicate n.toNat 0x8000#16 ++ t.smps, last := t.last + t.step * (n.toNat : Nat), inv := t.inv || 0 < n }

/-- The trace block of a lane's finished cycle goes to the Tarn; `span` is how far past its last sample the cycle window reached, in 1/20
degree: points of it that no sample stands on close the block (R328). -/
def Half.endTrace (j : Fin 12) (span : Int) (h : Half) : Half :=
  let l := h.ana.lanes.get j
  match l.trace with
  | none => h
  | some t0 =>
    let t := t0.skip (span / t0.step)
    (h.laneMap j (fun l => { l with trace := none })).emit (.trace l.cyl ({ t with cyc := l.cycNo }.bytes l.cyl))

/-- The cycle count of the throw cycle running at a cylinder that the half commits (R325): that of its commit, or the one to come. -/
def Half.laneCyc (h : Half) (cyl : Nat) : Option Nat :=
  ((idxs 24).find? (fun k => schCylValid (h.cyls.get k).cfg && schCylCyl (h.cyls.get k).cfg = cyl)).map (fun k =>
    let c := h.cyls.get k
    if c.committed then c.count.toNat else (c.count + 1#32).toNat)

/-- A sample's throw cycle has the count of the half's commits; a half that does not commit the cylinder asks for it (R325). -/
def Half.setLaneCyc (j : Fin 12) (h : Half) : Half :=
  let cyl := (h.ana.lanes.get j).cyl
  match h.laneCyc cyl with
  | some n => h.laneMap j (fun l => { l with cycNo := n })
  | none => h.emit (.laneCount j cyl)

/-- An angle-clock point enters the lane's trace (R328, R329). The block begins at the throw cycle's first point of its resolution: where `start`
says that a cycle has begun, that lies up to `back` before this point, in 1/20 degree, and points passed over have no sample. -/
def Half.traceSmp (j : Fin 12) (ang : Int) (code : BitVec 16) (ok : Bool) (hold : Nat) (start : Bool) (back : Int) (h : Half) : Half :=
  let l := h.ana.lanes.get j
  let on := trcCfgEn h.ana.trc && anaCfg0TrcEn (l.cfg.get 0) && h.links.role ≠ 3
  if !on then h.laneMap j (fun l => { l with trace := none, trcNew := false }) else
  let len : Int := h.cycLen * 20 / 65536
  let gone : Int := match l.trace with | some t => (ang - t.last) % len | none => 0
  let h0 := if start then (h.endTrace j (gone - back - 1)).laneMap j (fun l => { l with trcNew := true }) else h
  let l0 := h0.ana.lanes.get j
  match l0.trace with
  | none =>
    let shed := h.shed ≥ 3
    let r := if shed then 0 else trcCfgTrcRes h.ana.trc
    let step : Int := (res20 r : Nat)
    -- the first point of the block's resolution at or after the cycle's start
    let a0 := if start then ang - back + (back - ang) % step else ang
    let new (a : Int) (hold0 : Nat) (ss : List (BitVec 16)) (bad : Bool) : Half :=
      (h0.laneMap j (fun l => { l with
        trcNew := false, trace := some ⟨r, shed, h.trk.inLimp, l.cycNo, a % len, BitVec.ofNat 32 hold0, ss, none, a % len, bad⟩ })).emit (.traceNew l.cyl)
    if !l0.trcNew then h0
    else if a0 < ang then
      let h1 := (new a0 (Config.noHold h.id.num h.now) [0x8000#16] true).laneMap j (fun l => { l with
        trace := l.trace.map (Trace.skip ((ang - a0 - 1) / step)) })
      if (ang - a0) % step = 0 then h1.laneMap j (fun l => { l with
        trace := l.trace.map (fun t => { t with smps := code :: t.smps, last := ang, inv := t.inv || !ok }) }) else h1
    else if ang % step = 0 then new ang hold [code] (!ok)
    else h0
  | some t =>
    let full := t.decim.isNone && Config.bufferFull h.id.num h.now
    let t1 : Trace := { (if full then { t with decim := some t.smps.length } else t) with limp := t.limp || h.trk.inLimp }
    let step := t1.step
    let d := (ang - t.last) % len
    let h1 := if full then (h0.raise 0x40 (h.laneLoc j)).emit (.traceDecim l.cyl) else h0
    if d % step ≠ 0 then h1.laneMap j (fun l => { l with trace := some t1 })
    else
      let t2 := t1.skip (d / step - 1)
      h1.laneMap j (fun l => { l with trace := some { t2 with smps := code :: t2.smps, last := ang, inv := t2.inv || !ok } })

/-! ### A sample arrives -/

/-- An angle-clock point reaches a lane; where it begins a throw cycle of the cylinder, R312 decides on the cycle's resolution. -/
def Half.lanePoint (j : Fin 12) (phi : Rat) (begins : Bool) (h : Half) : Half :=
  let rpm : Rat := (h.snap.speed : Rat) / 65536
  let l := h.ana.lanes.get j
  let was := l.next.getD l.red
  let red := res20 (anaCfg0Res (l.cfg.get 0)) = 1 && (if was then 1450 < rpm else 1500 < rpm)
  if !begins then h.laneMap j (fun l => { l with phi := some phi }) else
  let h1 := h.laneMap j (fun l => { l with phi := some phi, next := some red })
  if red && !was then h1.raise 0x3F (h.laneLoc j) else h1

/-- The lane starts on a throw cycle at its first sample (R317), which is one it has already, of the cycle before by its throw angle less L, or
stands at `phi0`; windows that ended before it are not opened. -/
def Half.newCycle (j : Fin 12) (red : Bool) (phi0 : Rat) (h : Half) : Half :=
  let len : Rat := ((h.cycLen : Int) : Rat)
  h.laneMap j (fun l =>
    let old := l.smps.map (fun s => { s with phi := s.phi - len })
    let new := old.takeWhile (fun s => -(len / 2) ≤ s.phi)
    let rest := old.drop new.length
    let phi := (new.getLast?.map (·.phi)).getD phi0
    let cmb := decide (halfDeg (anaCfg1CmbEnd (l.cfg.get 1)) ≤ phi)
    let imp := match l.imepWin with | some w => decide (w.2 ≤ phi) | none => true
    { l with smps := new, tail := rest.takeWhile (fun s => !s.ok) ++ (rest.dropWhile (fun s => !s.ok)).take 1, red := red, next := none
             peg := if cmb && imp then some 0 else none, pegFail := false, cmbDone := cmb, impDone := imp })

/-- A sample joins those of its cycle; points between that have none count as invalid samples (R314). -/
def Half.addSmp (j : Fin 12) (s : Smp) (h : Half) : Half :=
  let l := h.ana.lanes.get j
  -- between two cycles of different resolution the points of the coarser count
  let res := max l.res (l.resAt (l.next.getD l.red))
  let miss : Nat := match l.smps with
    | p :: _ => (((s.ang - p.ang) % (h.cycLen * 20 / 65536)) / (res : Nat) - 1).toNat
    | [] => 0
  let gap (i : Nat) : Smp :=
    { s with phi := s.phi - (i + 1 : Nat) * (res : Nat) * 65536 / 20, ang := s.ang - (i + 1 : Nat) * (res : Nat), code := 0x8000#16, ok := false, spare := false, off := false }
  h.laneMap j (fun l => { l with smps := s :: ((List.range (min miss 20000)).map gap ++ l.smps) })

/-- The cycle window gives its peak (R317, R320, R336); one that is invalid is an event (R343). -/
def Half.cyclePeak (j : Fin 12) (h : Half) : Half :=
  let l := h.ana.lanes.get j
  let (ok, pmc, span) := h.cycleMax j l l.smps.reverse
  (if ok then h else h.raise 0x3A (h.laneLoc j)).emit (.cyclePeak (j.1 + 12 * h.id.num) l.cyl l.cycNo pmc span)

/-- The first sample of the next cycle, its throw angle counted on past +L/2: the windows still open close at it, and the next cycle begins
unless one of them waits for a valid neighbour (R314, R317). -/
def Half.endCycle (j : Fin 12) (red : Bool) (s : Smp) (h : Half) : Half :=
  let h1 := (h.addSmp j s).closeWindows j false s.phi
  if ((h1.ana.lanes.get j).waitsSince h.now).isSome then h1 else (h1.cyclePeak j).newCycle j red s.phi

/-- A conversion of SEQ 0 for the angle clock enters a lane (R310 to R314): angle-clock point in 1/20 degree, the correction
passed with it, code, validity, spare, supply off, V_SS, hold. A point that has a sample takes no second one, but a valid one for an invalid one. -/
def Half.laneSmp (j : Fin 12) (ang : Int) (ck : Int) (code : BitVec 16) (ok spare off : Bool) (vss : Int) (hold : Nat) (h : Half) : Half :=
  let l := h.ana.lanes.get j
  let len : Rat := (h.cycLen : Int)
  let raw : Rat := (ang : Rat) * 65536 / 20 + ck
  let phi := raw - len * ((raw + len / 2) / len).floor
  let s : Smp := ⟨phi, ang, code, ok, spare, off, hold, h.trk.inLimp, vss, h.tws.tauA, h.trk.st = 4 && h.tws.mode = 1 && !h.tws.ramp⟩
  if l.next.isNone && l.smps.head?.any (fun p => p.ang = ang) then
    h.laneMap j (fun l => { l with smps := match l.smps with | p :: t => (if ok && !p.ok then s else p) :: t | [] => [] })
  else
  let begins := l.phi.all (fun p => phi + len / 2 < p)
  let back : Int := if l.phi.isSome then ((phi + len / 2) * 20 / 65536).floor else 0
  let h1 := (h.traceSmp j ang code ok hold begins back).lanePoint j phi begins
  let l1 := h1.ana.lanes.get j
  if ang % (l1.resAt (l1.next.getD l1.red) : Nat) ≠ 0 then h1 else
  let h2 := match l1.next with
    | some red =>
      if l1.smps.isEmpty then (h1.newCycle j red phi).addSmp j s else h1.endCycle j red { s with phi := phi + len }
    | none => h1.addSmp j s
  if (h2.ana.lanes.get j).next.isSome then h2 else (h2.setLaneCyc j).closeWindows j false phi

/-- A loss: every open window of the cycle completes as INCOMPLETE (R324), each an event (R343); windows that have ended and wait for a valid
neighbour are computed. -/
def Half.anaIncomplete (h : Half) : Half :=
  eachIdx 12 (fun j h0 =>
    let h := h0.closeNow j
    let l := h.ana.lanes.get j
    if !l.en || l.smps.isEmpty then h else
    let newest := l.newest.getD 0
    let openP := l.peg.isNone && l.pegAt.isSome && halfDeg (anaCfg3PegA1 (l.cfg.get 3)) ≤ newest
    let open1 := !l.cmbDone && halfDeg (anaCfg1CmbStart (l.cfg.get 1)) ≤ newest
    let open2 := !l.impDone && l.imepWin.any (fun w => w.1 ≤ newest)
    let hp := if openP then h.raise 0x3A (h.laneLoc j) else h
    let h1 := if open1 then hp.closeCmb j true else hp
    let h2 := if open2 then h1.closeImep j true else h1
    ((h2.raise 0x3A (h.laneLoc j)).endTrace j 0).laneMap j (fun l => { l with smps := [], tail := [], phi := none, next := none, trcNew := false })) h

/-- The mean QTOT of the last valid cycles (R322). -/
def Lane.qRef (l : Lane) : Option Rat := if l.qtots.length < 4 then none else some (l.qtots.sum / (l.qtots.length : Nat))

/-- The combustion result of a lane is completed with the cycle flags (R322) and filed (R323). -/
def Half.fileCmb (j : Fin 12) (r : ResOut) (h : Half) : Half :=
  let l := h.ana.lanes.get j
  let fuelled := r.fuel
  let frac : Rat := (anaCfg5MisfFrac (l.cfg.get 5) : Rat) / 100
  let mis := fuelled && (match r.qJ, l.qRef with
    | some q, some m => q < frac * m
    | _, _ => false)
  let lb := fuelled && r.qJ.isSome && (match r.mfb90 with
    | some a => halfDeg (anaCfg5LbAngle (l.cfg.get 5)) < (a : Rat)
    | none => r.mfb50.isSome)
  let qs := match r.qJ with
    | some q => if mis || !fuelled then l.qtots else (q :: l.qtots).take 16
    | none => l.qtots
  let r1 : ResOut := { r with
    qual := r.qual + 2048 * bit mis + 1024 * bit lb + 256 * bit l.miswired }
  let h1 := h.laneMap j (fun l => { l with
    qtots := qs, misf := if mis then satInc 8 l.misf else l.misf, results := l.results.erase r })
  let h2 := if mis then h1.raise 0x3C (h.laneLoc j) else h1
  (if lb then h2.raise 0x3D (h.laneLoc j) else h2).emit (.result r1)

/-- The IMEP result of a lane is filed (R323). -/
def Half.fileImep (j : Fin 12) (r : ResOut) (h : Half) : Half :=
  let m := (h.ana.lanes.get j).miswired
  (h.laneMap j (fun l => { l with results := l.results.erase r })).emit (.result { r with qual := r.qual + 256 * bit m })

end Sys2Proof.Machine
end

