-- ==== Sys2Proof/Machine/Sluice.lean ====
section
/-! DEFINITION. The sluice engines (R344 to R365): ticks, program words, queues, shifts, halts, starts, swaps, the checks of
a program, and the steward's decoding of library engines. -/

namespace Sys2Proof.Machine

open Sys2Proof

/-- The engine of a half. -/
def Half.eng (h : Half) (e : Fin 8) : Sle := h.slu.eng.get e

/-- The group of an engine (R344). -/
def grpOf (e : Fin 8) : Fin 2 := ⟨e.1 / 4, by omega⟩

/-- The group of an engine's half. -/
def Half.slg (h : Half) (g : Fin 2) : Slg := h.slu.grp.get g

/-- Change one engine. -/
def Half.sleMap (e : Fin 8) (f : Sle → Sle) (h : Half) : Half := { h with slu := { h.slu with eng := upd h.slu.eng e f } }

/-- Change one group. -/
def Half.slgMap (g : Fin 2) (f : Slg → Slg) (h : Half) : Half := { h with slu := { h.slu with grp := upd h.slu.grp g f } }

/-- Raise an event of the sluice engines (R371): its code names the timing die and no input (R531). -/
def Half.slEvent (cls : Nat) (h : Half) : Half := h.raise cls (locInp h.id 7)

/-! ### Ticks (R348, R350) -/

/-- 256 DIV of an engine. -/
def Sle.div (x : Sle) : Nat := 256 * sleClkInt x.clk + sleClkFrac x.clk

/-- Some SLUCLK periods pass: the divider makes its ticks, TCNT counts while RUNNING, the ticks until the next
instruction run down. -/
def Sle.periods (p : Nat) (x : Sle) : Sle :=
  if x.div = 0 then x else
  let a := x.acc + 256 * p
  let n := a / x.div
  let y : Sle := { x with acc := a % x.div }
  if x.st = 2 then { y with tcnt := x.tcnt + BitVec.ofNat 32 n, wait := if x.stall then x.wait else x.wait - n } else y

/-- The instant at which an engine has made `n` ticks from now; SLUCLK edges lie at multiples of 4 et (R31). -/
def Sle.tickAt (now n : Nat) (x : Sle) : Nat :=
  if n = 0 then now else 4 * (now / 4 + (n * x.div - x.acc + 255) / 256)

/-- A tick of an engine falls on this instant (R348): at an SLUCLK edge its accumulator has just passed 256 DIV. -/
def Sle.onTick (now : Nat) (x : Sle) : Bool := now % 4 = 0 && x.acc < 256

/-- The first tick of an engine at or after an instant (R348). -/
def Sle.nextTick (now : Nat) (x : Sle) : Nat := if x.onTick now then now else x.tickAt now 1

/-- `n` et pass in a half: what `Half.advance` says, and the engines' ticks. -/
def Half.pass (n : Nat) (h : Half) : Half :=
  let h1 := h.advance n
  { h1 with slu := { h1.slu with eng := h1.slu.eng.map (Sle.periods (h1.now / 4 - h.now / 4)) } }

/-! ### Program words (R351) -/

/-- Bits of a program word. -/
def slF (w : BitVec 24) (hi lo : Nat) : Nat := (w.toNat >>> lo) % 2 ^ (hi - lo + 1)

/-- OP of a word. -/
def slOp (w : BitVec 24) : Nat := slF w 23 20

/-- The active bank of a group. -/
def Slg.active (g : Slg) : Vector (BitVec 24) 48 := if g.bank then g.bank1 else g.bank0

/-- The word at an engine's PC. -/
def Half.slWord (h : Half) (e : Fin 8) : BitVec 24 := (h.slg (grpOf e)).active.toArray.getD (h.eng e).pc 0#24

/-- An instruction completes: NEXT chooses the next address, PACE ticks follow (R349, R351). -/
def Sle.complete (w : BitVec 24) (x : Sle) : Sle :=
  let y : Sle := match slF w 19 18 with
    | 0 => { x with pc := (x.pc + 1) % 64 }
    | 1 => { x with pc := sleCfg0LoopAt x.cfg0 }
    | 2 => if x.c1 = 0#32 then { x with pc := (x.pc + 1) % 64 } else { x with c1 := x.c1 - 1#32 }
    | _ => x
  { y with stall := false, mid := false, wait := 1 + slF w 17 15 }

/-- An instruction completes with its next address chosen. -/
def Sle.branch (w : BitVec 24) (a : Nat) (x : Sle) : Sle :=
  { x with pc := a, stall := false, mid := false, wait := 1 + slF w 17 15 }

/-- An engine stalls on the instruction at PC (R349); `beg` keeps when it began. -/
def Half.slStall (e : Fin 8) (h : Half) : Half :=
  h.sleMap e (fun x => if x.stall then x else { x with stall := true, beg := x.tcnt, begFrame := h.frame })

/-- An instruction of an engine completes. -/
def Half.slDone (e : Fin 8) (w : BitVec 24) (h : Half) : Half := h.sleMap e (Sle.complete w)

/-! ### Pins (R345, R346) -/

/-- The filter's last change on its way, or its level (R347). -/
def SlPin.last (p : SlPin) : Bool := (p.due.getLast?.map (·.2)).getD p.filt

/-- A level at the terminal has held for FILT periods before the SLUCLK edge `k` of the synchroniser's first stage: it counts two
periods on (R347). -/
def SlPin.hold (k : Nat) (p : SlPin) : SlPin :=
  if p.raw = p.last || k < p.rawAt + slpCfgFilt p.cfg then p
  else { p with due := p.due ++ [(p.rawAt + 2 + slpCfgFilt p.cfg, p.raw)] }

/-- The terminal changes level at an SLUCLK edge (R347); the level before it held up to the edge before. -/
def SlPin.take (k : Nat) (lvl : Bool) (p : SlPin) : SlPin :=
  if lvl = p.raw || k ≤ p.rawAt then p else { p.hold (k - 1) with raw := lvl, rawAt := k }

/-- The filtered level at an SLUCLK edge (R347). -/
def SlPin.level (n : Nat) (p : SlPin) : Bool :=
  (((p.hold (n - 2)).due.filter (fun x => x.1 ≤ n)).getLast?.map (·.2)).getD p.filt

/-- The filter's changes up to an SLUCLK edge have taken place. -/
def SlPin.settle (n : Nat) (p : SlPin) : SlPin := { p with filt := p.level n, due := p.due.filter (fun x => n < x.1) }

/-- Changes at the terminals, told at the SLUCLK edge of a command (R347). -/
def Half.slTake (es : List SlEdge) (h : Half) : Half :=
  let n := h.now / 4
  let ps := es.foldl (fun ps e => upd ps e.pin (SlPin.take (n - e.ago) e.lvl)) h.slu.pins
  { h with slu := { h.slu with pins := ps.map (SlPin.settle n) } }

/-- The level an engine samples at a pin index (R345, R347): the filtered level of an SL pin, the readback of an EV pin; beyond the
last pin the spec states none. -/
def Half.slPin (h : Half) (i : Nat) : Bool :=
  match fin? 16 i with
  | some n => (h.slu.pins.get n).level (h.now / 4)
  | none => match fin? 48 (i - 16) with
    | some m => (h.chans.get m).rb
    | none => Config.freeNat 30 (64 * h.now + i) % 2 = 1

/-- An engine owns a pin, by the configuration or by a claim of rank 4 (R345, R201). -/
def Half.slOwns (h : Half) (e : Fin 8) (i : Nat) : Bool :=
  match fin? 16 i, fin? 48 (i - 16) with
  | some n, _ =>
    let p := h.slu.pins.get n
    (slpCfgOwner p.cfg = 1 && slpCfgEng p.cfg = e.1) || (slpCfgOwner p.cfg = 0 && p.claim = some (4, e.1))
  | none, some m =>
    let c := h.chans.get m
    (outCfgSrc c.out = 3 && outCfgSlEng c.out = e.1) || (outCfgSrc c.out = 0 && c.claim = some (4, e.1))
  | none, none => false

/-- An engine drives a level on a pin it owns (R345); a tripped EV pin takes it after release (R346). -/
def Half.slDrive (e : Fin 8) (i : Nat) (lvl : Bool) (h : Half) : Half :=
  if !h.slOwns e i then h else
  match fin? 16 i, fin? 48 (i - 16) with
  | some n, _ => { h with slu := { h.slu with pins := upd h.slu.pins n (fun p => { p with lvl := lvl }) } }
  | none, some m => (h.chanMap m (fun c => { c with slLvl := lvl })).settle1 m
  | none, none => h

/-- An engine sets the direction of an SL pin it owns; directions of EV pins are ignored (R351). -/
def Half.slDir (e : Fin 8) (i : Nat) (out : Bool) (h : Half) : Half :=
  if !h.slOwns e i then h else
  match fin? 16 i with
  | some n => { h with slu := { h.slu with pins := upd h.slu.pins n (fun p => { p with dir := out }) } }
  | none => h

/-- `n` bits from the IN window, bit k from pin IN_BASE + k (R354). -/
def Half.slIn (h : Half) (e : Fin 8) (n : Nat) : Nat :=
  (List.range n).foldl (fun v k => v + bit (h.slPin (sleCfg1InBase (h.eng e).cfg1 + k)) * 2 ^ k) 0

/-! ### Queues (R356, R357) -/

/-- Places of the RX queue (R356): 8 joined, none where TX takes both. -/
def Sle.rxCap (x : Sle) : Nat := match sleCfg0Join x.cfg0 with | 1 => 8 | 2 => 0 | _ => 4

/-- Places of the TX queue (R356). -/
def Sle.txCap (x : Sle) : Nat := match sleCfg0Join x.cfg0 with | 1 => 0 | 2 => 8 | _ => 4

/-- The RX queue has room. -/
def Sle.rxRoom (x : Sle) : Bool := x.rx.length < x.rxCap

/-- A threshold crossing sends a Weir message; its payload is not stated (R356, R408). -/
def Half.slThreshold (ofs : Nat) (e : Fin 8) (h : Half) : Half :=
  h.emit (.weir (h.id.weirBase + ofs + e.1) 0 false h.frame (BitVec.ofNat 32 (Config.freeNat 31 h.now)))

/-- A word enters the RX queue; the message for RX_THR follows the crossing (R356). -/
def Half.rxPush (e : Fin 8) (w : Word) (h : Half) : Half :=
  let h1 := h.sleMap e (fun x => { x with rx := x.rx ++ [w] })
  let t := sleCfg2RxThr (h1.eng e).cfg2
  if t ≠ 0 ∧ (h1.eng e).rx.length = t then h1.slThreshold 0x060 e else h1

/-- The TX words an engine can take at the SLUCLK period `n`: not those the steward has written in that period (R356). -/
def Sle.txSeen (n : Nat) (x : Sle) : List Word := if x.txAt = n then x.tx.take (x.tx.length - x.txNew) else x.tx

/-- The steward writes words to the TX queue in the SLUCLK period `n` (R356). -/
def Sle.txPut (n : Nat) (ws : List Word) (x : Sle) : Sle :=
  if ws.isEmpty then x else
  { x with tx := x.tx ++ ws, txNew := (if x.txAt = n then x.txNew else 0) + ws.length, txAt := n }

/-- The TX words an engine can take now. -/
def Half.txSeen (h : Half) (e : Fin 8) : List Word := (h.eng e).txSeen (h.now / 4)

/-- A word leaves the TX queue; the message for TX_THR follows the crossing (R356). -/
def Half.txTake (e : Fin 8) (h : Half) : Option Word × Half :=
  match h.txSeen e with
  | [] => (none, h)
  | w :: _ =>
    let h1 := h.sleMap e (fun x => { x with tx := x.tx.tail })
    let t := sleCfg2TxThr (h1.eng e).cfg2
    (some w, if t ≠ 0 ∧ (h1.eng e).tx.length = t then h1.slThreshold 0x068 e else h1)

/-- OVR is set (R357, R371). -/
def Half.slOvr (e : Fin 8) (h : Half) : Half := (h.sleMap e (fun x => { x with ovr := true })).slEvent 0x44

/-- UNR is set (R357, R371). -/
def Half.slUnr (e : Fin 8) (h : Half) : Half := (h.sleMap e (fun x => { x with unr := true })).slEvent 0x45

/-! ### The shift register (R354) -/

/-- The IN_GOT bits at the in end of SR, right-justified (R354). -/
def Sle.got (x : Sle) : Word :=
  let n := x.inGot
  if sleCfg0SrDir x.cfg0 then BitVec.ofNat 32 (x.sr.toNat % 2 ^ n) else x.sr >>> (32 - n)

/-- Store the received bits (R354): there is room. -/
def Half.slStore (e : Fin 8) (h : Half) : Half :=
  (h.rxPush e (h.eng e).got).sleMap e (fun x => { x with inGot := 0 })

/-- STORE_AT, 0 meaning 32 (R367). -/
def Sle.storeAt (x : Sle) : Nat := if sleCfg1StoreAt x.cfg1 = 0 then 32 else sleCfg1StoreAt x.cfg1

/-- A word is loaded into SR by a fill: received bits not stored are stored under AUTOSTORE, else discarded with OVR
(R354). None where it has to wait. -/
def Half.slFill (e : Fin 8) (h : Half) : Option Half :=
  let x := h.eng e
  if (h.txSeen e).isEmpty then none
  else if 0 < x.inGot && sleCfg0Autostore x.cfg0 && !x.rxRoom then none
  else
    let h1 := if x.inGot = 0 then h else if sleCfg0Autostore x.cfg0 then h.slStore e else h.slOvr e
    match h1.txTake e with
    | (some w, h2) => some (h2.sleMap e (fun x => { x with sr := w, outLeft := 32, inGot := 0 }))
    | (none, _) => none

/-- N of a SHIFT, 0 meaning 32 (R351). -/
def shiftN (w : BitVec 24) : Nat := if slF w 14 10 = 0 then 32 else slF w 14 10

/-- Bit k of the group that leaves SR, counted from the out end; 0 once OUT_LEFT has run out (R354). -/
def Sle.leaveBit (x : Sle) (k : Nat) : Bool :=
  k < x.outLeft && x.sr.getLsbD (if sleCfg0SrDir x.cfg0 then 31 - k else k)

/-- The group that leaves SR as the number it forms in SR, bits beyond OUT_LEFT 0 (R354). -/
def Sle.leaving (x : Sle) (n : Nat) : Nat :=
  (List.range n).foldl (fun v k => v + bit (x.leaveBit k) * 2 ^ (if sleCfg0SrDir x.cfg0 then n - 1 - k else k)) 0

/-- The bits that enter SR (R351, R354). -/
def Half.entering (h : Half) (e : Fin 8) (from_ n : Nat) : Nat :=
  let x := h.eng e
  match from_ with
  | 0 => h.slIn e n
  | 1 => x.c0.toNat % 2 ^ n
  | 2 => x.c1.toNat % 2 ^ n
  | 4 => 2 ^ n - 1
  | 5 => x.tcnt.toNat % 2 ^ n
  | _ => 0

/-- SR moves N places (R354). -/
def Half.slMove (e : Fin 8) (w : BitVec 24) (h : Half) : Half :=
  let x := h.eng e
  let n := shiftN w
  let grp := x.leaving n
  let inn := h.entering e (slF w 7 5) n
  let h1 : Half := match slF w 9 8 with
    | 0 => eachOf (List.range n) (fun k h => h.slDrive e (sleCfg1OutBase x.cfg1 + k) (x.leaveBit k)) h
    | 1 => h.sleMap e (fun x => { x with c0 := (x.c0 <<< n) ||| BitVec.ofNat 32 grp })
    | _ => h
  h1.sleMap e (fun y => { y with
    sr := if sleCfg0SrDir x.cfg0 then (x.sr <<< n) ||| BitVec.ofNat 32 inn
          else (x.sr >>> n) ||| (BitVec.ofNat 32 inn <<< (32 - n)),
    outLeft := x.outLeft - n, inGot := min 32 (x.inGot + n) })

/-- A SHIFT after its bits have moved: store under AUTOSTORE, waiting for room (R354). -/
def Half.slShiftEnd (e : Fin 8) (w : BitVec 24) (h : Half) : Half :=
  let x := h.eng e
  if sleCfg0Autostore x.cfg0 && x.storeAt ≤ x.inGot then
    if x.rxRoom then (h.slStore e).slDone e w else (h.sleMap e (fun x => { x with mid := true })).slStall e
  else h.slDone e w

/-- A SHIFT (R351, R354): an automatic fill first, the move, an automatic store. -/
def Half.slShift (e : Fin 8) (w : BitVec 24) (h : Half) : Half :=
  let x := h.eng e
  if x.mid then h.slShiftEnd e w
  else if sleCfg0Autofill x.cfg0 && x.outLeft = 0 then
    match h.slFill e with
    | some h1 => (h1.slMove e w).slShiftEnd e w
    | none => h.slStall e
  else (h.slMove e w).slShiftEnd e w

/-! ### Halts, starts, group control (R358 to R360) -/

/-- A shift is in progress (R355). -/
def Sle.inShift (x : Sle) : Bool := 0 < x.inGot || 0 < x.outLeft

/-- A halt, whatever its cause (R360). -/
def Half.slHalt (e : Fin 8) (h : Half) : Half :=
  let x := h.eng e
  let h1 := h.sleMap e (fun x => { x with
    st := 1, stall := false, mid := false, wait := 0, outLeft := 0, inGot := 0, abandon := x.abandon || x.inShift })
  if x.inShift then h1.slEvent 0x46 else h1

/-- A start (R358): what the row of HALTED says; queues are kept. -/
def Sle.start (x : Sle) : Sle :=
  { x with st := 2, pc := sleCfg0Start x.cfg0, c0 := 0#32, c1 := 0#32, sr := 0#32, tcnt := 0#32, tprev := 0#32,
           outLeft := 0, inGot := 0, fall := none, rise := none, timeout := false, wait := 1, stall := false, mid := false }

/-- A LOAD to PC outside the region (R353, R358). -/
def Half.slAddrFault (e : Fin 8) (h : Half) : Half :=
  ((h.sleMap e (fun x => { x with addr := true })).slEvent 0x48).slHalt e

/-- The engines of a group a mask names. -/
def maskEngs (g : Fin 2) (m : Nat) : List (Fin 8) :=
  (List.range 4).filterMap (fun k => if m.testBit k then fin? 8 (4 * g.1 + k) else none)

/-- An engine starts (R358); its watch pin's level from here on is the first its latches compare with (R350). -/
def Half.slStart (e : Fin 8) (h : Half) : Half :=
  h.sleMap e (fun x => { x.start with seen := h.slPin (sleCfg0Wpin x.cfg0) })

/-- The action of a write to SLG_CTL (R359): starts, halts and clock restarts on one SLUCLK edge. -/
def Half.slgAct (g : Fin 2) (w : Word) (h : Half) : Half :=
  let h1 := eachOf (maskEngs g (fld w 31 28)) (fun e h => if (h.eng e).st = 1 then h.slStart e else h) h
  let h2 := eachOf (maskEngs g (fld w 27 24)) (fun e h => if (h.eng e).st = 2 then h.slHalt e else h) h1
  eachOf (maskEngs g (fld w 23 20)) (fun e h => h.sleMap e (fun x => { x with acc := 0 })) h2

/-- A write to SLG_CTL: at once, or at the next frame tick under FRAME_ALIGN, which stays as written (R359, R369); `req` says whether a
request waits for it. -/
def Half.slgCtl (g : Fin 2) (w : Word) (req : BitVec 16 × Bool) (h : Half) : Half :=
  let h1 := h.slgMap g (fun x => { x with align := w.getLsbD 19 })
  if w.getLsbD 19 then h1.slgMap g (fun x => { x with ctl := x.ctl ++ [(w, req)] }) else h1.slgAct g w

/-! ### Swaps (R361 to R363) -/

/-- The engine of a new configuration: words SLE_CFG0, CFG1, CFG2, CLK, TLIM (R361, R433). -/
def Sle.config (c : List Word) (x : Sle) : Sle :=
  let c0 := writeRw x.cfg0 (c.getD 0 0#32) sleCfg0Rw
  let join := sleCfg0Join c0 ≠ sleCfg0Join x.cfg0
  { x with cfg0 := c0, cfg1 := writeRw x.cfg1 (c.getD 1 0#32) sleCfg1Rw, cfg2 := writeRw x.cfg2 (c.getD 2 0#32) sleCfg2Rw,
           clk := writeRw x.clk (c.getD 3 0#32) sleClkRw, tlim := c.getD 4 0#32,
           tx := if join then [] else x.tx, rx := if join then [] else x.rx }

/-- An engine with its registers, counter, latches and queues cleared, HALTED (R358, row OFF). -/
def Sle.cleared (x : Sle) : Sle :=
  { x with st := 1, pc := 0, c0 := 0#32, c1 := 0#32, sr := 0#32, tcnt := 0#32, tprev := 0#32, outLeft := 0, inGot := 0,
           fall := none, rise := none, timeout := false, tx := [], rx := [], stall := false, mid := false, wait := 0 }

/-- The swap on one named engine (R358, R362). -/
def Half.slSwap (e : Fin 8) (c : List Word) (h : Half) : Half :=
  let h1 := h.sleMap e (Sle.config c)
  if (h.eng e).st = 2 then h1.slStart e
  else if (h.eng e).st = 0 && sleCfg0Valid (h1.eng e).cfg0 then h1.sleMap e Sle.cleared else h1

/-- Every engine the pending load names is HALTED, or RUNNING with no shift in progress (R362). -/
def Half.swapReady (h : Half) (g : Fin 2) : Bool :=
  match (h.slg g).swap with
  | some s => (maskEngs g s.mask).all (fun e => (h.eng e).st ≠ 2 || !(h.eng e).inShift)
  | none => false

/-- The swap takes place; the completion of the load is posted with a status (R362, R363). -/
def Half.doSwap (g : Fin 2) (status : Nat) (h : Half) : Half :=
  match (h.slg g).swap with
  | none => h
  | some s =>
    let h1 := h.slgMap g (fun x => { x with bank := !x.bank, swap := none })
    (eachOf (maskEngs g s.mask) (fun e h => h.slSwap e ((s.cfgs.lookup e.1).getD [])) h1).emit
      (.done 3 s.req.1 status [])

/-- A forced swap (R363): every named engine with a shift in progress is halted and restarts after it. -/
def Half.forceSwap (g : Fin 2) (h : Half) : Half :=
  match (h.slg g).swap with
  | none => h
  | some s =>
    let mid := (maskEngs g s.mask).filter (fun e => (h.eng e).st = 2 && (h.eng e).inShift)
    let h1 := eachOf mid (fun e h => h.slHalt e) h
    let h2 := (h1.doSwap g 0x012A)
    (eachOf mid (fun e h => h.slStart e) h2).slEvent 0x49

/-- A load for a group replaces the shadow content; an earlier load that waits is SUPERSEDED (R361, R363). -/
def Half.loadShadow (g : Fin 2) (img : List (BitVec 24)) (s : Swap) (h : Half) : Half :=
  let h1 := match (h.slg g).swap with
    | some o => h.emit (.done 3 o.req.1 0x0106 [])
    | none => h
  let v : Vector (BitVec 24) 48 := Vector.ofFn (fun i => img.getD i.1 0#24)
  h1.slgMap g (fun x => { x with
    bank0 := if x.bank then v else x.bank0, bank1 := if x.bank then x.bank1 else v, swap := some s })

/-! ### Checks of a program (R348, R351, R353, R354, R361, R366, R367) -/

/-- A word none of whose values the tables mark reserved (R351). -/
def slWordOk (w : BitVec 24) : Bool :=
  slF w 19 18 ≠ 3 &&
  match slOp w with
  | 0 => slF w 10 10 = 0 && slF w 14 11 ≤ 13 && (slF w 14 11 = 13 || slF w 9 6 = 0)
  | 1 => slF w 10 6 = 0 && slF w 14 12 ≠ 7 && (slF w 14 12 ≠ 2 || slF w 5 0 ≤ 15)
  | 2 => slF w 4 0 = 0 && slF w 9 8 ≠ 3 && slF w 7 5 ≤ 5
  | 3 => slF w 12 0 = 0
  | 4 => slF w 10 0 = 0 && slF w 14 12 ≤ 4
  | 5 => slF w 13 5 = 0
  | 6 => slF w 14 12 ≤ 4 && (slF w 11 11 = 1 || (slF w 10 3 = 0 && slF w 2 0 ≠ 7))
  | 7 => slF w 11 11 = 0 && (slF w 14 12 ≠ 6 || slF w 10 5 = 0)
  | 8 => slF w 14 13 ≠ 3 && slF w 12 4 = 0 && (slF w 14 13 ≠ 2 || slF w 3 3 = 0)
  | _ => false

/-- INT is not 0 (R348), and a VALID engine's words agree with the program (R353, R354, R366, R367). -/
def slEngOk (img : List (BitVec 24)) (c0 c1 c2 clk : Word) : Bool :=
  let lo := sleCfg2RegLo c2
  let hi := sleCfg2RegHi c2
  let inR (a : Nat) : Bool := lo ≤ a && a ≤ hi
  let last := img.getD hi 0#24
  sleClkInt clk ≠ 0 && (!sleCfg0Valid c0 ||
  (sleCfg0Join c0 ≠ 3 && lo ≤ hi && hi ≤ 47 && inR (sleCfg0Start c0) && inR (sleCfg0LoopAt c0) &&
   (List.range 48).all (fun a =>
     let w := img.getD a 0#24
     !inR a || ((slOp w ≠ 0 || inR (slF w 5 0)) && (slOp w ≠ 2 || slF w 9 8 ≠ 0 || shiftN w ≤ sleCfg1OutCnt c1))) &&
   (slF last 19 18 = 1 || (slOp last = 0 && slF last 14 11 = 0)) &&
   sleCfg1OutCnt c1 ≤ 32 && (sleCfg1OutCnt c1 = 0 || sleCfg1OutBase c1 + sleCfg1OutCnt c1 ≤ 64) && sleCfg1DrvCnt c1 ≤ 5 &&
   (sleCfg1DrvCnt c1 = 0 || sleCfg1DrvBase c1 + sleCfg1DrvCnt c1 ≤ 64) && sleCfg2RxThr c2 ≤ 8 && sleCfg2TxThr c2 ≤ 8))

/-- The pin indices of an engine's OUT and DRV windows (R345). -/
def slWindow (c1 : Word) : List Nat :=
  (List.range (sleCfg1OutCnt c1)).map (sleCfg1OutBase c1 + ·) ++ (List.range (sleCfg1DrvCnt c1)).map (sleCfg1DrvBase c1 + ·)

/-- A pin can be claimed for an engine (R198, R201, R345): it is the engine's, or nobody's. -/
def Half.slClaimable (h : Half) (e : Fin 8) (i : Nat) : Bool :=
  h.slOwns e i ||
  match fin? 16 i, fin? 48 (i - 16) with
  | some n, _ => slpCfgOwner (h.slu.pins.get n).cfg = 0 && (h.slu.pins.get n).claim = none
  | none, some m => outCfgSrc (h.chans.get m).out = 0 && (h.chans.get m).claim = none
  | none, none => false

/-- A run-time claim comes or goes (R201): until its owner, if any, makes it an output, the pin is an input (R346). -/
def SlPin.claimBy (c : Option (Nat × Nat)) (p : SlPin) : SlPin := { p with claim := c, dir := false, cfg := p.cfg &&& ~~~(putB true 19) }

/-- A run-time claim of rank 4 on a pin nobody holds (R201). -/
def Half.slClaim (e : Fin 8) (i : Nat) (h : Half) : Half :=
  if h.slOwns e i then h else
  match fin? 16 i, fin? 48 (i - 16) with
  | some n, _ => { h with slu := { h.slu with pins := upd h.slu.pins n (SlPin.claimBy (some (4, e.1))) } }
  | none, some m => (h.chanMap m (fun c => { c with claim := some (4, e.1) })).settle1 m
  | none, none => h

/-- The load changes no word within the region of a VALID engine it does not name (R361). -/
def Half.slKeeps (h : Half) (g : Fin 2) (mask : Nat) (img : List (BitVec 24)) : Bool :=
  (maskEngs g (15 - mask % 16)).all (fun e =>
    let x := h.eng e
    !sleCfg0Valid x.cfg0 || (List.range 48).all (fun a =>
      !(sleCfg2RegLo x.cfg2 ≤ a && a ≤ sleCfg2RegHi x.cfg2) || (h.slg g).active.toArray.getD a 0#24 = img.getD a 0#24))

/-! ### The steward and the queues (R356, R364, R365, R439) -/

/-- A good SENT frame gives its value, first nibble highest, its status nibble, and a serial message where the frames of 18 status nibbles
complete one (R365, R432). -/
def sentValue (l : LibCfg) (fr : Word) (all : List Nat) (v : LibVal) : LibVal :=
  let st := all.headD 0
  let sts := (st :: v.status).take 18
  { v with
    nibs := none, pauseD := false, value := ((all.drop 1).take l.dataN).foldl (fun a b => a * 16 + b) 0 + st * 2 ^ 24, frame := fr, err := false
    have_ := true, status := sts
    serial := if l.serial = 0 then v.serial else match Config.sentSerial l.serial sts with
      | some m => some (m, fr)
      | none => v.serial }

/-- SENT decoding takes one interval (R365): the value after it and whether a frame was discarded. With PAUSE the frame is complete, and its
value good, only after a pause of 12 to 768 ticks. -/
def sentStep (l : LibCfg) (fr : Word) (c : Nat) (v : LibVal) : LibVal × Bool :=
  let tNom : Rat := (l.tNom * 2 / 5 : Rat)
  let bad : LibVal := { v with sync := none, nibs := none, pauseD := false, err := true }
  match v.sync, v.nibs with
  | some s, some ns =>
    let x : Rat := (c * 56 : Rat) / (s : Rat)
    if v.pauseD then (if x < 12 || x > 768 then (bad, true) else (sentValue l fr ns v, false)) else
    let n := roundRat x - 12
    if x - (n + 12 : Int) > 2 / 5 || ((n + 12 : Int) : Rat) - x > 2 / 5 || n < 0 || n > 15 then (bad, true)
    else
      let all := ns ++ [n.toNat]
      if all.length < l.dataN + 2 then ({ v with nibs := some all }, false)
      else if Config.sentCrc l.crcLeg (all.take (l.dataN + 1)) ≠ n.toNat then (bad, true)
      else if l.pause then ({ v with nibs := some all, pauseD := true }, false)
      else (sentValue l fr all v, false)
  | some s, none =>
    if (c : Rat) ≥ tNom * 56 * 4 / 5 && (c : Rat) ≤ tNom * 56 * 6 / 5 && c * 64 ≤ s * 65 && s * 63 ≤ c * 64 then
      ({ v with sync := some c, nibs := some [] }, false)
    else (bad, true)
  | none, _ =>
    if (c : Rat) ≥ tNom * 56 * 4 / 5 && (c : Rat) ≤ tNom * 56 * 6 / 5 then
      ({ v with sync := some c, nibs := some [], pauseD := false }, false)
    else (v, false)

/-- A library engine's RX word reaches its decoder (R364, R432): whether a frame was discarded. -/
def libStep (l : LibCfg) (fr : Word) (w : Word) (v : LibVal) : LibVal × Bool :=
  match l.prog with
  | 0 => sentStep l fr w.toNat v
  | 1 => ({ v with value := w.toNat % 2 ^ l.bits, frame := fr, err := false, have_ := true, asked := false }, false)
  | 2 =>
    match v.words with
    | [] => ({ v with words := [w] }, false)
    | lo :: _ => ({ v with words := [], value := lo.toNat + 2 ^ 32 * w.toNat, frame := fr, err := false, have_ := true, asked := false }, false)
  | _ => (v, false)

/-- A decoder with nothing taken. -/
def LibVal.zero : LibVal := ⟨none, none, false, [], 0, 0#32, false, false, [], none, none, false⟩

/-- A read of a library engine that ends without its value leaves the value in error (R445). -/
def LibVal.readEnds (v : LibVal) : LibVal := { v with err := v.err || v.asked, asked := false }

/-- What a library program is due to begin at this frame (R364, R432): SPI_RD a read every period, a read without its value by then not
completed (R445); OWI_ID one read at each start of service; TBUS_TX a pattern every period. `run` says that the engine is RUNNING. The
words go to the engine's TX queue (log 115). -/
def libBegin (l : LibCfg) (run : Bool) (fr : Word) (v : LibVal) : LibVal × List Word :=
  let due (n : Nat) : Bool := match v.begun with
    | none => true
    | some b => (n : Int) ≤ frameDiff fr b
  if !run then (v.readEnds, []) else
  match l.prog with
  | 1 => if due (100 * l.period) then ({ v.readEnds with begun := some fr, asked := true }, [Config.spiWord l.sclk l.addr l.bits]) else (v, [])
  | 2 => if v.begun.isNone then ({ v with begun := some fr, asked := true }, []) else (v, [])
  | 3 => if due l.period then ({ v with begun := some fr }, [l.pattern]) else (v, [])
  | _ => (v, [])

/-- Words of a library engine's RX queue go through its decoder; each discarded frame raises SENT_FRAME_ERR (R365). -/
def libTake (l : LibCfg) (fr : Word) : List Word → LibVal × Nat → LibVal × Nat
  | [], r => r
  | w :: ws, (v, n) =>
    let (v1, b) := libStep l fr w v
    libTake l fr ws (v1, n + bit b)

/-- `n` times an operation of a half. -/
def timesH : Nat → (Half → Half) → Half → Half
  | 0, _, h => h
  | n + 1, f, h => timesH n f (f h)

/-- The library entries of this half with their numbers in the image. -/
def Half.myLibs (h : Half) : List (LibCfg × Nat) := (h.cfg.libs.zipIdx).filter (fun x => x.1.half = h.id)

/-- Foreground step 2 on the sluice queues (R356, R364, R439): library engines are drained and decoded, and their reads and patterns begin; the other
engines' TX queues are filled from and RX queues drained into the steward's buffers, while the buffers have words and
room. -/
def Half.slService (h : Half) : Half :=
  let h1 := eachOf h.myLibs (fun x h =>
    let ws := (h.eng x.1.eng).rx
    let (v, n) := libTake x.1 h.frame ws ((h.slu.libs.getD x.2 LibVal.zero), 0)
    let (v1, ts) := libBegin x.1 ((h.eng x.1.eng).st = 2) h.frame v
    let h2 : Half := { h with slu := { h.slu with libs := h.slu.libs.set x.2 v1 } }
    timesH n (Half.slEvent 0x4A) (h2.sleMap x.1.eng (fun e =>
      { e with rx := [] }.txPut (h.now / 4) (ts.take (e.txCap - e.tx.length))))) h
  eachIdx 8 (fun e h =>
    if h.myLibs.any (fun x => x.1.eng = e) then h else
    h.sleMap e (fun x =>
      let put_ := min x.txb.length (x.txCap - x.tx.length)
      let get_ := min x.rx.length (64 - x.rxb.length)
      { x with txb := x.txb.drop put_, rxb := x.rxb ++ x.rx.take get_, rx := x.rx.drop get_ }.txPut (h.now / 4) (x.txb.take put_))) h1

/-- A frame tick on the sluice engines: actions that waited for it, then the start after a commit (R358, R359). -/
def Half.slTick (h : Half) : Half :=
  let h1 := eachIdx 2 (fun g h =>
    let acts := (h.slg g).ctl
    let h0 := h.slgMap g (fun x => { x with ctl := [] })
    eachOf acts (fun a h => if a.2.2 then (h.slgAct g a.1).emit (.done 3 a.2.1 0 []) else h.slgAct g a.1) h0) h
  if !h1.slu.auto then h1 else
  let h2 : Half := { h1 with slu := { h1.slu with auto := false } }
  eachIdx 8 (fun e h => 
    let x := h.eng e
    if x.st = 1 && sleCfg0Autostart x.cfg0 && sleCfg0Valid x.cfg0 then h.slStart e else h) h2

/-- SLE_STAT (R368). -/
def Sle.stat (x : Sle) : Word :=
  put x.st 2 30 ||| putB x.stall 29 ||| putB x.inShift 28 ||| put x.pc 6 22 ||| put x.rx.length 4 18 ||| put x.tx.length 4 14 |||
    putB x.ovr 13 ||| putB x.unr 12 ||| putB x.abandon 11 ||| putB x.lost 10 ||| putB x.addr 9

/-- A write to SLE_STAT clears the sticky bits written as 1 (R17, R368). -/
def Sle.statW1c (v : Word) (x : Sle) : Sle :=
  { x with ovr := x.ovr && !v.getLsbD 13, unr := x.unr && !v.getLsbD 12, abandon := x.abandon && !v.getLsbD 11,
           lost := x.lost && !v.getLsbD 10, addr := x.addr && !v.getLsbD 9 }

/-- SLG_STAT (R369). -/
def Slg.stat (x : Slg) : Word :=
  putB x.swap.isSome 31 ||| put (match x.swap with | some s => s.mask | none => 0) 4 27 ||| putB x.bank 26 ||| put x.flags.toNat 16 10

/-! ### The instructions (R351, R352) -/

/-- TEST of a JUMP holds (R351). -/
def Half.slTest (h : Half) (e : Fin 8) (w : BitVec 24) : Bool :=
  let x := h.eng e
  match slF w 14 11 with
  | 0 => true
  | 1 => x.c0 = 0#32
  | 2 => x.c0 ≠ 0#32
  | 3 => x.c1 ≠ 0#32
  | 4 => x.c0 = x.c1
  | 5 => x.c0.toNat < x.c1.toNat
  | 6 => h.slPin (sleCfg0Wpin x.cfg0)
  | 7 => !h.slPin (sleCfg0Wpin x.cfg0)
  | 8 => x.timeout
  | 9 => x.outLeft = 0
  | 10 => x.storeAt ≤ x.inGot
  | 11 => x.tx.isEmpty
  | 12 => !x.rxRoom
  | 13 => (h.slg (grpOf e)).flags.getLsbD (slF w 9 6)
  | _ => false

/-- JUMP. -/
def Half.slJump (e : Fin 8) (w : BitVec 24) (h : Half) : Half :=
  if h.slTest e w then h.sleMap e (Sle.branch w (slF w 5 0)) else h.slDone e w

/-- The latch of a polarity. -/
def Sle.latch (x : Sle) (rising : Bool) : Option Word := if rising then x.rise else x.fall

/-- A latch set to a value. -/
def Sle.setLatch (rising : Bool) (v : Option Word) (x : Sle) : Sle := if rising then { x with rise := v } else { x with fall := v }

/-- The condition of a WAIT holds (R351). -/
def Half.slCond (h : Half) (e : Fin 8) (w : BitVec 24) : Bool :=
  let x := h.eng e
  let pol := slF w 11 11 = 1
  match slF w 14 12 with
  | 0 => h.slPin (slF w 5 0) = pol
  | 1 => (x.latch pol).isSome
  | 2 => (h.slg (grpOf e)).flags.getLsbD (slF w 5 0) = pol
  | 3 => x.stall && x.begFrame ≠ h.frame
  | 4 => !x.tx.isEmpty
  | 5 => x.rxRoom
  | 6 => (if x.stall then (x.tcnt - x.beg).toNat else 0) ≥ x.c0.toNat
  | _ => false

/-- WAIT. -/
def Half.slWait (e : Fin 8) (w : BitVec 24) (h : Half) : Half :=
  if h.slCond e w then
    (if slF w 14 12 = 1 then h.sleMap e (Sle.setLatch (slF w 11 11 = 1) none) else h).slDone e w
  else h.slStall e

/-- STAMP with ARM = 1: the latch is cleared when it begins; TPREV takes the edge it waits for (R351). -/
def Half.slStampArm (e : Fin 8) (w : BitVec 24) (h : Half) : Half :=
  let x := h.eng e
  let pol := slF w 14 14 = 1
  if !x.stall then (h.sleMap e (Sle.setLatch pol none)).slStall e
  else match x.latch pol with
    | some v => (h.sleMap e (fun x => { x.setLatch pol none with tprev := v, timeout := false })).slDone e w
    | none => h

/-- STAMP with ARM = 0 (R351). -/
def Half.slStampMeasure (e : Fin 8) (w : BitVec 24) (h : Half) : Half :=
  let pol := slF w 14 14 = 1
  match (h.eng e).latch pol with
  | some v => (h.sleMap e (fun x => { x.setLatch pol none with c0 := v - x.tprev, tprev := v, timeout := false })).slDone e w
  | none => h.slStall e

/-- The ticks left until a STAMP ends by timeout (R352). -/
def Sle.timeoutIn (x : Sle) : Nat := x.tlim.toNat - (x.tcnt - x.tprev).toNat

/-- A STAMP ends by timeout (R352). -/
def Half.slTimeout (e : Fin 8) (w : BitVec 24) (h : Half) : Half :=
  (h.sleMap e (fun x => { x with c0 := x.tlim, tprev := x.tcnt, timeout := true })).slDone e w

/-- QUEUE (R351, R357). -/
def Half.slQueue (e : Fin 8) (w : BitVec 24) (h : Half) : Half :=
  let x := h.eng e
  let block := slF w 11 11 = 1
  match slF w 14 12 with
  | 0 =>
    match h.slFill e with
    | some h1 => h1.slDone e w
    | none => if block || !(h.txSeen e).isEmpty then h.slStall e else (h.slUnr e).slDone e w
  | 1 =>
    if x.rxRoom then (h.slStore e).slDone e w
    else if block then h.slStall e
    else ((h.sleMap e (fun x => { x with inGot := 0 })).slOvr e).slDone e w
  | 2 =>
    if x.rxRoom then (h.rxPush e x.c0).slDone e w
    else if block then h.slStall e
    else (h.slOvr e).slDone e w
  | n =>
    match h.txTake e with
    | (some v, h1) => (h1.sleMap e (fun x => if n = 3 then { x with c0 := v } else { x with c1 := v })).slDone e w
    | (none, _) => if block then h.slStall e else (h.slUnr e).slDone e w

/-- PINS (R351): TGT 0 levels, TGT 1 directions. -/
def Half.slPins (e : Fin 8) (w : BitVec 24) (h : Half) : Half :=
  let c1 := (h.eng e).cfg1
  (eachOf (List.range (min 5 (sleCfg1DrvCnt c1))) (fun k h =>
    let b := (slF w 4 0).testBit k
    if slF w 14 14 = 0 then h.slDrive e (sleCfg1DrvBase c1 + k) b else h.slDir e (sleCfg1DrvBase c1 + k) b) h).slDone e w

/-- LOAD (R351, R353). -/
def Half.slLoad (e : Fin 8) (w : BitVec 24) (h : Half) : Half :=
  let x := h.eng e
  let v : Word := if slF w 11 11 = 1 then BitVec.ofNat 32 (slF w 10 0) else
    match slF w 2 0 with
    | 0 => x.c0
    | 1 => x.c1
    | 2 => x.sr
    | 3 => x.tcnt
    | 4 => BitVec.ofNat 32 (h.slIn e 32)
    | 5 => ~~~x.c0
    | _ => 0#32
  match slF w 14 12 with
  | 0 => (h.sleMap e (fun x => { x with c0 := v })).slDone e w
  | 1 => (h.sleMap e (fun x => { x with c1 := v })).slDone e w
  | 2 => (h.sleMap e (fun x => { x with sr := v, outLeft := 32, inGot := 0 })).slDone e w
  | 3 =>
    if sleCfg2RegLo x.cfg2 ≤ v.toNat && v.toNat ≤ sleCfg2RegHi x.cfg2 then h.sleMap e (Sle.branch w v.toNat)
    else h.slAddrFault e
  | _ => (h.sleMap e (fun x => { x with tprev := v })).slDone e w

/-- COUNT (R351). -/
def Half.slCount (e : Fin 8) (w : BitVec 24) (h : Half) : Half :=
  let imm : Word := BitVec.ofNat 32 (slF w 10 0)
  (h.sleMap e (fun x => match slF w 14 12 with
    | 0 => { x with c0 := x.c0 + imm }
    | 1 => { x with c0 := x.c0 - imm }
    | 2 => { x with c1 := x.c1 + imm }
    | 3 => { x with c1 := x.c1 - imm }
    | 4 => { x with c0 := x.c0 - x.c1 }
    | 5 => { x with c0 := x.c0 + x.c1 }
    | 6 => { x with c0 := x.c0 >>> slF w 4 0 }
    | _ => { x with c0 := x.c0 &&& imm })).slDone e w

/-- A group flag is set at the SLUCLK period `n`. -/
def Slg.setFlag (n : Nat) (b : BitVec 16) (g : Slg) : Slg :=
  { g with flags := g.flags ||| b, sets := (if g.setAt = n then g.sets else 0#16) ||| b, setAt := n }

/-- A group flag is cleared at the SLUCLK period `n`, but not one set in that period: the set wins (R353). -/
def Slg.clearFlag (n : Nat) (b : BitVec 16) (g : Slg) : Slg :=
  { g with flags := g.flags &&& ~~~(if g.setAt = n then b &&& ~~~g.sets else b) }

/-- SIGNAL (R351): set or clear a group flag, or a Weir message with INDEX[2:0] as its value. -/
def Half.slSignal (e : Fin 8) (w : BitVec 24) (h : Half) : Half :=
  let i := slF w 3 0
  let b : BitVec 16 := BitVec.ofNat 16 (2 ^ i)
  (match slF w 14 13 with
    | 0 => h.slgMap (grpOf e) (Slg.setFlag (h.now / 4) b)
    | 1 => h.slgMap (grpOf e) (Slg.clearFlag (h.now / 4) b)
    | _ => h.emit (.weir (h.id.weirBase + 0x020 + 8 * e.1 + i % 8) 0 false h.frame (BitVec.ofNat 32 (i % 8)))).slDone e w

/-- The instruction at PC, by its OP. -/
def Half.slExec (e : Fin 8) (h : Half) : Half :=
  let w := h.slWord e
  match slOp w with
  | 0 => h.slJump e w
  | 1 => h.slWait e w
  | 2 => h.slShift e w
  | 3 => if slF w 13 13 = 1 then h.slStampArm e w else h.slStampMeasure e w
  | 4 => h.slQueue e w
  | 5 => h.slPins e w
  | 6 => h.slLoad e w
  | 7 => h.slCount e w
  | 8 => h.slSignal e w
  | _ => h

/-- The watch pin is sampled at a tick (R350): an edge since the sample before is latched with TCNT of this tick, or dropped with
EDGE_LOST where the latch of its polarity still holds one. -/
def Half.slEdge (e : Fin 8) (h : Half) : Half :=
  let x := h.eng e
  let lvl := h.slPin (sleCfg0Wpin x.cfg0)
  if x.st ≠ 2 || lvl = x.seen then h
  else if (x.latch lvl).isSome then (h.sleMap e (fun x => { x with seen := lvl, lost := true })).slEvent 0x47
  else h.sleMap e (fun x => { x.setLatch lvl (some x.tcnt) with seen := lvl })

end Sys2Proof.Machine
end

