-- ==== Sys2Proof/Machine/Acquisition.lean ====
section
/-! DEFINITION. Acquisition beyond requests (R275 to R308): delays, timers, the angle clock, crossings, conversion
records, references, background calibration, the test DAC, the status registers. -/

namespace Sys2Proof.Machine

open Sys2Proof

/-! ### Triggers (R277 to R284) -/

/-- The trigger of a line that becomes a request next (R279): after a change of DELAY it need not be the oldest (R289). -/
def firstDue : List DelayT → Option DelayT
  | [] => none
  | d :: t =>
    match firstDue t with
    | some x => if x.req < d.req then some x else some d
    | none => some d

/-- The DELAY of a trigger of a line runs out (R279): a request to each sequencer of TARGET. -/
def Half.delayEnds (t : Fin 32) (h : Half) : Half :=
  let l := h.acq.lines.get t
  match firstDue l.stage with
  | none => h
  | some d =>
    if h.now < d.req then h else
    let h1 := h.acqMap (fun a => { a with lines := upd a.lines t (fun l => { l with stage := l.stage.erase d }) })
    eachOf (targets (trgCfg0Target l.cfg0)) (fun q => Half.request q ⟨t.1, trgCfg0Src l.cfg0, d.req, d.step, d.pt⟩) h1

/-- The instant of the next multiple of STEP that the cycle angle reaches (R278); none while it holds or the clock is off. -/
def Half.aclkNext (h : Half) : Option Nat :=
  let w := h.acq.aclk
  if !aclkCfgEn w || !h.trk.fires || h.trk.src.inc = 0 then none else
  let m := aclkMult w h.cyc + 1
  let goal : Int := (m * (aclkStep20 w : Nat) * 65536 + 19) / 20
  some (h.now + ((goal - h.cyc).toNat * 2 ^ 24 - h.trk.src.acc % 2 ^ 24 + h.trk.src.inc - 1) / h.trk.src.inc)

/-- The angle clock triggers its lines with the point reached and the corrections passed with it (R278, R313). -/
def Half.aclkFire (h : Half) : Half :=
  let w := h.acq.aclk
  if !aclkCfgEn w || !h.trk.fires then h else
  let m := aclkMult w h.cyc
  if h.acq.aclkAt = some m then h else
  (h.acqMap (fun a => { a with aclkAt := some m })).triggerSrc 1 none false
    (some (m * (aclkStep20 w : Nat), (h.tws.cyl.map (·.c)).toList))

/-- An acquisition timer's PERIOD expires (R278, R280): its lines trigger and the period runs again. -/
def Half.timerExpire (n : Fin 4) (h : Half) : Half :=
  let w := h.acq.tmr.get n
  if !acqTmrEn w || acqTmrPeriod w = 0 || h.now < h.acq.tmrAt.get n then h else
  (h.acqMap (fun a => { a with tmrAt := put1 a.tmrAt n (a.tmrAt.get n + acqTmrPeriod w) })).triggerSrc 2 (some n.1) false none

/-- A frame tick on acquisition (R280, R289, R293): STEP and PERIOD written by the host take effect, FSYNC timers restart, an angle clock that
stopped starts anew, and the calibration at enable ends within its 1 ms. -/
def Half.acqTick (h : Half) : Half :=
  let h1 := h.acqMap (fun a => { a with
    aclk := a.aclkNew.getD a.aclk, aclkNew := none,
    aclkAt := if aclkCfgEn a.aclk && h.trk.fires then a.aclkAt else none,
    tmr := Vector.ofFn (fun n => (a.tmrNew.get n).getD (a.tmr.get n)), tmrNew := Vector.replicate 4 none })
  h1.acqMap (fun a => { a with tmrAt := Vector.ofFn (fun n =>
    if acqTmrFsync (a.tmr.get n) || h.acq.tmrNew.get n ≠ none then h.now + acqTmrPeriod (a.tmr.get n) else a.tmrAt.get n) })

/-- XING triggers may occur (R283). -/
def Half.xingWindow (h : Half) : Bool := !(h.trk.st = 4 || h.trk.st = 5) || h.acq.session.isSome

/-- A crossing of a comparator (R278, R283, R297). -/
def Half.crossing (g : Fin 12) (rising : Bool) (h : Half) : Half :=
  let x := h.acq.xc.get g
  if !xcCfgEn x.cfg then h else
  let h0 := h.acqMap (fun a => { a with xc := upd a.xc g (fun x => { x with live := rising }) })
  if !(xcCfgEdge x.cfg = 2 || xcCfgEdge x.cfg = (if rising then 0 else 1)) then h0 else
  let h1 := h0.acqMap (fun a => { a with xc := upd a.xc g (fun x => { x with ts := h.ts, pol := rising, cnt := satInc 16 x.cnt }) })
  let h2 := if xcCfgWeir x.cfg && !(g ∈ h.cfg.xcLevel) then
      h1.emit (.weir (h.id.weirBase + 0x010 + g.1) 2 false h.frame (putB rising 0)) else h1
  if h.xingWindow then h2.triggerSrc 4 (some g.1) false none else h2

/-! ### Sequences and records (R285 to R292) -/

/-- A sequencer stops being busy (R268, R286): the request it holds is taken, without lateness where it came in the CONVCLK period of this
end (R285); a further one of that period finds the sequencer busy again. -/
def Half.seqEnd (q : Fin 9) (h : Half) : Half :=
  let s := h.acq.seqs.get q
  match s.run with
  | none => h
  | some r =>
    if h.now < r.endAt then h else
    let h1 := h.seqMap q (fun s => { s with run := none, held := [] })
    match s.held with
    | rq :: rest => eachOf rest (Half.request q) (h1.takeReq q rq (max r.endAt rq.at_) (convEdge rq.at_ < r.endAt))
    | [] => h1

/-- The instant at which a record is complete (R268): after the last hold. -/
def Run.doneAt (q : Nat) (r : Run) : Nat :=
  r.holdOf q (r.made - 1) + (if q = 0 then 320 else if q ≤ 6 then 64 else 128)

/-- The position is converted by the spare (R291). -/
def Run.bySpare (q : Nat) (r : Run) (p : Nat) : Bool := if q = 0 then r.spare = p else r.spare = 0

/-- The voltage on the path of an input that the test DAC drives in mode VOLT (R298): MANUAL's CODE, or the nearer of GAIN's two levels,
within 0.05 % of span; where in that band it lies, and which of the two levels is on, is the outside's. The other test leaves the pin on. -/
def Half.driven (h : Half) (vss : Int) (i : Nat) (uv : Int) : Int :=
  let w := h.acq.tdac.cfg
  let (span, ofs) := rangeAt (max 1 vss) i (h.acq.ain.toArray.getD i 0#32)
  let level (n d : Nat) : Int := ofs - span / 2 + span * n / d
  let near (x : Int) : Int := max (x - span / 2000) (min (x + span / 2000) uv)
  match tdacCfgTest w with
  | 0 => uv
  | 1 => if 2 * uv < level 1 10 + level 9 10 then near (level 1 10) else near (level 9 10)
  | _ => near (level (tdacCfgCode w) 4096)

/-- The converted positions of a run with their order, code and clamp, from the voltages at the inputs and the sensor supplies in
microvolts; the test DAC drives the inputs it acted on at their hold (R298). -/
def Half.converted (h : Half) (q : Fin 9) (r : Run) (volts vss : List Int) : List (Nat × Nat × BitVec 16 × Bool) :=
  ((r.poss.take r.made).zipIdx).map (fun x =>
    let i := seqInput q.1 x.1
    let v := vss.getD x.2 vssNominal
    let uv := volts.getD x.2 0
    let c := codeOf v i (h.acq.ain.toArray.getD i 0#32) (if r.test.contains x.1 then h.driven v i uv else uv)
    (x.1, x.2, c.1, c.2))

/-- A conversion record is written (R290 to R292): ring, LAST, and the analysis lanes for an angle-clock record of SEQ 0. -/
def Half.writeRecord (q : Fin 9) (volts vss : List Int) (h : Half) : Half :=
  match (h.acq.seqs.get q).toWrite with
  | [] => h
  | r :: rest =>
    if h.now < r.doneAt q.1 then h else
    let cs := h.converted q r volts vss
    let inRec (l : List Nat) : Bool := cs.any (fun c => c.1 ∈ l)
    let sat_ := cs.any (fun c => c.2.2.2)
    let step : Bool := r.req.step
    let late : Nat := if r.late then sat 8 (roundFree 4 (r.hold - r.req.at_ : Nat) 10).toNat else 0
    let smp : List (BitVec 16) := (List.range 12).map (fun p => match cs.find? (fun c => c.1 = p) with
      | some c => c.2.2.1
      | none => 0x8000#16)
    let rc : ConvRec := ⟨BitVec.ofNat 32 r.hold,
      infoWord r.req.line q.1 r.spare late r.req.src false r.late r.rst.isSome (inRec r.refBad) (inRec r.test) sat_ step, smp⟩
    let h1 := h.acqMap (fun a => { a.push rc with
      seqs := upd a.seqs q (fun s => { s with toWrite := rest }),
      late := if r.late then satInc 11 a.late else a.late,
      last := eachOf cs (fun c l => match fin? 48 (seqInput q.1 c.1) with
        | some i => put1 l i ⟨c.2.2.1, some (r.holdOf q.1 c.2.1), c.1 ∈ r.refBad, c.1 ∈ r.test, c.2.2.2, r.bySpare q.1 c.1⟩
        | none => l) a.last })
    let h2 := if r.late then h1.raise 0x30 (locSense h.id) else h1
    match r.req.pt with
    | some (ang, cks) =>
      if q.1 = 0 && r.req.src = 1 then
        eachIdx 12 (fun j h =>
          let l := h.ana.lanes.get j
          if !l.en then h else
          let code := smp.getD j.1 0x8000#16
          let ck := match h.entry l.cyl with | some k => cks.getD k.1 0 | none => 0
          let conv := cs.find? (fun c => c.1 = j.1)
          let bad := conv.isNone || j.1 ∈ r.refBad || j.1 ∈ r.test || (conv.any (fun c => c.2.2.2))
          h.laneSmp j ang ck code (!bad) (r.bySpare q.1 j.1) (h.acq.ssShed.get j) (match conv with | some c => vss.getD c.2.1 vssNominal | none => vssNominal) r.hold) h2
      else h2
    | none => h2

/-- An angle-clock request was dropped: every lane takes a sample without a conversion (R286, R314). -/
def Half.lostPoint (pt : Int × List Int) (hold : Nat) (h : Half) : Half :=
  eachIdx 12 (fun j h =>
    let l := h.ana.lanes.get j
    if !l.en then h else
    let ck := match h.entry l.cyl with | some k => pt.2.getD k.1 0 | none => 0
    h.laneSmp j pt.1 ck 0x8000#16 false false (h.acq.ssShed.get j) vssNominal hold) h

/-! ### References (R275) -/

/-- REF_OK of a reference sets after its window has held (R275); `mv` is what it reads, in mV. The first INT_OK after enable starts the
calibration of every slice (R293). -/
def Half.refSet (r : RefId) (mv : Nat) (h : Half) : Half :=
  Half.holds <| match r with
  | .int => h.acqMap (fun a => if a.calDone || a.calOn.any (·) then { a with intOk := true } else
      { a with intOk := true, calOn := Vector.replicate 23 true, calEnd := h.now + 800000 })
  | .ext => if 2000 ≤ mv && mv ≤ 4500 then h.acqMap (fun a => { a with extOk := true, vRef := sat 13 mv }) else h
  | .ss n => if 4750 ≤ mv && mv ≤ 5250 then h.acqMap (fun a => { a with ssOk := put1 a.ssOk n true }) else h

/-- A flag that clears raises REF_FAULT (R275). -/
def Half.ssClear (n : Fin 12) (h : Half) : Half :=
  if !h.acq.ssOk.get n then h
  else (h.acqMap (fun a => { a with ssOk := put1 a.ssOk n false })).holds.raise 0x32 (locSense h.id)

/-- REF_OK of a reference clears (R275). -/
def Half.refClear (r : RefId) (mv : Nat) (h : Half) : Half :=
  match r with
  | .int =>
    if (4076 ≤ mv && mv ≤ 4116) || !h.acq.intOk then h
    else (h.acqMap (fun a => { a with intOk := false })).holds.raise 0x32 (locSense h.id)
  | .ext =>
    if (2000 ≤ mv && mv ≤ 4500) || !h.acq.extOk then h
    else (h.acqMap (fun a => { a with extOk := false, vRef := sat 13 mv })).holds.raise 0x32 (locSense h.id)
  | .ss n => if 4750 ≤ mv && mv ≤ 5250 then h else h.ssClear n

/-! ### Background calibration (R294 to R296) -/

/-- The group of an operand. -/
def grpIx : Grp → Fin 3
  | .pGrp => 0 | .iGrp => 1 | .gGrp => 2

/-- Slices of a group beside the spare, whose number is this one (R268, R306). -/
def grpN (g : Fin 3) : Nat := if g.1 = 0 then 12 else if g.1 = 1 then 6 else 2

/-- The place of a group's slice in the list of slices: P 0-11 and spare 12, I 13-18 and spare 19, G 20-21 and spare 22. -/
def sliceIx (g : Fin 3) (x : Nat) : Fin 23 :=
  ⟨((if g.1 = 0 then 0 else if g.1 = 1 then 13 else 20) + x) % 23, Nat.mod_lt _ (by decide)⟩

/-- The sequencer that a slice serves (R268). -/
def sliceSeq (g : Fin 3) (x : Nat) : Fin 9 :=
  ⟨(if g.1 = 0 then 0 else if g.1 = 1 then 1 + x else 7 + x) % 9, Nat.mod_lt _ (by decide)⟩

/-- Change one group's calibration. -/
def Half.calMap (g : Fin 3) (f : GrpCal → GrpCal) (h : Half) : Half := h.acqMap (fun a => { a with grps := upd a.grps g f })

/-- The next of the rotation after a slice: the spare first, then 0 onward (R294). -/
def calAfter (g : Fin 3) (x : Nat) : Nat := if x = grpN g then 0 else x + 1

/-- The first slice of the rotation at or after one that is not FAILED (R294). -/
def Half.calPick (h : Half) (g : Fin 3) : Nat → Nat → Option Nat
  | 0, _ => none
  | n + 1, x => if (h.acq.slices.get (sliceIx g x)).failed then h.calPick g n (calAfter g x) else some x

/-- When the next step of a group begins (R294): at once where MB4 asks for one, else CAL_INT after the step before. -/
def Half.calNextAt (g : Fin 3) (h : Half) : Option Nat :=
  let c := h.acq.grps.get g
  if !h.acq.calDone then none
  else if !c.asked.isEmpty then some h.now
  else if !calCfgEn h.acq.calCfg || c.susp then none
  else some (c.begun + calCfgCalInt h.acq.calCfg * 800000)

/-- A step of a slice has the spare from here (R295): it shadows the slice; the spare's own step needs no takeover unless the spare serves
another slice. -/
def GrpCal.run (g : Fin 3) (x start : Nat) (mine : Option (BitVec 16 × Bool)) (c : GrpCal) : GrpCal :=
  { c with slice := x, stage := if x = grpN g && c.perm.isNone then 2 else 1, start := start, mine := mine, fresh := none }

/-- No step has the spare any more: the oldest that waits for it goes on (R295). -/
def GrpCal.free (g : Fin 3) (c : GrpCal) : GrpCal :=
  match c.wait with
  | (x, start, mine) :: rest => { c with wait := rest }.run g x start mine
  | [] => { c with stage := 0, mine := none, fresh := none }

/-- A step begins at an instant (R294, R295): while another has the spare it waits. -/
def GrpCal.begin_ (g : Fin 3) (x now : Nat) (mine : Option (BitVec 16 × Bool)) (c : GrpCal) : GrpCal :=
  let c := { c with begun := now }
  if c.stage = 0 then c.run g x now mine else { c with wait := c.wait ++ [(x, now, mine)] }

/-- A calibration step begins (R294, R295): one MB4 asked for, else the rotation's next. -/
def Half.calStart (g : Fin 3) (h : Half) : Half :=
  let c := h.acq.grps.get g
  if !h.acq.calDone then h else
  let begin_ (x : Nat) (mine : Option (BitVec 16 × Bool)) (rest : List (Nat × BitVec 16 × Bool)) (next : Nat) : Half :=
    h.calMap g (fun c => { c with asked := rest, next := next }.begin_ g x h.now mine)
  match c.asked with
  | (x, rq) :: rest => begin_ x (some rq) rest c.next
  | [] =>
    if !calCfgEn h.acq.calCfg || c.susp then h else
    match h.calPick g (grpN g + 1) c.next with
    | some x => begin_ x none [] (calAfter g x)
    | none => h

/-- The request that a step served completes (R444). -/
def Half.calDoneReq (mine : Option (BitVec 16 × Bool)) (status : Nat) (h : Half) : Half :=
  match mine with
  | some (sq, _) => h.emit (.done 4 sq status [])
  | none => h

/-- A step ends (R295). -/
def Half.calFinish (g : Fin 3) (status : Nat) (h : Half) : Half :=
  (h.calMap g (GrpCal.free g)).calDoneReq (h.acq.grps.get g).mine status

/-- Takeover (R295): at least 200 ns after the step began, slice idle, spare free. -/
def Half.calTakeover (g : Fin 3) (h : Half) : Half :=
  let c := h.acq.grps.get g
  if c.stage = 1 && c.start + 160 ≤ h.now && h.seqIdle (sliceSeq g c.slice) && (c.perm.isNone || c.perm = some c.slice) then
    h.calMap g (fun c => { c with stage := 2 })
  else h

/-- When the oldest step of a group whose takeover has not happened becomes late (R295). -/
def GrpCal.lateAt (c : GrpCal) : Option Nat :=
  if c.stage = 1 then some (c.start + 64 * 8000) else c.wait.head?.map (fun x => x.2.1 + 64 * 8000)

/-- CAL_LATE is counted and raised (R295, R306). -/
def Half.calLateEv (h : Half) : Half :=
  (h.acqMap (fun a => { a with lateCnt := satInc 8 a.lateCnt })).raise 0x33 (locSense h.id)

/-- Takeover has not happened within 64 frames of a step's start (R295): of the step that shadows, or of the oldest that waits for the spare. -/
def Half.calLate (g : Fin 3) (h : Half) : Half :=
  let c := h.acq.grps.get g
  if c.lateAt.all (h.now < ·) then h
  else if c.stage = 1 then h.calLateEv.calFinish g 0x0142
  else match c.wait with
    | x :: rest => (h.calLateEv.calMap g (fun c => { c with wait := rest })).calDoneReq x.2.2 0x0142
    | [] => h

/-- A result against the factory values, in ppm of span and ppm, is out of bounds (R296). -/
def calBad (ofs gain : Int) : Bool := ofs.natAbs > 2000 || gain.natAbs > 5000

/-- A calibration result of a slice (R296): a faulty one counts, the second in a row marks the slice FAILED. -/
def Half.calFault (i : Fin 23) (bad : Bool) (h : Half) : Half :=
  let s := h.acq.slices.get i
  let fails := bad && 1 ≤ s.bad && !s.failed
  let h1 := h.acqMap (fun a => { a with slices := upd a.slices i (fun s =>
    { s with bad := if bad then min 2 (s.bad + 1) else 0, failed := s.failed || fails }) })
  let h2 := if bad then h1.raise 0x34 (locSense h.id) else h1
  if fails then h2.raise 0x35 (locSense h.id) else h2

/-- A slice takes new coefficients. -/
def Half.calTake (i : Fin 23) (ofs gain : Int) (h : Half) : Half :=
  h.acqMap (fun a => { a with slices := upd a.slices i (fun s => { s with ofs := ofs, gain := gain }) })

/-- The calibration at enable is done on these slices; on the last of them the lines may be enabled (R293). -/
def Half.calEnabled (is : List (Fin 23)) (h : Half) : Half :=
  h.acqMap (fun a =>
    let on := eachOf is (fun i v => put1 v i false) a.calOn
    { a with calOn := on, calDone := a.calDone || !on.any (·)
             grps := if on.any (·) then a.grps else a.grps.map (fun c => { c with begun := h.now }) })

/-- The calibration at enable takes no more than 1 ms (R293). -/
def Half.calEnableTick (h : Half) : Half :=
  if h.acq.calOn.any (·) && h.acq.calEnd ≤ h.now then h.calEnabled (idxs 23) else h

/-- The result of the calibration at enable of a slice (R293): a faulty one is not applied. -/
def Half.calEnableResult (i : Fin 23) (ofs gain : Int) (h : Half) : Half :=
  let h1 := h.calFault i (calBad ofs gain)
  (if calBad ofs gain then h1 else h1.calTake i ofs gain).calEnabled [i]

/-- The conversions of a step finish with a result against the factory values in ppm (R295, R296); at enable, those of the group's next slice
(R293). -/
def Half.calResult (g : Fin 3) (ofs gain : Int) (h : Half) : Half :=
  match ((List.range (grpN g + 1)).map (sliceIx g)).find? (fun i => h.acq.calOn.get i) with
  | some i => h.calEnableResult i ofs gain
  | none =>
  let c := h.acq.grps.get g
  if c.stage ≠ 2 then h else
  let i := sliceIx g c.slice
  let bad := calBad ofs gain
  let h4 := (h.calFault i bad).calMap g (fun c => { c with stage := 3, endAt := h.now, fresh := if bad then none else some (ofs, gain) })
  if c.slice = grpN g then
    (if bad then h4.calFinish g 0x0143
     else (h4.calTake i ofs gain).calFinish g 0)
  else h4

/-- Handback (R295, R296): new coefficients in force, or the spare keeps the inputs of a FAILED slice for good. -/
def Half.calHandback (g : Fin 3) (h : Half) : Half :=
  let c := h.acq.grps.get g
  if c.stage ≠ 3 || h.now < c.endAt + 160 || !h.seqIdle (sliceSeq g c.slice) then h else
  let i := sliceIx g c.slice
  if (h.acq.slices.get i).failed then
    (h.calMap g (fun c => { c with perm := some c.slice, susp := true })).calFinish g 0x0143
  else match c.fresh with
    | some (o, k) => (h.calTake i o k).calFinish g 0
    | none => h.calFinish g 0x0143

/-- The slice whose inputs a spare serves, as CAL_STAT gives it, or that the spare itself calibrates, at enable too (R293, R306). -/
def Acq.served (a : Acq) (g : Fin 3) : Nat :=
  let c := a.grps.get g
  if a.calOn.get (sliceIx g (grpN g)) then grpN g else if 2 ≤ c.stage then c.slice else c.perm.getD 15

/-! ### The test DAC (R298) -/

/-- The verdict of a test from its measurements (R298). The span is that of the input's range (R271); 95 % of it counts from its bottom
(log 110). -/
def Half.tdacVerdict (m : TdacMeas) (h : Half) : Half :=
  let t := h.acq.tdac
  if !t.busy then h else
  match tdacCfgTest t.cfg with
  | 0 =>
    let rise := m.hi - m.lo
    let i := tdacCfgInput t.cfg
    let (span, ofs) := rangeAt (max 1 m.vss) i (h.acq.ain.toArray.getD i 0#32)
    let v : Nat := if rise > 5000 then 1
      else if m.lo < 1000 && rise < 20 then 2
      else if (m.lo * 100 - (ofs - span / 2)) * 100 > span * 95 && rise < 20 then 3 else 0
    h.tdacEnd v rise
  | 1 =>
    let v : Nat := if m.gainErr.natAbs > 500 || m.ofsErr.natAbs > 200 then 4 else 0
    h.tdacEnd v m.gainErr
  | _ => h

/-! ### Status (R292, R304 to R308) -/

/-- LAST (R292). -/
def Half.lastWord (h : Half) (i : Fin 48) : Word :=
  let x := h.acq.last.get i
  let age : Nat := match x.hold with
    | some t => sat 8 (roundFree 6 (h.now - t : Nat) etPerUs).toNat
    | none => 255
  put x.code.toNat 16 16 ||| put age 8 8 ||| putB x.ref 7 ||| putB x.test 6 ||| putB x.sat 5 ||| putB x.spare 4

/-- XC_ST (R304). -/
def Xc.stat (x : Xc) : Word := putB x.live 31 ||| putB x.pol 30 ||| put x.cnt 16 0

/-- REF_STAT (R305). -/
def Acq.refStat (a : Acq) : Word :=
  putB a.intOk 31 ||| putB a.extOk 30 |||
  put ((List.range 12).foldl (fun v k => v + bit (a.ssOk.toArray.getD k false) * 2 ^ k) 0) 12 18 ||| put a.vRef 13 0

/-- CAL_STAT (R306). -/
def Acq.calStat (a : Acq) : Word :=
  put (a.served 0) 4 28 ||| put (a.served 1) 4 24 ||| put (a.served 2) 4 20 |||
  putB (a.grps.get 0).susp 19 ||| putB (a.grps.get 1).susp 18 ||| putB (a.grps.get 2).susp 17 ||| put a.lateCnt 8 8

/-- CAL_FAIL (R306). -/
def Acq.calFail (a : Acq) : Word :=
  let f (i : Nat) : Bool := (a.slices.toArray.getD i ⟨0, false, 0, 0⟩).failed
  (List.range 12).foldl (fun w k => w ||| putB (f k) (20 + k)) 0#32 |||
  (List.range 6).foldl (fun w k => w ||| putB (f (13 + k)) (14 + k)) 0#32 |||
  (List.range 2).foldl (fun w k => w ||| putB (f (20 + k)) (12 + k)) 0#32

/-- ACQ_STAT (R308). -/
def Acq.stat (a : Acq) : Word := put a.widx 10 22 ||| put a.ovr 11 11 ||| put a.late 11 0

end Sys2Proof.Machine
end

