-- ==== Sys2Proof/Machine/Admission.lean ====
section
/-! DEFINITION. The ledger of a half (R241 to R256): projection, admission, stagger, shorten, skip, claims, shortfalls. -/

namespace Sys2Proof.Machine

open Sys2Proof

/-- A draw in a projection: et from the tick, cost in J. -/
abbrev Draw := Nat × Rat

/-- et per Q16 of angle at a speed in 1/65536 rpm; none at standstill. -/
def etPerQ (speed : Nat) : Option Rat := if speed = 0 then none else some (800000000 / (6 * (speed : Rat)))

/-- The et a span of angle takes at the snapshot's speed; at standstill it is never reached. -/
def Half.etOf (h : Half) (a : Int) : Option Nat :=
  (etPerQ h.snap.speed).map (fun q => (roundFreeQ 8 (max 0 ((a : Rat) * q))).toNat)

/-- LAST of a reservoir's input as usable energy (R241); none before the first sample. -/
def Half.lastEnergy (h : Half) (r : ResSt) : Option Rat :=
  let i := (resInput r.c0).2
  let x := h.acq.last.get i
  if x.code = 0x8000#16 then none else some (r.usable (voltsOf i (h.acq.ain.get i) x.code))

/-- The starting energy, the recharge power and the capacity of a half's projection (R246, R254, R255). -/
def Half.projBase (h : Half) (r : ResSt) : Rat × Rat × Rat :=
  if r.shared then (r.share, r.frac * r.power h.led.vIn, r.frac * r.uMax)
  else ((h.lastEnergy r).getD 0, r.power h.led.vIn, r.uMax)

/-- Recharge over some et, none at or above the capacity (R242). -/
def recharge (p cap u : Rat) (dt : Nat) : Rat := if cap ≤ u then u else min cap (u + p * dt / 800000000)

/-- The energy available just before each draw, in order of due instant (R246). -/
def project (p cap : Rat) : Rat → Nat → List Draw → List (Draw × Rat)
  | _, _, [] => []
  | u, t, d :: rest =>
    let a := recharge p cap u (d.1 - t)
    (d, a) :: project p cap (a - d.2) (max t d.1) rest

/-- Insert a draw by due instant, after those at the same instant. -/
def insDraw (d : Draw) : List Draw → List Draw
  | [] => [d]
  | x :: xs => if d.1 < x.1 then d :: x :: xs else x :: insDraw d xs

/-- The due instant of an admitted opening from now (R246 step 3). -/
def Half.dueIn (h : Half) (v : Resv) : Option Nat :=
  match fin? 1024 v.k with
  | none => none
  | some k =>
    let s := h.slots.get k
    let (c, turn) : SlotC × Nat := if s.cyc = v.cyc then (s.c, s.turn) else match s.deferred with
      | some (c, _, _) => (c, s.turnDef)
      | none => (s.c, s.turn)
    if s.st = 4 && s.cyc = v.cyc then some (s.edgeAt - h.now)
    else (h.etOf (h.left turn c)).map (· + c.offset)

/-- The admitted draws on a reservoir not yet drawn. -/
def Half.draws (h : Half) (r : Nat) : List Draw :=
  (h.led.resv.filter (fun v => v.res = r && !v.drawn)).foldl (fun l v => match h.dueIn v with
    | some t => insDraw (t, v.cost) l
    | none => l) []

/-- The claims on a reservoir of other cylinders, at the due instants `at_` gives (R251). -/
def Half.claimDraws (h : Half) (r cyl : Nat) (at_ : Nat → Option Nat) : List Draw :=
  (h.led.claims.filter (fun c => c.res = r && c.cyl ≠ cyl)).filterMap (fun c => (at_ c.cyl).map (fun t => (t, c.cost)))

/-- An opening at an instant is admissible (R248): it is covered, and every later draw and claim still is. -/
def admissible (p cap u : Rat) (ds : List Draw) (d : Draw) : Bool :=
  let xs := project p cap u 0 (insDraw d ds)
  xs.all (fun x => x.1.1 < d.1 || x.1.2 ≤ x.2)

/-- The energy available to an opening (R246). -/
def available (p cap u : Rat) (ds : List Draw) (d : Draw) : Rat :=
  let before := ds.filter (fun x => x.1 ≤ d.1)
  (((project p cap u 0 (before ++ [d])).getLast?).map (·.2)).getD u

/-- A rational rounded up. -/
def ceilRat (q : Rat) : Int := -((-q).floor)

/-- Draws inserted by due instant. -/
def insDraws (xs ds : List Draw) : List Draw := xs.foldl (fun l d => insDraw d l) ds

/-- The smallest delay that makes an opening admissible, within a limit (R249): `ds` are the admitted draws and the
standing claims, `adm` the admitted draws alone, which a delay may be carried past. -/
def staggerBy (p cap u : Rat) (ds adm : List Draw) (d : Draw) (lim : Nat) : Option Nat :=
  let deficit := d.2 - available p cap u ds d
  let d0 : Option Nat := if deficit ≤ 0 then some 0 else if p ≤ 0 then none else some (ceilRat (deficit / p * 800000000)).toNat
  match d0 with
  | none => none
  | some d0 =>
    if lim < d0 then none
    else (d0 :: (adm.filterMap (fun x => if d.1 + d0 ≤ x.1 && x.1 + 1 - d.1 ≤ lim then some (x.1 + 1 - d.1) else none))).find?
      (fun e => admissible p cap u ds (d.1 + e, d.2))

/-- An opening to be admitted: its candidate, reservoir, cost, due instant. -/
structure Opening where
  x    : Cand
  res  : Nat
  cost : Rat
  due  : Nat
deriving DecidableEq, Repr

/-- How an opening was admitted: content, cost and due instant in force, the profile's event (0 none, 1 STAGGER, 2 SHORTEN). -/
structure Admit where
  o    : Opening
  cost : Rat
  due  : Nat
  c    : SlotC
  how  : Nat
deriving DecidableEq, Repr

/-- A content with another OFFSET. -/
def SlotC.setOffset (c : SlotC) (o : Nat) : SlotC := { c with w1 := put o 24 8 ||| (c.w1 &&& 0x000000FF#32) }

/-- A content with another profile. -/
def SlotC.setProf (c : SlotC) (p : Nat) : SlotC := { c with w3 := put p 8 24 ||| (c.w3 &&& 0x00FFFFFF#32) }

/-- The pair of a content's channel. -/
def SlotC.pair (c : SlotC) : Fin 24 := pairOf c.chan

/-- One opening under the reservoir's policy (R248, R249, R253) beside the standing claims and the admitted draws; none
where it cannot be admitted, as on any reservoir whose U_MEAS is at or below zero (R255). -/
def Half.admit1 (h : Half) (r : ResSt) (base : Rat × Rat × Rat) (cl adm : List Draw) (o : Opening) : Option Admit :=
  let (u, p, cap) := base
  let ds := insDraws cl adm
  let dead := r.uMeas.any (· ≤ 0)
  if dead then none
  else if admissible p cap u ds (o.due, o.cost) then some ⟨o, o.cost, o.due, o.x.c, 0⟩
  else
    let pol := if r.start > 0 then 0 else resCfg0Policy r.c0
    if pol = 0 then
      let lim := min (resCfg2StagMax r.c2 * etPerUs) (16777215 - o.x.c.offset)
      (staggerBy p cap u ds adm (o.due, o.cost) lim).map (fun d => ⟨o, o.cost, o.due + d, o.x.c.setOffset (o.x.c.offset + d), 1⟩)
    else if pol = 1 then
      let hd := (h.prof o.x.c.prof).get 0
      if !profHdrShortEn hd then none else
      let sp := profHdrShortProf hd
      let cost := h.learned o.x.c.pair.1 sp
      if admissible p cap u ds (o.due, cost) then some ⟨o, cost, o.due, o.x.c.setProf sp, 2⟩ else none
    else none

/-- All openings of a commit on one reservoir in order; none at the first that cannot be admitted (R248). -/
def Half.admitAll (h : Half) (r : ResSt) (base : Rat × Rat × Rat) (cl : List Draw) : List Draw → List Opening → Option (List Admit)
  | _, [] => some []
  | ds, o :: rest =>
    match h.admit1 r base cl ds o with
    | none => none
    | some a => (h.admitAll r base cl (insDraw (a.due, a.cost) ds) rest).map (a :: ·)

/-- The opening to skip: lowest PRIO, then the later start (R250). -/
def worst : List Opening → Option Opening
  | [] => none
  | o :: rest => match worst rest with
    | none => some o
    | some w => if o.x.c.prio < w.x.c.prio || (o.x.c.prio = w.x.c.prio && w.x.psi < o.x.psi) then some o else some w

/-- Skip until every remaining opening is admitted (R250): the admitted and the skipped. -/
def Half.admitSkip (h : Half) (r : ResSt) (base : Rat × Rat × Rat) (cl ds : List Draw) : Nat → List Opening → List Admit × List Opening
  | 0, os => ([], os)
  | n + 1, os =>
    match h.admitAll r base cl ds os with
    | some as => (as, [])
    | none => match worst os with
      | none => ([], [])
      | some w => let (as, sk) := h.admitSkip r base cl ds n (os.filter (fun o => o.x.k ≠ w.x.k)); (as, w :: sk)

/-- Change one reservoir's entry. -/
def Half.resMap (r : Fin 8) (f : ResSt → ResSt) (h : Half) : Half := { h with led := { h.led with res := upd h.led.res r f } }

/-- A cylinder is one of a reservoir's on this half (R253): a Basic DRIVE event of it, or content held for it, names a pair that draws
on the reservoir. -/
def Half.drawsFor (h : Half) (cyl : Nat) (r : Fin 8) : Bool :=
  let on (act : Nat) (m : Nat) : Bool := act = 4 && h.resOf (m / 2) = some r
  h.cfg.cyls.any (fun c => c.cyl = cyl && c.evts.any (fun e => e.half = h.id && on e.action e.ch)) ||
    h.slots.toList.any (fun s => s.holder ≠ .nobody && ([s.base] ++ s.staged.toList).any (fun c => c.cyl = cyl && on c.action c.chan.1))

/-- The outcome of admission on a commit's events (R43 step 3): the half, the events to freeze, the events skipped. -/
def Half.admitRes (cyl cyc : Nat) (at_ : Nat → Option Nat) (r : Fin 8) (st : Half × List Cand × List Cand) : Half × List Cand × List Cand :=
  let (h, cs, sk) := st
  let draw (x : Cand) : Bool := x.c.action = 4 && h.resOf x.c.pair.1 = some r
  -- the cylinder's own claim is removed at its commit, immediately before its admission (R251)
  let hc : Half := { h with led := { h.led with claims := h.led.claims.filter (fun c => !(c.res = r.1 && c.cyl = cyl)) } }
  -- the first commit of its cylinders after STOP opens the start period (R253)
  let h1 := if (h.led.res.get r).armed && h.drawsFor cyl r then
      hc.resMap r (fun x => { x with start := resCfg2StartCyc x.c2, armed := false }) else hc
  if !cs.any draw then (h1, cs, sk) else
  let rs := h1.led.res.get r
  let base := h1.projBase rs
  let os := ((cs.filter draw).mergeSort (fun a b => a.psi ≤ b.psi)).map (fun x =>
    let due := ((h1.etOf (x.psi - h1.presented cyl)).getD 0) + x.c.offset
    (⟨x, r.1, h1.learned x.c.pair.1 x.c.prof, due⟩ : Opening))
  let (as, skips) := h1.admitSkip rs base (h1.claimDraws r.1 cyl at_) (h1.draws r.1) (os.length + 1) os
  let h2 : Half := eachOf as (fun a h =>
    let m := a.c.chan.1
    let h1 : Half := { h with led := { h.led with resv := h.led.resv ++ [⟨a.o.x.k.1, cyc, cyl, a.c.pair.1, a.c.prof, r.1, a.cost, false, false⟩] } }
    let h2 := h1.resMap r (fun x => { x with booked := x.booked + a.cost })
    if a.how = 1 then h2.raise 0x4C (locSlot h.id m a.o.x.k.1) else if a.how = 2 then h2.raise 0x4D (locSlot h.id m a.o.x.k.1) else h2) h1
  let h3 := eachOf skips (fun o h =>
    (h.resMap r (fun x => { x with skips := satInc 8 x.skips })).raise 0x4E (locSlot h.id o.x.c.chan.1 o.x.k.1)) h2
  let top := skips.foldl (fun m o => max m o.cost) 0
  let h4 : Half := if skips.isEmpty then h3 else { h3 with led := { h3.led with claims := h3.led.claims ++ [⟨r.1, cyl, top⟩] } }
  let cs1 := cs.filterMap (fun x => match as.find? (fun a => a.o.x.k = x.k) with
    | some a => some { x with c := a.c, tags := if a.how = 0 then x.tags else x.tags ||| tagBit 9 }
    | none => if skips.any (fun o => o.x.k = x.k) then none else some x)
  (h4, cs1, sk ++ skips.map (·.x))

/-- Insert what belongs to a draw by due instant, after those at the same instant. -/
def insBy {α : Type} (d : Draw × α) : List (Draw × α) → List (Draw × α)
  | [] => [d]
  | x :: xs => if d.1.1 < x.1.1 then d :: x :: xs else x :: insBy d xs

/-- LEDGER_SHORTFALL at a tick (R247), once per opening: the projection does not cover that very draw. -/
def Half.shortfalls (at_ : Nat → Option Nat) (r : Fin 8) (h : Half) : Half :=
  let rs := h.led.res.get r
  if !resCfg0Valid rs.c0 then h else
  let (u, p, cap) := h.projBase rs
  let vs := (h.led.resv.filter (fun v => v.res = r.1 && !v.drawn)).filterMap (fun v => (h.dueIn v).map (fun t => ((t, v.cost), some v)))
  let ds : List (Draw × Option Resv) := ((h.claimDraws r.1 0 at_).map (fun d => (d, none))).foldl (fun l d => insBy d l)
    (vs.foldl (fun l x => insBy x l) [])
  let short := (ds.zip (project p cap u 0 (ds.map (·.1)))).filterMap (fun x => if x.2.2 < x.1.1.2 then x.1.2 else none)
  eachOf (short.filter (fun v => !v.short)) (fun x h =>
    let loc := match fin? 1024 x.k with
      | some k => locSlot h.id (h.slots.get k).c.chan.1 k.1
      | none => 0#32
    ({ h with led := { h.led with resv := h.led.resv.map (fun v => if v.k = x.k && v.cyc = x.cyc then { v with short := true } else v) } } : Half).raise
      0x6C loc) h

/-- The reserved costs of a cycle at its end (R254): what was booked is kept as that of the cycle just ended. -/
def Half.bookWrap (h : Half) : Half := eachIdx 8 (fun r h => h.resMap r (fun x => { x with prev := x.booked, booked := 0 })) h

/-- A wrap of the cycle angle on the ledger: the start periods count down (R253). -/
def Half.ledWrap (h : Half) : Half := eachIdx 8 (fun r h => h.resMap r (fun x => { x with start := x.start - 1 })) h

end Sys2Proof.Machine
end

