-- ==== Sys2Proof/Machine/Commit.lean ====
section
/-! DEFINITION. The steward's commit processing (R42 to R45, R162, R169, R170, R173 to R179, R388, R389, R391, R539). -/

namespace Sys2Proof.Machine

open Sys2Proof

/-! ### Content of a commit -/

/-- The cycle angles of the expected edges of the angle source over one cycle (R88, R102, R122). -/
def Half.edgeAngles (h : Half) : List Int :=
  let u := h.trk.src
  let w := h.wheel (u.inp.getD .ckd)
  let n := if h.isPhase u then (h.phaseDesc.feats h.trk.dir.read).length else w.teeth + w.marks.length
  let ps : List Nxt := ((List.range n).foldl (fun (st : List Nxt × TUnit) _ =>
    let x := h.nextOf st.2
    (x :: st.1, { st.2 with pos := x.pos, mark := x.mark })) ([], u)).1
  ps.flatMap (fun x =>
    let a := h.angle40 u x.pos x.mark
    if h.trk.inLimp then [((a / 2 ^ 24 : Nat) : Int) % h.cycLen]
    else [endAngle h.cycLen w h.trk.dir.read a 0, endAngle h.cycLen w h.trk.dir.read a 1])

/-- The throw angle of the last expected edge of the angle source at or before a start (R169). -/
def Half.edgeBefore (h : Half) (k : Fin 24) (start : Int) : Int :=
  let c := (h.tws.cyl.get k).c
  match (h.edgeAngles.map (fun a => (start - (a + c)) % h.cycLen)) with
  | [] => start
  | d :: ds => start - ds.foldl min d

/-- Start angle and OFFSET of a Basic event (R169 steps 1 and 2). -/
def Half.splitStart (h : Half) (k : Fin 24) (m : Fin 48) (start : Int) : Int × Nat :=
  if schChSplit (h.chans.get (h.schChan m)).sch then
    match etPerQ h.snap.speed with
    | some q =>
      let a := h.edgeBefore k start
      (a, (roundRat ((start - a : Int) * q)).toNat)
    | none => (start, 0)
  else (start, 0)

/-- The Basic events of a cylinder on this half (R162, R169). -/
def Half.basicEvts (h : Half) (cyl : Nat) : List EvtCfg :=
  match h.cfg.cyls.find? (·.cyl = cyl) with
  | some c => c.evts.filter (fun x => x.half = h.id)
  | none => []

/-- The slot a Basic event holds (R162). -/
def Half.basicSlot (h : Half) (cyl : Nat) (x : EvtCfg) : Option (Fin 1024) :=
  (idxs 1024).find? (fun j => (h.slots.get j).holder = .basic cyl x.evt x.ch)

/-- The profile of a duration: the first of the set whose DMAX covers it (R220). -/
def EvtCfg.profFor (x : EvtCfg) (dur : Nat) : Nat :=
  match x.profs.find? (fun p => dur ≤ p.2) with
  | some p => p.1
  | none => ((x.profs.getLast?).map (·.1)).getD 0

/-- One Basic event of an entry as content (R169, R333): none with zero duration, no action (R160) or no slot. -/
def Half.basicCand (h : Half) (k : Fin 24) (cyl : Nat) (entry : List (Int × Nat)) (delta : Int) (mask : Nat) (tags : BitVec 16)
    (x : EvtCfg) : Option Cand :=
  let (start, dur) := entry.getD x.evt (0, 0)
  if dur = 0 || x.action = 0 then none else
  match h.basicSlot cyl x, fin? 48 x.ch with
  | some j, some m =>
    let shift := mask.testBit x.evt
    let (ang, ofs) := h.splitStart k m (if shift then start + delta else start)
    some ⟨j, mkContent ang ofs x.action false (BitVec.ofNat 32 (dur * 800)) (x.profFor dur) 0 x.prio x.evt cyl (chanNum h.id x.ch) false,
      ang, true, if shift && delta ≠ 0 then tags ||| tagBit 10 else tags⟩
  | _, _ => none

/-- The Expert and acquisition content of a cylinder: staged if present, else as last written (R173, R178). -/
def Half.expertCand (h : Half) (k : Fin 24) (cyl : Nat) (j : Fin 1024) : Option Cand :=
  let s := h.slots.get j
  let held := match s.holder with
    | .expert _ => true
    | .acq _ => true
    | _ => false
  let c := s.staged.getD s.base
  if !held || c.action = 0 || c.cyl ≠ cyl || ((c.action = 3 || c.action = 4) && c.w2 = 0#32) then none else
  some ⟨j, c, if c.kind then wrapS h.cycLen (c.angle - h.tdcNow k) else c.angle, false, 0#16⟩

/-- HOLD_CYC, or ISL_HOLD on a half without a hub path (R391, R473). -/
def Half.holdCycles (h : Half) : Nat := if h.links.path then h.cfg.holdCyc else splitCfgIslHold h.links.split

/-- The flags a commit gives its cycle record (R326): HELD, DEFAULT, LIMP, ISLANDED, CUT, ASTERN, SHED of the cycle so far. -/
def Half.openFlags (h : Half) (src : Nat) (cut shed : Bool) : Nat :=
  32768 * bit (src = 1) + 16384 * bit (src = 2) + 8192 * bit h.trk.inLimp + 4096 * bit (!h.links.path) + 1024 * bit cut +
    512 * bit h.trk.dir.read + 256 * bit shed

/-- The events a commit of a cylinder now would take, with where its setpoint comes from and the setpoint itself (R43 steps 1
and 2, R391, R333, R335). -/
def Half.takes (h : Half) (k : Fin 24) : Nat × List (Int × Nat) × List Cand × Int :=
  let s := h.cyls.get k
  let cyl := schCylCyl s.cfg
  let evs := h.basicEvts cyl
  let dflt : List (Int × Nat) := (List.range 4).map (fun n => match evs.find? (·.evt = n) with
    | some x => (x.defStart, x.defDur) | none => (0, 0))
  let (src, entry) : Nat × List (Int × Nat) :=
    if evs.isEmpty then (3, []) else
    match s.staged0, s.lastGood with
    | some e, _ => (0, e)
    | none, some e => if s.miss < h.holdCycles then (1, e) else (2, dflt)
    | none, none => (2, dflt)
  let delta := if src = 2 && !h.links.path then 0 else s.delta
  let tags : BitVec 16 := if src = 1 then tagBit 11 else if src = 2 then tagBit 12 else 0#16
  let basic := evs.filterMap (h.basicCand k cyl entry delta s.evtMask tags)
  let expert := (idxs 1024).filterMap (h.expertCand k cyl)
  let cut (x : Cand) : Bool := s.cut = some (s.count.toNat + 1) && schChFuel (h.chans.get (h.schChan x.c.chan)).sch
  (src, entry, (basic ++ expert).filter (fun x => !cut x), delta)

/-- An event a commit in LIMP does not freeze (R179). -/
def Half.limpSkips (h : Half) (x : Cand) : Bool :=
  h.trk.inLimp && !schChLimpEn (h.chans.get (h.schChan x.c.chan)).sch

/-- Start and end of a command in et at the commit snapshot's speed, from throw angle zero (R170). -/
def Half.cmdSpan (h : Half) (x : Cand) : Rat × Rat :=
  let q := (etPerQ h.snap.speed).getD 0
  let s : Rat := x.psi * q + x.c.offset
  (s, s + x.c.w2.toNat)

/-- The DRIVE events of a commit that overlap an earlier one of their pair, by start (R170). -/
def Half.overlaps (h : Half) (xs : List Cand) : List Cand :=
  let ds := (xs.filter (fun x => x.c.action = 4)).mergeSort (fun a b => decide ((h.cmdSpan a).1 ≤ (h.cmdSpan b).1))
  (ds.foldl (fun (st : List Cand × List Cand) x =>
    if st.1.any (fun y => y.c.pair = x.c.pair && decide ((h.cmdSpan x).1 < (h.cmdSpan y).2)) then (st.1, st.2 ++ [x])
    else (x :: st.1, st.2)) ([], [])).2

/-- The events that a commit would freeze, those that LIMP skips, those that R170 skips. -/
def Half.sortCands (h : Half) (xs : List Cand) : List Cand × List Cand × List Cand :=
  let limp := xs.filter h.limpSkips
  let go := xs.filter (fun x => !h.limpSkips x)
  let ovl := h.overlaps go
  (go.filter (fun x => !ovl.any (fun y => y.k = x.k)), limp, ovl)

/-- E of R173, none for a cylinder without any event. -/
def earliestOf : List Cand → Option Int
  | [] => none
  | x :: xs => some (xs.foldl (fun m y => min m y.psi) x.psi)

/-- What a commit of a cylinder now would take, with its commit angle A_c (R43, R173, R176). -/
def Half.contentFor (h : Half) (k : Fin 24) : CommitC :=
  let s := h.cyls.get k
  let cyl := schCylCyl s.cfg
  let (src, entry, cands, delta) := h.takes k
  let (go, lskip, ovl) := h.sortCands cands
  ⟨src, entry, go, lskip, ovl, if h.trk.inLimp then tagBit 7 else 0#16,
    ⟨cyl, s.count.toNat, h.frame, h.tdcNow k, delta, (roundFree 23 ((h.snap.speed : Int) * 10) 65536).toNat,
      h.trk.st * 16 + h.tws.mode, s.deltaSrc % 256, h.openFlags src (s.cut = some (s.count.toNat + 1)) s.shedCyc, []⟩,
    (earliestOf go).getD 0 - (schCylCd s.cfg : Nat) * deg⟩

/-! ### One commit -/

/-- Change one cylinder. -/
def Half.cylMap (k : Fin 24) (f : CylSt → CylSt) (h : Half) : Half := { h with cyls := upd h.cyls k f }

/-- Content of an earlier cycle still FROZEN or LOADED is withdrawn (R161): in the slots this commit has content for, `ks`,
whichever cylinder the old content names (log 35), and in the cylinder's other slots. -/
def Half.clearOld (cyl : Nat) (ks : List (Fin 1024)) (h : Half) : Half :=
  eachIdx 1024 (fun j h =>
    let s := h.slots.get j
    if s.st ≠ 2 && s.st ≠ 3 then h
    else if ks.contains j then h.replaceOld j
    else if s.c.cyl = cyl then h.withdraw j 12 else h) h

/-- One event frozen, or its freeze deferred while its slot is DUE or ACTIVE; inside the lookahead it loads at once where an
entry is free (R44, R161, R177). -/
def Half.freezeCand (cyc : Nat) (limp : BitVec 16) (x : Cand) (h : Half) : Half :=
  let s := h.slots.get x.k
  if s.st = 4 || s.st = 5 then h.slotMap x.k (fun s => { s with deferred := some (x.c, cyc, x.tags ||| limp), turnDef := h.turnOf x.c.cyl })
  else if s.st = 0 then h
  else (h.freeze x.k x.c cyc (x.tags ||| limp) (tagBit 4) (h.turnOf x.c.cyl)).hopperLoad x.k

/-- The count of a cylinder becomes another: CYCTAG of the slots frozen at the last commit, `ks`, and what is filed under the old count,
follow (R539). While the commit's processing waits nothing is filed yet. -/
def Half.setCount (k : Fin 24) (n : Word) (ks : List Nat) (h : Half) : Half :=
  let s := h.cyls.get k
  let cyl := schCylCyl s.cfg
  let h1 := h.cylMap k (fun s => { s with takeCount := false, count := n })
  if n = s.count then h1 else
  let o := s.count.toNat
  let fix (c : Nat) : Nat := if c = o then n.toNat else c
  let h2 := eachIdx 1024 (fun j h => if ks.contains j.1 then h.slotMap j (fun s =>
    { s with cyc := fix s.cyc, cycTag := if s.cyc = o then n.toNat % 256 else s.cycTag,
             deferred := s.deferred.map (fun (c, y, t) => (c, fix y, t)) }) else h) h1
  let h3 : Half := { h2 with
    led := { h2.led with resv := h2.led.resv.map (fun r => if r.cyl = cyl then { r with cyc := fix r.cyc } else r) }
    fired := h2.fired.map (fun f => if f.cyl = cyl then { f with cyc := fix f.cyc } else f)
    chans := h2.chans.map (fun c => { c with setBy := c.setBy.map (fun (j, y, n) => if y = cyl then (j, y, fix n) else (j, y, n)) })
    cyls := upd h2.cyls k (fun s => { s with fuelCyc := s.fuelCyc.map fix })
    ana := { h2.ana with lanes := h2.ana.lanes.map (fun l => if l.cyl = cyl then { l with cycNo := fix l.cycNo } else l) } }
  if s.defer.isSome then h3 else h3.emit (.recount cyl o n.toNat ks)

/-- The half is a cylinder's home (R389). -/
def Half.isHome (h : Half) (cyl : Nat) : Bool := (h.cfg.cyls.find? (·.cyl = cyl)).all (fun c => c.home = h.id)

/-- A half takes the other half's count for a commit both have made where it is not the home, or is to take it after a reset (R389, R539). -/
def Half.takeCountOf (k : Fin 24) (n : Word) (h : Half) : Half :=
  let s := h.cyls.get k
  match s.mine with
  | some (_, ks) => if h.isHome (schCylCyl s.cfg) && !s.takeCount then h else h.setCount k n ks
  | none => h

/-- The last commit and the other half's report of the same throw cycle are compared where both stand (R539). -/
def Half.recount (k : Fin 24) (h : Half) : Half :=
  let s := h.cyls.get k
  match s.theirs with
  | some n => if s.old then h else h.takeCountOf k n
  | none => h

/-- When a claimed cylinder's earliest opening of its next cycle falls due, for a projection (R246, R251): the first due instant,
slot angle reached plus OFFSET, of the DRIVE events in the content it would commit. -/
def Half.claimDue (h : Half) (cyl : Nat) : Option Nat :=
  match h.entry cyl with
  | none => none
  | some k =>
    let due (x : Cand) : Option Nat :=
      let r := x.psi - h.presented cyl
      (h.etOf (if (h.cyls.get k).committed || r < 0 then r + h.cycLen else r)).map (· + x.c.offset)
    match ((h.takes k).2.2.1.filter (fun x => x.c.action = 4)).filterMap due with
    | [] => none
    | t :: ts => some (ts.foldl min t)

/-- The commit instant of a cylinder with its content (R43, R140, R176, R388, R391): the count moves, the entry for the next cycle
moves up, staged Expert content becomes the content held (R178), and the other half's report of the same commit is compared. -/
def Half.commitAt (k : Fin 24) (cc : CommitC) (h : Half) : Half :=
  let cyl := cc.opn.cyl
  let h1 := eachIdx 1024 (fun j h =>
    let x := h.slots.get j
    match x.staged with
    | some c => if (if c.action = 0 then x.base.action = 0 || x.base.cyl = cyl else c.cyl = cyl) then h.slotMap j (fun x => { x with staged := none, base := c }) else h
    | none => h) h
  let h2 := h1.cylMap k (fun s => { s with
    count := s.count + 1#32, committed := true, staged0 := s.staged1, staged1 := none
    lastGood := if cc.src = 0 then some cc.entry else s.lastGood
    miss := if cc.src = 0 then 0 else if cc.src = 3 then s.miss else s.miss + 1
    lastSrc := cc.src
    mine := some (h.frame, []), old := false, defer := some cc })
  let h3 := if cc.src = 1 then h2.raise 0x64 (locInp h.id 7) else if cc.src = 2 then h2.raise 0x65 (locInp h.id 7) else h2
  h3.recount k

/-- Commit processing of one cylinder (R43): admission, the cycle record opened, the old content withdrawn, the skips, the new
content written and frozen. -/
def Half.commitWrite (k : Fin 24) (cc : CommitC) (h : Half) : Half :=
  let cyl := cc.opn.cyl
  let cyc := (h.cyls.get k).count.toNat
  let (h1, go1, led) := eachIdx 8 (fun r st => Half.admitRes cyl cyc h.claimDue r st) (h, cc.go, [])
  let h2 := h1.emit (.opened { cc.opn with cyc := cyc, ks := go1.map (·.k.1) })
  let h3 := h2.clearOld cyl (go1.map (·.k))
  let h4 := eachOf cc.lskip (Half.skipAtCommit 7 cyc cc.limp) h3
  let h5 := eachOf cc.ovl (Half.skipAtCommit 8 cyc cc.limp) h4
  let h6 := eachOf led (Half.skipAtCommit 6 cyc cc.limp) h5
  let h7 := eachOf go1 (Half.freezeCand cyc cc.limp) h6
  h7.cylMap k (fun s => { s with defer := none, mine := s.mine.map (fun m => (m.1, go1.map (·.k.1))) })

/-! ### The steward's pass -/

/-- The content a cylinder commits at this tick, where its commit instant has come (R43, R175). -/
def Half.commitNow (h : Half) (k : Fin 24) : Option CommitC :=
  let s := h.cyls.get k
  if !schCylValid s.cfg || s.committed || s.skip || !h.trk.fires then none else
  match (h.entry (schCylCyl s.cfg)).bind h.snap.throwAt with
  | none => none
  | some phi =>
    let cc := h.contentFor k
    if cc.ang ≤ phi then some cc else none

/-- At the first tick in a state that allows events, a cylinder past E less LA less 2 degrees waits for its next cycle
(R175). -/
def Half.firstTick (k : Fin 24) (h : Half) : Half :=
  let s := h.cyls.get k
  match (h.entry (schCylCyl s.cfg)).bind h.snap.throwAt with
  | none => h
  | some phi =>
    if schCylValid s.cfg && !s.committed && (earliestOf (h.contentFor k).go).getD 0 - h.lookahead - 2 * deg < phi then
      h.cylMap k (fun s => { s with skip := true }) else h

/-- The cylinder's new weight and offset take effect at its commit instant (R140). -/
def Half.weightsNow (k : Fin 24) (h : Half) : Half :=
  match h.entry (schCylCyl (h.cyls.get k).cfg) with
  | some j => h.takeWeights j
  | none => h

/-- Insert a commit by commit angle, before the first that has no smaller one (R42). Inserted from the last cylinder to the
first, of equal commit angles the cylinder with the lower table index comes first (DESIGN CHOICE, log 104). -/
def insCommit (x : Int × Fin 24) : List (Int × Fin 24) → List (Int × Fin 24)
  | [] => [x]
  | y :: t => if y.1 < x.1 then y :: insCommit x t else x :: y :: t

/-- Cylinders with their commit angles, in order of commit angle. -/
def byAngle (xs : List (Int × Fin 24)) : List (Fin 24) := (xs.foldr insCommit []).map (·.2)

/-- A cylinder that commits at this tick: weights, then the content of the commit instant, and the commit; its processing is
still to come. -/
def Half.commitDue (k : Fin 24) (h : Half) : Half :=
  let h1 := h.weightsNow k
  let cc := h1.contentFor k
  h1.commitAt k cc

/-- The processing of a commit whose instant has come (R43). -/
def Half.commitDone (k : Fin 24) (h : Half) : Half :=
  match (h.cyls.get k).defer with
  | some cc => h.commitWrite k cc
  | none => h

/-- Commit processing of a frame (R42, R176): the commits of earlier frames that wait, in order of commit angle, then those of this
frame in that order; up to two are processed, and the others wait with their content. -/
def Half.commits (h : Half) : Half :=
  let fires := 4 ≤ h.snap.st && h.snap.st ≤ 6
  let h0 : Half := { h with proc := fires }
  if !h.trk.fires then h0 else
  let h1 := if h.proc then h0 else eachIdx 24 Half.firstTick h0
  let waiting := byAngle ((idxs 24).filterMap (fun k => (h1.cyls.get k).defer.map (fun cc => (cc.ang, k))))
  let ready := byAngle ((idxs 24).filterMap (fun k => (h1.commitNow k).map (fun cc => (cc.ang, k))))
  let now := (waiting ++ ready).take 2
  let late := ready.filter (fun k => !now.contains k)
  let h2 := eachOf late (fun k h => (h.commitDue k).raise 0x1E (locInp h.id 7)) h1
  eachOf now (fun k h => (if waiting.contains k then h else h.commitDue k).commitDone k) h2

/-- The other half's report of a count after its commit in a FRAME arrives (R389, R539): a second one of a throw cycle is of the next; one of a
FRAME before the last wrap is of the cycle before, where that still lacks its report. -/
def Half.countReport (cyl : Nat) (fr n : Word) (h : Half) : Half :=
  eachIdx 24 (fun k h =>
    let s := h.cyls.get k
    if !(schCylValid s.cfg && schCylCyl s.cfg = cyl) then h
    else if s.old && s.mine.isSome && frameLater s.wrapAt fr then (h.takeCountOf k n).cylMap k (fun s => { s with mine := none })
    else if s.theirs.isSome then h.cylMap k (fun s => { s with ahead := some n })
    else (h.cylMap k (fun s => { s with theirs := some n })).recount k) h

end Sys2Proof.Machine
end

