-- ==== Sys2Proof/Machine/HubImage.lean ====
section
/-! DEFINITION. The configuration image as Efrun reads it from the bytes of R425, and the functions of bytes the spec
names without giving them: SHA-512, Ed25519, keys, the image body. -/

namespace Sys2Proof.Machine

open Sys2Proof

/-- A register and the value the image gives it. -/
structure RegItem where
  reg : Reg
  val : Word
deriving DecidableEq, Repr, Inhabited

/-- A static claim (R200, R201): resource type (0 EV pin, 1 channel timer, 2 SL pin, 3 comparators), its number, rank and
claimant index as R430 codes it. -/
structure ClaimItem where
  res  : Nat
  idx  : Nat
  rank : Nat
  who  : Nat
deriving DecidableEq, Repr, Inhabited

/-- What the image says of one half beyond registers: receivers' wheels, static twist table, power-stage inputs,
crossing comparators used as levels, inputs whose logging the configuration names, sluice program banks, TRIG slots of
the acquisition configuration. -/
structure HalfImg where
  ckd     : Wheel
  ckf     : Wheel
  cma     : PhaseDesc
  cmb     : PhaseDesc
  table   : TwistTable
  psfOn   : List (Fin 4)
  xcLevel : List (Fin 12)
  toothOn : List Inp
  progs   : List (Fin 2 × List (BitVec 24))
  trig    : List SlotC
deriving DecidableEq, Repr, Inhabited

/-- The image body (R425): register values; each half; cylinders' Basic events; library entries; link configuration;
levels of the seven functions (true Expert, R46); the approved pairs of a GUARDED image (R467); static claims; geometry;
OS_RPM of the engine description. -/
structure Image where
  regs     : List RegItem
  a        : HalfImg
  b        : HalfImg
  cyls     : List CylCfg
  libs     : List LibCfg
  link     : LinkCfg
  expert   : List Bool
  approved : List (Nat × Nat)
  claims   : List ClaimItem
  geom     : Geom
  osRpm    : Rat
deriving DecidableEq, Repr, Inhabited

/-- The description of a half by nothing. -/
def HalfImg.empty : HalfImg := ⟨Wheel.absent, Wheel.absent, ⟨[], [], 0⟩, ⟨[], [], 0⟩, ⟨[], [], []⟩, [], [], [], [], []⟩

/-- An image that sets nothing. -/
def Image.empty : Image := ⟨[], HalfImg.empty, HalfImg.empty, [], [], LinkCfg.dflt, List.replicate 7 false, [], [], ⟨0, 0, 0, 0⟩, 0⟩

end Sys2Proof.Machine

namespace Sys2Proof.Config

open Sys2Proof Sys2Proof.Machine


/-- What the bytes of an image say; the spec gives no layout of the body (log 7). -/
opaque decodeBody : List Byte → Image

/-- The digest SHA-512 (log 6). -/
opaque sha512 : List Byte → List Byte

/-- Ed25519 verification: public key, signed bytes, signature (log 6). -/
opaque ed25519Ok : List Byte → List Byte → List Byte → Bool

/-- The signature of the identity key (log 6). -/
opaque identitySign : List Byte → List Byte

/-- The identity public key, the endorsement signature, the vendor root key, SERIAL (8 bytes), HW_REV: fixed at
manufacture and not in the spec (log 6). -/
opaque identityKey : List Byte
/-- The endorsement of the identity key. -/
opaque endorsement : List Byte
/-- The vendor root key. -/
opaque rootKey : List Byte
/-- The module serial number as an 8-byte number. -/
opaque serial : Nat
/-- HW_REV. -/
opaque hwRev : Word

/-- The Ronro issuing keys a firmware image holds (R496). -/
opaque issuingKeys : List Byte → List (List Byte)

/-- The firmware image the module leaves the factory with in slot 0 (log 4). -/
opaque factoryFw : List Byte

/-- The byte offset in an image of the word that holds a register (log 7). -/
opaque imgReg : List Byte → Reg → Nat

/-- Where an image holds another item it is checked for, by kind and number: byte offset, LSB, width (log 7). -/
opaque imgItem : List Byte → Nat → Nat → Nat × Nat × Nat

/-- The time of a SENT frame in control frames by T_NOM, DATA_N and PAUSE (R445): how long its nibbles and its pause are counted
is not stated (log 34). -/
opaque sentPeriod (tNom dataN : Nat) (pause : Bool) : Nat

/-- The random bytes of a nonce (R449), by serial number. -/
opaque nonceByte : Nat → Nat → Byte

end Sys2Proof.Config

namespace Sys2Proof.Machine

/-- A cylinder has its pressure input or an angle trigger in a half: an enabled lane, or TRIG content (R389). -/
def Image.senses (im : Image) (cyl : Nat) (id : HalfId) : Bool :=
  im.regs.any (fun x => match x.reg with
    | .anaCfg h _ n => h = id && n.1 = 0 && anaCfg0En x.val && anaCfg0Cyl x.val = cyl
    | _ => false) || ((match id with | .A => im.a | .B => im.b).trig.any (fun c => c.cyl = cyl))

/-- The home half of a cylinder (R389): that of its lowest-numbered channel with a configured event; without one, that of its lowest-numbered
pressure input or angle trigger. Half A has the lower numbers (R22). -/
def Image.homeOf (im : Image) (c : CylCfg) : HalfId :=
  let a : Bool := if c.evts.isEmpty then im.senses c.cyl .A || !im.senses c.cyl .B else c.evts.any (fun e => e.half = .A)
  if a then .A else .B

/-- The image that bytes are, with the home halves of its cylinders (R389). -/
def Image.ofBytes (b : List Byte) : Image :=
  let im := Config.decodeBody b
  { im with cyls := im.cyls.map (fun c => { c with home := im.homeOf c }) }

end Sys2Proof.Machine
end

