-- ==== Sys2Proof/Machine/PartsHub.lean ====
section
/-! DEFINITION. The parts of the hub die: host link, the Weir, the Tarn, cycle records, closed loop, calibrations, floodgate
release, power, boot, flash, security. -/

namespace Sys2Proof.Machine

open Sys2Proof

/-- A request as its row serves it: mailbox, command, SEQ, SILENT, the payload from byte 16. -/
structure Ask where
  mb     : Nat
  cmd    : Nat
  seq    : BitVec 16
  silent : Bool
  p      : List Byte
deriving DecidableEq, Repr

/-- A request outstanding (R379): mailbox, SEQ, command, SILENT, and status and payload once it has finished. -/
structure HReq where
  mb     : Nat
  seq    : BitVec 16
  cmd    : Nat
  silent : Bool
  res    : Option (Nat × List Byte)
deriving DecidableEq, Repr

/-- An entry of the completion queue (R377, R396): the fields of its header, whether it is of the wake class, its
payload, the instant of its posting, whether it has been notified and sent, and whether it was posted as a wake-class
entry to a sleeping host (R402). -/
structure Entry where
  mb       : Nat
  cmd      : Nat
  unsol    : Bool
  wake     : Bool
  seq      : BitVec 16
  alive    : BitVec 16
  status   : Nat
  frame    : Word
  payload  : List Byte
  at_      : Nat
  notified : Bool
  sent     : Bool
  held     : Bool
deriving DecidableEq, Repr

/-- What the module sends on a port: 0 ETH1, 1 ETH2, 2 CAN1, 3 CAN2; for Ethernet the UDP port and IPv4 destination
(both 0: the source of the management frame answered); a CAN frame's identifier; the bytes; for Ethernet the port's own IPv4 address. -/
structure Sent where
  port  : Nat
  udp   : Nat
  ip    : Nat
  ident : Nat
  bytes : List Byte
  src   : Nat
deriving DecidableEq, Repr

/-- An entry of a setpoint frame on its way to staging (R422 to R424): its index, cylinder, CYCTAG, the four events as
(start, duration), and the halves it goes to. -/
structure SpEnt where
  idx   : Nat
  cyl   : Nat
  tag   : Nat
  evts  : List (Int × Nat)
  halfs : List HalfId
deriving DecidableEq, Repr

/-- A setpoint frame on its way from host intake to its staging at the next frame tick: the SEQ of its request (none: a
backup frame), entries forwarded, refusals as (index, cylinder, status) (R38, R45); `held` marks what a steward without foreground for that
tick has left to its next (R41). -/
structure SpFrame where
  seq    : Option (BitVec 16)
  ents   : List SpEnt
  refs   : List (Nat × Nat × Nat)
  held   : Bool
deriving DecidableEq, Repr

/-- The host link (R373 to R403, R431): alive counters; check failures as instants per stream (8 is the CAN backup
stream) and which streams are lastingly faulty; frames accepted within 1 ms for REDUNDANT as (transport, ALIVE, CRC,
instant); the setpoint source, a switch waiting for the tick, the instant of the takeover, the run of good MB1 frames;
backup entries kept as (cylinder, tag, events); link configuration; setpoint frames under way;
requests outstanding; MB0 requests (with the FRAME of their acceptance) and MB1 requests waiting for S0; doorbell counts; the completion queue; notifications; counters of
the streams the module sends; the ports last used, and the UDP port and IPv4 address of the source of the last accepted message; request buffer, REQ_BUSY until, SPI_LOST; what the module has sent,
newest first. -/
structure HostLink where
  alive    : Vector (Option (BitVec 16)) 8
  canAlive : Vector (Option Nat) 24
  fails    : Vector (List Nat) 9
  faulty   : Vector Bool 9
  chk      : Nat
  dups     : List (Transport × BitVec 16 × Word × Nat)
  source   : Nat
  swPend   : Bool
  swAt     : Nat
  okRun    : Nat
  backup   : List (Nat × Nat × List (Int × Nat))
  cfg      : LinkCfg
  sp       : List SpFrame
  reqs     : List HReq
  mb0      : List (Ask × Word)
  mb1      : List Ask
  doors    : Vector Nat 8
  cq       : List Entry
  head     : BitVec 16
  tail     : BitVec 16
  ovf      : Nat
  irq      : Bool
  dgAt     : List Nat
  asleep   : Bool
  outAlive : BitVec 16
  telAlive : BitVec 16
  canOut   : Vector Nat 2
  statAt   : Nat
  ports    : Nat
  peer     : Nat × Nat
  buf      : List Byte
  busy     : Option Nat
  spiLost  : Nat
  sent     : List Sent
deriving DecidableEq, Repr

/-- PTP and PPS (R33, R404, R405): LOCK, last offset estimate, consecutive good intervals, instants of the last sync and
PPS, the time map, the instant at which it was last written. -/
structure PtpSt where
  lock   : Nat
  ofs    : Int
  run    : Nat
  syncAt : Option Nat
  ppsAt  : Option Nat
  mapF   : Word
  mapS   : Nat
  mapNs  : Nat
  mapAt  : Option Nat
  hold   : Bool
deriving DecidableEq, Repr

/-- A level source (R411): 0 ARMED, 1 PENDING, 2 HELD_HIGH; LIVE; whether its handler has queried it since the record; its
TRANSIENT counter. -/
structure LvlSrc where
  src   : Nat
  st    : Nat
  live  : Bool
  asked : Bool
  trans : Nat
deriving DecidableEq, Repr

/-- The Weir (R406 to R412): WEIR_SRC entries that differ from the default as (source, enabled, queue); four queues,
LOST, the OVF mark of the next record, level sources. -/
structure WeirSt where
  srcs   : List (Nat × Bool × Nat)
  queues : Vector (List WeirRec) 4
  lost   : Vector Nat 4
  ovf    : Vector Bool 4
  levels : List LvlSrc
deriving DecidableEq, Repr

/-- A closed cycle record or a trace block in the Tarn (R326, R328, R503): its index, its bytes, marked lost by ECC, the
FRAME of its writing, its place in the order of finishing, and the serial number of its writing to the Tarn (R448). -/
structure TarnRec where
  idx   : Nat
  bytes : List Byte
  lost  : Bool
  frame : Word
  ord   : Nat
  wr    : Nat
deriving DecidableEq, Repr

/-- A tooth log entry (R446): half, input, TS, class, POS, its FRAME, marked lost, and the serial number of its writing to the Tarn (R448). -/
structure ToothRec where
  h     : HalfId
  inp   : Nat
  ts    : Word
  cls   : Nat
  pos   : Nat
  frame : Word
  lost  : Bool
  wr    : Nat
deriving DecidableEq, Repr

/-- The Tarn (R503), newest first in each area, with the counts of records written, of blocks begun, of blocks
finished, of teeth, and of everything written. -/
structure Tarn where
  recs   : List TarnRec
  recN   : Nat
  blocks : List TarnRec
  blockN : Nat
  blockW : Nat
  teeth  : List ToothRec
  toothN : Nat
  writes : Nat
deriving DecidableEq, Repr

/-- A cycle record that is open (R325 to R327): who builds it (none: the hub), its opening, LOAD, the slots awaited and
the entries written as (key, bytes), the results filed with the FRAME of the filing, TRACE_IDX, the flags gathered, whether
results that a reset has lost are no longer awaited, and PMAX_CYC of a cycle window that has closed. -/
structure CycRec where
  place : Option HalfId
  o     : OpenRec
  load  : Nat
  wait  : List (Nat × Nat)
  ents  : List ((Nat × Nat) × List Byte)
  cmb   : Option (Word × ResOut)
  imep  : Option (Word × ResOut)
  trace : Option Nat
  flags : Nat
  waive : Bool
  pmax  : Option Int
deriving DecidableEq, Repr

/-- Cycle records under way: those open, results that wait for their record, trace blocks under way as (cylinder, index,
decimated), results and cycle peaks (R336) for S1's intake, records closed in an islanded half with how many were overwritten. -/
structure Recs where
  opens  : List CycRec
  early  : List ResOut
  traces : List (Nat × Nat × Bool)
  intake : List ResOut
  peaks  : List (Nat × Nat × Nat × Option Int × Rat)
  kept   : List (HalfId × List (List Byte))
  lostN  : Nat
deriving DecidableEq, Repr

/-- The closed loop of a cylinder (R330 to R335): CL_CFG0, CL_CFG1, the correction in Q16, its source cycle, AT_LIMIT,
HOLD, FROZEN, MFB50 of the latest unheld result. -/
structure ClSt where
  cfg0  : Word
  cfg1  : Word
  delta : Rat
  src   : Nat
  limit : Bool
  hold  : Bool
  frozen : Bool
  last  : Option Int
deriving DecidableEq, Repr

/-- The wiring check of a lane (R336): verdict, CYL_SEEN, VOTES of the last count, the running count's cycles, votes by
cylinder, and of the last combustion result its cycle count and whether its cycle can be counted. -/
structure CorrSt where
  verdict : Nat
  seen    : Nat
  votes   : Nat
  counted : Nat
  tally   : List (Nat × Nat)
  comb    : Option (Nat × Bool)
deriving DecidableEq, Repr

/-- A running alignment (R148): SEQ and SILENT of its request, travel, sums over its samples, their number, smallest and
largest speed. -/
structure AlignRun where
  req   : BitVec 16 × Bool
  trav  : Int
  last  : Int
  sum   : Int
  n     : Nat
  spd   : Nat
  lo    : Nat
  hi    : Nat
deriving DecidableEq, Repr

/-- A calibration sample (R149): cylinder, e in Q16, tau_app in Q16. -/
structure CalSmp where
  cyl : Nat
  e   : Rat
  tau : Rat
deriving DecidableEq, Repr

/-- A running weight and offset calibration (R149, R443): request, method, CUT_EVERY, PROBE_GP, cylinders, LOSS_ANGLE in
0.001 degree, the instant of TIMEOUT, samples, cut cycles under way as (cylinder, count), cycles left before a cylinder's
next cut with the count of the cycle that was counted last, the instant of the probe's rising crossing. -/
structure TwistRun where
  req   : BitVec 16 × Bool
  probe : Bool
  every : Nat
  gp    : Nat
  cyls  : List Nat
  loss  : Nat
  until_ : Nat
  smps  : List CalSmp
  cuts  : List (Nat × Nat)
  left  : List (Nat × Nat × Nat)
  rise  : Option Nat
deriving DecidableEq, Repr

/-- A cylinder's line of a twist calibration result (R441, R150). -/
structure TwistFit where
  cyl    : Nat
  only   : Bool
  rej    : Bool
  kept   : Nat
  w      : Int
  s      : Int
  rms    : Nat
deriving DecidableEq, Repr

/-- A calibration result kept (R443): RESULT_ID; an alignment's Delta and mean, or a twist calibration's lines. -/
structure CalRes where
  id    : Nat
  align : Option (Int × Int × Bool)
  fits  : List TwistFit
deriving DecidableEq, Repr

/-- A WHEEL_DIAG that waits (R441): request, half, input, NEDGE, entries newest first, the instant of 1 s. -/
structure DiagRun where
  req  : BitVec 16 × Bool
  h    : HalfId
  inp  : Inp
  n    : Nat
  ents : List (List Byte)
  till : Nat
deriving DecidableEq, Repr

/-- MB4's running services (R441 to R445): calibrations, the results kept, the next RESULT_ID, WHEEL_DIAG requests. -/
structure CalSvc where
  align : Option AlignRun
  twist : Option TwistRun
  res   : List CalRes
  next  : Nat
  diags : List DiagRun
deriving DecidableEq, Repr

/-- The floodgate at the hub (R225 to R235, R538): FG_CFG, input levels, since when both are high, since when they differ,
the standing STOP, the release state (0 TRIPPED, 1 CHECKED, 2 RUN), the trip count, an accepted release as (halves, the SEQs
that complete with it), the reason of the last check that failed, HALF_RESET latches not yet counted (the half, whether the release state was
RUN, FRAME), the halves whose check passes and the reason of one that fails (R234), FGA and FGB asserting as sources (R236). -/
structure FgHub where
  cfg   : Word
  fga   : Bool
  fgb   : Bool
  hiAt  : Option Nat
  diffAt : Option Nat
  stop  : Bool
  st    : Nat
  trips : BitVec 16
  rel   : Option (List HalfId × List (BitVec 16))
  fail  : Nat
  owed  : List (HalfId × Bool × Word)
  halfChk : List HalfId
  halfFail : Nat
  lowA  : Bool
  lowB  : Bool
deriving DecidableEq, Repr

/-- A reservoir at S1 (R254 to R261): U_MEAS in J of the last tick, whether known, BELOW_MIN, f_A, whether a cycle has been
counted, frozen shares, and whether the links were split at the last tick. -/
structure ResHub where
  u      : Rat
  known  : Bool
  below  : Bool
  fA     : Rat
  cycled : Bool
  frozen : Bool
  split  : Bool
deriving DecidableEq, Repr

/-- The power budget and the sensor supplies (R263 to R266, R489, R521): PWR_CFG, V_IN and P_IN of the last tick, the shed
level, the supplies on, tripped (and since when), switched off by level 4, waiting to start with the instant of the next
start; the instant of the last retry; the wheel sensor supplies; scrubs deferred since; since when P_IN stands above 60 W
and whether that has been raised. -/
structure Pwr where
  cfg    : Word
  vIn    : Nat
  pIn    : Nat
  shed   : Nat
  on     : Vector Bool 24
  trip   : Vector Bool 24
  tripAt : Vector Nat 24
  off4   : Vector Bool 24
  queue  : List (Fin 24)
  stepAt : Nat
  retryAt : Option Nat
  wheel  : Bool
  scrub  : Option Nat
  overAt : Option Nat
  raised : Bool
deriving DecidableEq, Repr

/-- A firmware slot (R492): 0 EMPTY, 1 VALID, 2 TRIAL, 3 ACTIVE, 4 FAILED; its image, boot attempts. -/
structure FwSlot where
  st    : Nat
  img   : List Byte
  tries : Nat
deriving DecidableEq, Repr

/-- An image transfer (R427): length and chunks, newest first. -/
structure Xfer where
  len    : Nat
  chunks : List (Nat × List Byte)
deriving DecidableEq, Repr

/-- An event log entry (R505): INDEX, TYPE, PLACE, CODE, FRAME, BOOT_CNT, DATA. -/
structure LogE where
  idx   : Nat
  typ   : Nat
  place : Nat
  code  : Nat
  frame : Word
  boot  : Nat
  data  : List Byte
deriving DecidableEq, Repr

/-- A set of the calibration area (R504): its number since manufacture, the number of the set it was first written as, the configuration's
digest, W and S per cylinder, CYC_OFS corrections. -/
structure CalSet where
  idx   : Nat
  first : Nat
  dig   : List Byte
  cyls  : List (Nat × Int × Int)
  ofs   : Int
deriving DecidableEq, Repr

/-- The flash and the OTP (R492 to R505): firmware slots, configuration images newest first and the area the next goes to, the event log
newest first with the second it counts and its entries and suppressions, calibration sets newest first and their number since manufacture, owner key, rollback floor, cold boots since manufacture. -/
structure Flash where
  fw     : Vector FwSlot 2
  store  : List (List Byte)
  area   : Nat
  log    : List LogE
  logN   : Nat
  logSec : Nat
  logCnt : Nat
  logSup : Nat
  cal    : List CalSet
  calN   : Nat
  owner  : Option (List Byte)
  floor  : Nat
  boots  : Nat
deriving DecidableEq, Repr

/-- Supply, KEY, boot and reset (R481 to R495): the voltage in 0.1 V, KEY, whether the dies run (not asleep, not held in reset),
STAGE, whether the ROM has selected a slot, whether only the hub was reset, the instant from which a trial counts its 60 s,
the start of the wait of 2 s after KEY low, RESET_CAUSE's fields, the running slot, BOOT_STATE's flags, the resets that follow a
RESET as (target, instant), the cause of the next cold boot (0: already recorded). -/
structure BootSt where
  v      : Nat
  key    : Bool
  awake  : Bool
  stage  : Nat
  picked : Bool
  warm   : Bool
  since  : Nat
  keyAt  : Option Nat
  cause  : Nat
  prev   : Nat
  count  : BitVec 16
  slot   : Bool
  trial  : Bool
  fwFall : Bool
  cfgFall : Bool
  cfgMis : Bool
  follow : List (Nat × Nat)
  next   : Nat
deriving DecidableEq, Repr

/-- Configuration in force and transfers (R425 to R428): the committed image's bytes and its body, FRAME of the last
apply, the staging area, commits applied at the next tick and those whose flash write runs as (image, SEQ), the firmware
transfer. -/
structure CfgSt where
  bytes  : Option (List Byte)
  img    : Image
  guard  : Bool
  frame  : Word
  stage  : Option Xfer
  apply  : List (List Byte × BitVec 16)
  write  : List (List Byte × BitVec 16)
  fw     : Option Xfer
deriving DecidableEq, Repr

/-- Security (R449, R450, R500): nonces as (bytes, instant) while unused, the instants JTAG opened and closes, the nonces' serial
count. -/
structure SecSt where
  nonces : List (List Byte × Nat)
  jtag   : Option (Nat × Nat)
  count  : Nat
deriving DecidableEq, Repr

/-- Telemetry (R446, R448, R506): mask, port, UDP port and destination; the next record, block and tooth to send; FRAMEs
missed; the FRAME up to which library values, and all else, have been sent; whether it stands paused. -/
structure Telem where
  to_   : Option (Nat × Nat × Nat × Nat)
  rec_  : Nat
  blk   : Nat
  tooth : Nat
  gap   : Option (Word × Word)
  lib   : Word
  from_ : Word
  pause : Bool
deriving DecidableEq, Repr

/-- What a request makes happen at a frame tick: the direction (R421), tracker coefficients (R436), a GPIO level (R440), a run-time
claim of a pin index by rank and engine (R201), the link configuration (R431). -/
inductive Job where
  | dir (h : HalfId) (ast : Bool)
  | tracker (h : HalfId) (i : Inp) (depth lo blank : Nat)
  | gpioEv (h : HalfId) (m : Fin 48) (lvl : Bool)
  | gpioSl (h : HalfId) (n : Fin 16) (lvl oe : Bool)
  | claim (h : HalfId) (i : Nat) (rank eng : Nat)
  | link (modCnt notify modTime : Nat) (backup : Bool)
deriving DecidableEq, Repr

/-- The work of one request for the next frame tick: mailbox, SEQ, the payload of its completion, the work. -/
structure JobRun where
  mb   : Nat
  seq  : BitVec 16
  ans  : List Byte
  todo : List Job
deriving DecidableEq, Repr

/-- The hub die: FRAME, the instant of the last tick, and its parts; `load` is the last load figure (R147), `jobs` what waits
for the next tick, `lastWd` when each core last ended its foreground (R486). For the cores S0, S1, steward A, steward B: `behind`
is the instant at which a foreground that runs past a tick ends (R41), `owed` that instant where the tick has passed and the core's next
foreground starts then, `noBg` that no background runs in this frame (R40).
`leat` holds the check units' alive counters on the Leat, toward half A and toward half B (R27); `wrapOwed` a wrap at a tick whose
S1 foreground was passed over (R41, R254); `disAt` since when the halves' flags on each input disagree, and whether that was counted
(R84). -/
structure Hub where
  frame  : Word
  tick   : Nat
  link   : HostLink
  ptp    : PtpSt
  weir   : WeirSt
  flt    : Faults
  tarn   : Tarn
  recs   : Recs
  cl     : Vector ClSt 24
  corr   : Word
  corrs  : Vector CorrSt 24
  res    : Vector ResHub 8
  cal    : CalSvc
  fg     : FgHub
  pwr    : Pwr
  flash  : Flash
  boot   : BootSt
  cfg    : CfgSt
  sec    : SecSt
  tel    : Telem
  load   : Nat
  jobs   : List JobRun
  lastWd : Vector Nat 4
  behind : Vector (Option Nat) 4
  owed   : Vector (Option Nat) 4
  noBg   : Vector Bool 4
  leat   : Vector (Option (BitVec 16)) 2
  wrapOwed : Bool
  disAt  : Vector (Option (Nat × Bool)) 6
deriving DecidableEq, Repr

end Sys2Proof.Machine
end

