-- ==== Sys2Proof/Machine/ResetVals.lean ====
section
/-! DEFINITION. The values of every part after reset: the defaults of the field maps (R17), and where the spec gives none
the values of log 1 and log 4. -/

namespace Sys2Proof.Machine

open Sys2Proof

/-- A receiver after reset. -/
def Rcv.reset : Rcv :=
  ⟨wrxCfg0Reset, wrxCfg1Reset, false, false, false, 0, false, false, false, false, 0, 0, 0, none, 40, 0, 0, 0, 0, [], (0, 0), (0, 0), (0, 0), 0, 0, 0,
    ⟨false, false, false, 0, false, false⟩, []⟩

/-- The reversed-pair check after reset. -/
def RevChk.reset : RevChk := ⟨false, false, false, 0, 0, 0, 0, 0, false, none, false⟩

/-- The tracker after reset: STOP, no source. -/
def Trk.reset : Trk :=
  ⟨trkCfg0Reset, trkCfg1Reset, 0, TUnit.seek none, TUnit.seek none, TUnit.seek none, 0, ⟨[], none, 0, 0, 0⟩,
    ⟨false, false, false, false, 0, 0, false, 0, 0, false, (0, false), 0⟩, 0, false, false, 0, 0, 0, 0, none, none⟩

/-- The twist unit after reset. -/
def Tws.reset : Tws :=
  ⟨twsCfg0Reset, 0, false, false, false, 0, 0, 0, Vector.replicate 24 ⟨twsWReset, 0, 0, 0, 0, none, 0⟩, 0, none, none, false, false,
    false, 0, 0, none, 0, []⟩

/-- A snapshot of STOP. -/
def Snap.reset : Snap :=
  ⟨0, false, 0, Vector.replicate 24 0x80000000#32, 0, false, Vector.replicate 23 false, Vector.replicate 12 0#32⟩

/-- The slot store after reset: EMPTY below 0x0C0, FREE above (R159, R161). -/
def slotsReset : Vector Slot 1024 := Vector.ofFn (fun k : Fin 1024 => Slot.empty (k.1 < 0x0C0))

/-- A cylinder's bookkeeping after reset. -/
def CylSt.reset : CylSt :=
  ⟨schCylReset, 0, false, false, none, none, none, 0, 0, none, none, none, none, false, 0, false, none, none, false, 0, 0, 0⟩

/-- A bank after reset. -/
def Bank.reset : Bank := ⟨poolCfgReset, 0, 0, 0, 0, 0, 0⟩

/-- A channel after reset. -/
def Chan.reset : Chan :=
  ⟨schChReset, outCfgReset, none, false, false, false, false, false, false, 0, false, none, [], false⟩

/-- A drive sequencer after reset: IDLE. -/
def Pair.reset : Pair :=
  ⟨drvPairReset, 7, 0, false, false, false, false, false, 0, 0, 0, false, false, false, false, 0, 0, none, 0, false⟩

/-- The floodgate of a timing die after reset: latch set with a cause (R226, R236). -/
def Fg.reset (cause : Nat) : Fg := ⟨true, false, cause, 0, osCfgReset, false, 0, 0, none, 0⟩

/-- A link that runs. -/
def LinkSt.up0 : LinkSt := ⟨true, 0, 0, none, false⟩

/-- The links after reset. -/
def Links.reset : Links := ⟨LinkSt.up0, LinkSt.up0, none, 0, false, false, 0, splitCfgReset, false, false, (0, false, 0), none, 0⟩

/-- LAST of an input before its first sample (R292). -/
def LastR.reset : LastR := ⟨0x8000#16, none, false, false, false, false⟩

/-- Acquisition after reset. -/
def Acq.reset : Acq :=
  ⟨Vector.replicate 48 ainCfgReset, Vector.replicate 48 LastR.reset, Vector.replicate 9 ⟨seqCfgReset, none, [], [], none⟩,
    Vector.replicate 32 ⟨trgCfg0Reset, trgCfg1Reset, []⟩, aclkCfgReset, none, none, Vector.replicate 4 acqTmrReset,
    Vector.replicate 4 none, Vector.replicate 4 0, Vector.replicate 12 ⟨xcCfgReset, 0, false, false, 0⟩, false, false,
    Vector.replicate 12 false, Vector.replicate 12 false, 0, calCfgReset,
    Vector.ofFn (fun g : Fin 3 => ⟨0, 0, 0, [12, 6, 2].getD g.1 0, false, none, [], none, 0, none, [], 0⟩), Vector.replicate 23 ⟨0, false, 0, 0⟩, 0,
    ⟨tdacCfgReset, 0, false, none⟩, [], 0, 0, 0, false, Vector.replicate 23 false, 0, none⟩

/-- An analysis lane after reset. -/
def Lane.reset : Lane :=
  ⟨Vector.ofFn (fun n : Fin 6 => #[anaCfg0Reset, anaCfg1Reset, anaCfg2Reset, anaCfg3Reset, anaCfg4Reset, anaCfg5Reset].getD n.1 0#32),
    anaScaleReset, anaPscaleReset, [], 0, false, none, false, false, false, [], [], 0, 0, 0, false, none, [], none, none, false⟩

/-- A reservoir's share after reset. -/
def ResSt.reset : ResSt := ⟨resCfg0Reset, resCfg1Reset, resCfg2Reset, 0, false, 0, false, 0, 0, false, 1 / 2, 0, none⟩

/-- The ledger of a half after reset. -/
def Led.reset : Led :=
  ⟨Vector.replicate 8 ResSt.reset, Vector.replicate 24 resMapReset, Vector.replicate 32 resCost0Reset, [], [], [], [], 0,
    Vector.replicate 32 resCost0Reset, []⟩

/-- A sluice engine after reset: OFF. -/
def Sle.reset : Sle :=
  ⟨sleCfg0Reset, sleCfg1Reset, sleCfg2Reset, sleClkReset, 0, 0, 0, 0, 0, 0, 0, 0, 0, 0, none, none, false, [], [], false, false,
    false, false, false, 0, 0, false, false, 0, 0, [], [], false, 0, 0⟩

/-- The sluice engines after reset. -/
def Slu.reset : Slu :=
  ⟨Vector.replicate 8 Sle.reset, Vector.replicate 2 ⟨Vector.replicate 48 0, Vector.replicate 48 0, false, 0, [], none, false, 0, 0⟩,
    Vector.replicate 16 ⟨slpCfgReset, false, false, none, false, 0, false, []⟩, [], false⟩

/-- What a half holds of no image. -/
def HalfCfg.reset : HalfCfg :=
  ⟨Wheel.absent, Wheel.absent, ⟨[], [], 0⟩, ⟨[], [], 0⟩, ⟨[], [], []⟩, [], 2, none, [], [], [], [], [], ⟨0, 0, 0, 0⟩⟩

/-- A half right after reset, its latch set with a cause. -/
def Half.reset (id : HalfId) (cause : Nat) : Half :=
  { id := id, on := false, now := 0, frame := 0, cfg := HalfCfg.reset
    rcv := Vector.replicate 6 Rcv.reset, rev := Vector.replicate 6 RevChk.reset, trk := Trk.reset, tws := Tws.reset
    schCfg := schCfgReset, slots := slotsReset, cyls := Vector.replicate 24 CylSt.reset, banks := Vector.replicate 4 Bank.reset
    chans := Vector.replicate 48 Chan.reset, pairs := Vector.replicate 24 Pair.reset
    profs := Vector.replicate 32 (Vector.replicate 16 0), profNew := Vector.replicate 32 none
    fg := Fg.reset cause, links := Links.reset, flt := Faults.reset, snap := Snap.reset, proc := false
    evq := [], evqLost := 0, evqOvf := false, fired := [], pinElec := pinElecReset, shed := 0
    led := Led.reset, acq := Acq.reset, ana := ⟨Vector.replicate 12 Lane.reset, trcCfgReset⟩, slu := Slu.reset, out := [] }

/-- The host link after power-up (R375). -/
def HostLink.reset : HostLink :=
  { alive := Vector.replicate 8 none, canAlive := Vector.replicate 24 none, fails := Vector.replicate 9 []
    faulty := Vector.replicate 9 false, chk := 0, dups := [], source := 0, swPend := false, swAt := 0, okRun := 0, backup := []
    cfg := LinkCfg.dflt, sp := [], reqs := [], mb0 := [], mb1 := [], doors := Vector.replicate 8 0, cq := [], head := 0
    tail := 0, ovf := 0, irq := false, dgAt := [], asleep := false, outAlive := 0, telAlive := 0, canOut := Vector.replicate 2 0, statAt := 0
    ports := 0, peer := (0, 0), buf := zeros 1024, busy := none, spiLost := 0, sent := [] }

/-- The Weir after reset. -/
def WeirSt.reset : WeirSt := ⟨[], Vector.replicate 4 [], Vector.replicate 4 0, Vector.replicate 4 false, []⟩

/-- The closed loop of a cylinder after reset (R341). -/
def ClSt.reset : ClSt := ⟨clCfg0Reset, clCfg1Reset, 0, 0, false, false, false, none⟩

/-- The floodgate at power-up: TRIPPED (R232), inputs low until they are seen high. -/
def FgHub.reset : FgHub := ⟨fgCfgReset, false, false, none, none, false, 0, 0, none, 1, [], [], 1, false, false⟩

/-- The supplies after reset: off. -/
def Pwr.reset : Pwr :=
  { cfg := pwrCfgReset, vIn := 0, pIn := 0, shed := 0, on := Vector.replicate 24 false, trip := Vector.replicate 24 false
    tripAt := Vector.replicate 24 0, off4 := Vector.replicate 24 false, queue := [], stepAt := 0, retryAt := none, wheel := false
    scrub := none, overAt := none, raised := false }

/-- The flash of a module whose slot 0 holds firmware (log 4). -/
def Flash.reset : Flash := ⟨#v[⟨3, Config.factoryFw, 0⟩, ⟨0, [], 0⟩], [], 0, [], 0, 0, 0, 0, [], 0, none, 0, 0⟩

/-- Boot state at the start of a cold boot (log 4): supply at 24.0 V, KEY high, STAGE ROM, cause POWER_ON to come. -/
def BootSt.reset : BootSt :=
  { v := 240, key := true, awake := true, stage := 0, picked := false, warm := false, since := 0, keyAt := none, cause := 0, prev := 0
    count := 0, slot := false, trial := false, fwFall := false, cfgFall := false, cfgMis := false, follow := [], next := 1 }

/-- The hub after reset. -/
def Hub.reset : Hub :=
  { frame := 0, tick := 0, link := HostLink.reset, ptp := ⟨0, 0, 0, none, none, 0, 0, 0, none, false⟩, weir := WeirSt.reset, flt := Faults.reset
    tarn := ⟨[], 0, [], 0, 0, [], 0, 0⟩, recs := ⟨[], [], [], [], [], [], 0⟩, cl := Vector.replicate 24 ClSt.reset, corr := corrCfgReset
    corrs := Vector.replicate 24 ⟨0, 0, 0, 0, [], none⟩, res := Vector.replicate 8 ⟨0, false, false, 1 / 2, false, false, false⟩
    cal := ⟨none, none, [], 0, []⟩, fg := FgHub.reset, pwr := Pwr.reset, flash := Flash.reset, boot := BootSt.reset
    cfg := ⟨none, Image.empty, false, 0, none, [], [], none⟩, sec := ⟨[], none, 0⟩
    tel := ⟨none, 0, 0, 0, none, 0, 0, false⟩, load := 0, jobs := [], lastWd := Vector.replicate 4 0
    behind := Vector.replicate 4 none, owed := Vector.replicate 4 none, noBg := Vector.replicate 4 false, leat := Vector.replicate 2 none, wrapOwed := false,
    disAt := Vector.replicate 6 none }

end Sys2Proof.Machine
end

