-- ==== Sys2Proof/Machine/State.lean ====
section
/-! DEFINITION. The state of the module (plain data), the reasons a step can stop, and the state after reset. -/

namespace Sys2Proof.Machine

open Sys2Proof

/-- The module: two halves, the hub, the EVCLK periods since the clock started, the serial number of the next free value
(the model's own field, log 5), what a half without a hub path keeps for the hub (R455, R460), and the
commands waiting, first in first out. -/
structure State where
  a       : Half
  b       : Half
  hub     : Hub
  now     : Nat
  freeCtr : Nat
  kept    : List (HalfId × Out)
  pending : List Instr
deriving DecidableEq, Repr

/-- The faults a step can stop with: none. Every row of the table has an effect the spec gives or leaves without one. -/
inductive Fault where
deriving DecidableEq, Repr

/-- The refusals. -/
inductive Refusal where
  /-- A row whose meaning is not written yet, by its mnemonic; raised by its arm of the dispatch only. Safe: nothing
  follows about it. -/
  | notModelled (mnemonic : String)
deriving DecidableEq, Repr

/-- The state right after reset: a cold boot about to begin, with the supply present and KEY high (log 4). -/
def State.reset : State := ⟨Half.reset .A 0, Half.reset .B 0, Hub.reset, 0, 0, [], []⟩

end Sys2Proof.Machine
end

