-- ==== Sys2Proof/Machine/Ops.lean ====
section
/-! DEFINITION. The operations of the module every command uses: the halves, the passing of time, the event log, the Weir,
the completion queue, the kill net, and what a half hands to the hub. -/

namespace Sys2Proof.Machine

open Sys2Proof

/-! ### Parts of the state -/

/-- A half of the module. -/
def State.half (s : State) : HalfId → Half
  | .A => s.a
  | .B => s.b

/-- The module with another half. -/
def State.setHalf (s : State) (h : Half) : HalfId → State
  | .A => { s with a := h }
  | .B => { s with b := h }

/-- Change the hub. -/
def State.hubMap (f : Hub → Hub) (s : State) : State := { s with hub := f s.hub }

/-- Change the host link. -/
def State.linkMap (f : HostLink → HostLink) (s : State) : State := s.hubMap (fun u => { u with link := f u.link })

/-- Change the floodgate at the hub. -/
def State.fgMap (f : FgHub → FgHub) (s : State) : State := s.hubMap (fun u => { u with fg := f u.fg })

/-- Change the Tarn. -/
def State.tarnMap (f : Tarn → Tarn) (s : State) : State := s.hubMap (fun u => { u with tarn := f u.tarn })

/-- Change the cycle records under way. -/
def State.recsMap (f : Recs → Recs) (s : State) : State := s.hubMap (fun u => { u with recs := f u.recs })

/-- Change the Weir. -/
def State.weirMap (f : WeirSt → WeirSt) (s : State) : State := s.hubMap (fun u => { u with weir := f u.weir })

/-- Change MB4's services. -/
def State.calMap (f : CalSvc → CalSvc) (s : State) : State := s.hubMap (fun u => { u with cal := f u.cal })

/-- Change the boot state. -/
def State.bootMap (f : BootSt → BootSt) (s : State) : State := s.hubMap (fun u => { u with boot := f u.boot })

/-- Change the flash. -/
def State.flashMap (f : Flash → Flash) (s : State) : State := s.hubMap (fun u => { u with flash := f u.flash })

/-- Change the configuration. -/
def State.cfgMap (f : CfgSt → CfgSt) (s : State) : State := s.hubMap (fun u => { u with cfg := f u.cfg })

/-- Change the power part. -/
def State.pwrMap (f : Pwr → Pwr) (s : State) : State := s.hubMap (fun u => { u with pwr := f u.pwr })

/-- Both halves. -/
def bothHalves : List HalfId := [.A, .B]

/-- A half in which the hub reaches it (R469, R472). -/
def State.reach (s : State) (id : HalfId) : Bool := (s.half id).on && (s.half id).links.path

/-- The tracker of each half is in STOP (R428, R443, R450, R452); one that is off counts as in STOP (R484). -/
def State.stopped (s : State) : Bool := bothHalves.all (fun id => !(s.half id).on || (s.half id).trk.st = 0)

/-- The primary half (R470). -/
def State.primary (s : State) : HalfId := if s.a.links.hub.up then .A else .B

/-- A fresh free number of a place (log 5). -/
def State.fresh (place : Nat) (s : State) : Nat × State := (Config.freeNat place s.freeCtr, { s with freeCtr := s.freeCtr + 1 })

/-! ### The event log (R504, R505) -/

/-- An entry written to the log, none of it coalesced: 112 blocks of 2,048 entries, the oldest block erased when the log comes round to
it (R504). -/
def Flash.write (typ place code : Nat) (frame : Word) (data : List Byte) (f : Flash) : Flash :=
  let e : LogE := ⟨f.logN, typ, place, code, frame, f.boots, (data ++ zeros 12).take 12⟩
  { f with log := (e :: f.log).filter (fun x => (f.logN / 2048 - 111) * 2048 ≤ x.idx), logN := f.logN + 1 }

/-- An entry for the log in a second: beyond 64 in it entries are only counted (R504). -/
def Flash.add (sec typ place code : Nat) (frame : Word) (data : List Byte) (f : Flash) : Flash :=
  let f1 : Flash := if sec = f.logSec then f
    else if f.logSup > 0 then { (f.write 0x3F 0 0 frame (le 4 f.logSup)) with logSec := sec, logCnt := 0, logSup := 0 }
    else { f with logSec := sec, logCnt := 0, logSup := 0 }
  if f1.logCnt ≥ 64 then { f1 with logSup := f1.logSup + 1 }
  else { (f1.write typ place code frame data) with logCnt := f1.logCnt + 1 }

/-- An event log entry (R505). -/
def State.log (typ place code : Nat) (frame : Word) (data : List Byte) (s : State) : State :=
  s.flashMap (Flash.add (s.now / etPerSec) typ place code frame data)

/-! ### The configuration store and the calibration area (R504) -/

/-- An image is written to the configuration store (R504): in the next of the four areas; the newest two are kept. -/
def Flash.putImage (b : List Byte) (f : Flash) : Flash := { f with store := b :: f.store.take 1, area := (f.area + 1) % 4 }

/-- The newest set of a digest: W and S per cylinder, CYC_OFS corrections. -/
def Flash.calOf (dig : List Byte) (f : Flash) : Option (List (Nat × Int × Int) × Int) :=
  (f.cal.find? (fun x => x.dig = dig)).map (fun x => (x.cyls, x.ofs))

/-- The newest set of each of the last four digests, by when they were first written (log 116). -/
def Flash.calLast (f : Flash) : List CalSet :=
  let new := f.cal.filter (fun x => f.cal.find? (fun y => y.dig = x.dig) = some x)
  new.filter (fun x => new.countP (fun y => x.first < y.first) < 4)

/-- A set is written. -/
def Flash.calAdd (first : Nat) (dig : List Byte) (v : List (Nat × Int × Int) × Int) (f : Flash) : Flash :=
  { f with cal := ⟨f.calN, first, dig, v.1, v.2⟩ :: f.cal, calN := f.calN + 1 }

/-- The area of 16 blocks of 64 sets comes round to a written block (R504): it is erased, and what it held of the newest sets of the last four
digests is copied forward. -/
def Flash.calRoll (f : Flash) : Flash :=
  if f.calN % 64 ≠ 0 || f.calN < 1024 then f else
  let old (x : CalSet) : Bool := x.idx + 960 < f.calN
  (f.calLast.filter old).reverse.foldl (fun g x => g.calAdd x.first x.dig (x.cyls, x.ofs)) { f with cal := f.cal.filter (fun x => !old x) }

/-- The set of a digest changes: written anew (R504). -/
def Flash.calSet (dig : List Byte) (v : (List (Nat × Int × Int) × Int) → (List (Nat × Int × Int) × Int)) (f : Flash) : Flash :=
  let old := (f.calOf dig).getD ([], 0)
  let g := f.calRoll
  g.calAdd g.calN dig (v old)

/-! ### The Weir (R406 to R410) -/

/-- The default of WEIR_SRC: sources enabled; MB0's doorbell and the sources of floodgate and overspeed on queue 0, the
others on queue 1 (DESIGN CHOICE, log 17). -/
def weirDefault (src : Nat) : Bool × Nat :=
  (true, if src = 0 ∨ src = 0x020 + 0x2A ∨ src = 0x100 + 0x080 + 0x28 ∨ src = 0x500 + 0x080 + 0x28 then 0 else 1)

/-- WEIR_SRC of a source: enabled, queue. -/
def WeirSt.srcOf (w : WeirSt) (src : Nat) : Bool × Nat := (w.srcs.lookup src).getD (weirDefault src)

/-- The hub's copy of the edge counter (R408): its count of et. -/
def State.ts (s : State) : Word := BitVec.ofNat 32 s.now

/-- The SUPCLK period of a TS: 600 MHz beside the 800 MHz of the et (R31). -/
def supPeriod (ts : Word) : Nat := ts.toNat * 3 / 4

/-- The location code of a block of the hub (R531). -/
def locHub : Word := locCode 2 0 0 0 0 0

/-- A record enters a queue: behind those that stand there, but of the writes of one SUPCLK period in ascending source number (R406). -/
def weirPut (r : WeirRec) (l : List WeirRec) : List WeirRec :=
  let later := l.reverse.takeWhile (fun x => supPeriod x.ts = supPeriod r.ts && x.halfQ = r.halfQ && !x.taken && r.src < x.src)
  l.take (l.length - later.length) ++ [r] ++ l.drop (l.length - later.length)

/-- A hub queue with room takes a record, with the OVF of records lost before it (R408, R410). -/
def WeirSt.put (q : Fin 4) (r : WeirRec) (w : WeirSt) : WeirSt :=
  { w with queues := upd w.queues q (weirPut { r with queue := q.1, ovf := w.ovf.get q }), ovf := put1 w.ovf q false }

/-- A hub queue has room. -/
def WeirSt.room (q : Fin 4) (w : WeirSt) : Bool := (w.queues.get q).length < 1024

/-- A record of a source is written where its queue has room; a loss goes uncounted (log 17). -/
def WeirSt.note (r : WeirRec) (w : WeirSt) : WeirSt :=
  match w.srcOf r.src with
  | (true, n) => (match fin? 4 n with
    | some q => if w.room q then w.put q r else w
    | none => w)
  | (false, _) => w

/-- A write is lost to a full hub queue (R410): LOST, OVF for the next record, and WEIR_OVERFLOW with a record of its own (R460, R461). -/
def Hub.overflow (now : Word) (q : Fin 4) (u : Hub) : Hub :=
  let w : WeirSt := { u.weir with lost := upd u.weir.lost q (· + 1), ovf := put1 u.weir.ovf q true }
  { u with weir := w.note ⟨0x020 + 0x68, 0, 0, false, false, false, u.frame, now, locHub, false⟩
           flt := { u.flt with queue := u.flt.queue ++ [⟨0x68, u.frame, locHub⟩] } }

/-- Append a record to a hub queue (R406, R410); `now` is the hub's copy of the edge counter. -/
def Hub.append (now : Word) (q : Fin 4) (r : WeirRec) (u : Hub) : Hub :=
  if u.weir.room q then { u with weir := u.weir.put q r } else u.overflow now q

/-- A write of a source to the Weir's doorbell with its FRAME and TS (R406, R408). -/
def Hub.weirWrite (now : Word) (src kind : Nat) (level halfQ : Bool) (frame ts payload : Word) (u : Hub) : Hub :=
  let (en, q) := u.weir.srcOf src
  if !en then u else
  match fin? 4 q with
  | some q => u.append now q ⟨src, q.1, kind, level, false, halfQ, frame, ts, payload, false⟩
  | none => u

/-- A hub source writes to the Weir. -/
def State.weir (src kind : Nat) (level : Bool) (payload : Word) (s : State) : State :=
  s.hubMap (fun u => u.weirWrite s.ts src kind level false u.frame s.ts payload)

/-- The non-empty interrupt of a hub queue asserts (R409): it holds a record no core has consumed. Queue 0's goes to S0's step 1, the others' to
its step 3. -/
def WeirSt.irq (q : Fin 4) (w : WeirSt) : Bool := (w.queues.get q).any (fun r => !r.taken)

/-- The non-empty interrupt of a half's event queue, taken by its steward (R409, R412). -/
def Half.evIrq (h : Half) : Bool := h.evq.any (fun r => !r.taken)

/-- A half's event queue has room: 256 records, or a consumed HALF_Q record to overwrite (R412). -/
def Half.evRoom (h : Half) : Bool := h.evq.length < 256 || h.evq.any (fun r => r.halfQ && r.taken)

/-- A write is lost to a full half event queue (R410, R412): LOST, OVF, and WEIR_OVERFLOW with a record of its own, which where it is the write
lost raises none again (log 17). -/
def Half.evOverflow (src : Nat) (h : Half) : Half :=
  let h1 : Half := { h with evqLost := h.evqLost + 1, evqOvf := true }
  if src = h.id.weirBase + 0x080 + 0x68 then h1 else h1.raise 0x68 (locInp h.id 7)

/-- A record into a half's event queue (R412): 256 records; a full queue overwrites its oldest consumed HALF_Q record, or
loses the write. -/
def Half.evAppend (r : WeirRec) (h : Half) : Half :=
  let r1 : WeirRec := { r with ovf := h.evqOvf }
  if h.evq.length < 256 then { h with evq := weirPut r1 h.evq, evqOvf := false }
  else match h.evq.findIdx? (fun x => x.halfQ && x.taken) with
    | some i => { h with evq := weirPut r1 (h.evq.eraseIdx i), evqOvf := false }
    | none => h.evOverflow r.src

/-- Raise an event of the hub (R456, R461). -/
def State.raiseHub (c : Nat) (loc : Word) (s : State) : State :=
  (s.weir (0x020 + c) 0 false loc).hubMap (fun u => { u with flt := { u.flt with queue := u.flt.queue ++ [⟨c, u.frame, loc⟩] } })

/-! ### The completion queue (R377, R396 to R403) -/

/-- An OVERFLOW record (R403). -/
def Entry.isOvf (e : Entry) : Bool := e.unsol && e.mb = 7 && e.cmd = 0x8010

/-- FLAGS of an entry (R377). -/
def Entry.flags (e : Entry) : Nat := 128 + 64 * bit e.wake + 16 * bit e.unsol

/-- An entry as a message (R377). -/
def Entry.bytes (e : Entry) : List Byte :=
  let b := le 1 e.mb ++ le 1 e.flags ++ le 2 e.cmd ++ le 2 e.seq.toNat ++ le 2 (20 + e.payload.length) ++ le 2 e.alive.toNat ++
    le 2 e.status ++ leW e.frame ++ e.payload
  b ++ leW (crc32c b)

/-- Entries merged into an entry, and the mailboxes that lost a completion in it. -/
def Entry.merged (e : Entry) : Nat × Nat :=
  if e.isOvf then (u16 e.payload 0, byteAt e.payload 2) else (1, if e.unsol || 7 < e.mb then 0 else 2 ^ e.mb)

/-- Two entries coalesced into an OVERFLOW record (R403, R454). -/
def mergeEntries (x y : Entry) (alive : BitVec 16) (frame : Word) (now : Nat) : Entry :=
  let (n, m) := x.merged
  let (k, j) := y.merged
  let w := x.wake || y.wake
  ⟨7, 0x8010, true, w, 0, alive, 0x0040, frame, le 2 (sat 16 (n + k)) ++ le 1 (m ||| j) ++ le 1 (bit w), now, false, false, x.held || y.held⟩

/-- The places of the two entries that R403 merges. -/
def mergePick (q : List Entry) : Nat × Nat :=
  let non := (q.zipIdx.filter (fun x => !x.1.wake)).map (fun x => (x.2, x.1.isOvf))
  match non with
  | (i, true) :: (j, _) :: _ => (i, j)
  | _ =>
    match non.filter (fun x => !x.2) with
    | (i, _) :: (j, _) :: _ => (i, j)
    | _ => (0, 1)

/-- One merge: CQ_OVERFLOW, and the queue one shorter. -/
def State.coalesce (s : State) : State :=
  let l := s.hub.link
  let (i, j) := mergePick l.cq
  match l.cq[i]?, l.cq[j]? with
  | some x, some y =>
    let e := mergeEntries x y l.outAlive s.hub.frame s.now
    (s.linkMap (fun l => { l with cq := (l.cq.set i e).eraseIdx j, tail := l.tail - 1, ovf := sat 16 (l.ovf + 1), outAlive := l.outAlive + 1 })).raiseHub
      0x66 locHub
  | _, _ => s

/-- The ports on which completions and notifications leave (R373). -/
def HostLink.outPorts (l : HostLink) : List Nat :=
  if l.cfg.redundant then [0, 1] else if l.ports = 2 then [1] else [0]

/-- The entries a DATAGRAM carries: as many whole ones as fit in 1024 bytes (R397, R453). -/
def fitEntries : Nat → List Entry → List Entry
  | _, [] => []
  | room, e :: t => if e.bytes.length ≤ room then e :: fitEntries (room - e.bytes.length) t else []

/-- The bytes of a DATAGRAM notification (R453). -/
def dgBytes (l : HostLink) (es : List Entry) (frame : Word) : List Byte :=
  let pay := le 2 l.head.toNat ++ le 2 l.tail.toNat ++ le 1 es.length ++ zeros 3 ++ es.flatMap Entry.bytes
  let b := le 1 7 ++ le 1 (128 + 16) ++ le 2 0x8000 ++ le 2 0 ++ le 2 (20 + pay.length) ++ le 2 l.outAlive.toNat ++ le 2 0 ++ leW frame ++ pay
  b ++ leW (crc32c b)

/-- The IPv4 address of an Ethernet port (R372): the image's; in NO_CONFIG 192.168.249.10 and 192.168.250.10 (R494). -/
def State.portIp (p : Nat) (s : State) : Nat :=
  if s.hub.boot.stage = 5 then (if p = 0 then 0xC0A8F90A else 0xC0A8FA0A)
  else if p = 0 then s.hub.link.cfg.ips.1 else s.hub.link.cfg.ips.2

/-- Where a DATAGRAM notification goes, as UDP port and IPv4 address (R372): the host's configured address; in NO_CONFIG the source of the last
accepted message (R494). -/
def State.notifyTo (s : State) : Nat × Nat :=
  if s.hub.boot.stage = 5 then s.hub.link.peer else (s.hub.link.cfg.hostUdp, s.hub.link.cfg.hostIp)

/-- A DATAGRAM notification from a place in the queue (R397, R399, R453). -/
def State.datagram (from_ : Nat) (s : State) : State :=
  let l := s.hub.link
  let es := fitEntries 996 (l.cq.drop from_)
  let b := dgBytes l es s.hub.frame
  s.linkMap (fun l => { l with
    sent := (l.outPorts.map (fun p => (⟨p, s.notifyTo.1, s.notifyTo.2, 0, b, s.portIp p⟩ : Sent))) ++ l.sent, outAlive := l.outAlive + 1
    dgAt := l.dgAt ++ [s.now]
    cq := l.cq.zipIdx.map (fun x => if from_ ≤ x.2 && x.2 < from_ + es.length then { x.1 with sent := true } else x.1) })

/-- The form of a notification (R397): as NOTIFY says, in NO_CONFIG by DATAGRAM (R494); in RECOVERY, where SPI alone serves, by IRQ (R492). -/
def State.notifyForm (s : State) : Nat := if s.hub.boot.stage = 5 then 0 else if s.hub.boot.stage = 6 then 1 else s.hub.link.cfg.notify

/-- A notification (R397): of every waiting entry, in the forms NOTIFY names; IRQ also for a wake-class entry posted
while the host was asleep (R402). -/
def State.notify (s : State) : State :=
  let l := s.hub.link
  let s1 := if s.notifyForm = 1 then s else s.datagram ((l.cq.findIdx? (fun e => !e.sent)).getD l.cq.length)
  s1.linkMap (fun l => { l with
    irq := l.irq || s.notifyForm ≠ 0 || l.cq.any (fun e => e.held && !e.notified), cq := l.cq.map (fun e => { e with notified := true }) })

/-- Post an entry to the completion queue (R396, R403); a wake-class entry notifies while the host is asleep (R402). -/
def State.postEntry (mb cmd : Nat) (unsol wake : Bool) (seq : BitVec 16) (status : Nat) (frame : Word) (payload : List Byte) (s : State) : State :=
  let s1 := if s.hub.link.cq.length < 256 then s else s.coalesce
  let s2 := s1.linkMap (fun l => { l with
    cq := l.cq ++ [⟨mb, cmd, unsol, wake, seq, l.outAlive, status, frame, payload, s.now, false, false, wake && l.asleep⟩],
    tail := l.tail + 1, outAlive := l.outAlive + 1 })
  if wake && s2.hub.link.asleep then s2.notify else s2

/-- An unsolicited record (R396, R454). -/
def State.unsol (mb cmd : Nat) (frame : Word) (payload : List Byte) (wake : Bool) (s : State) : State :=
  s.postEntry mb cmd true wake 0 0 frame payload

/-- The completion of one request leaves (R380, R401): none for a SILENT request that succeeded in full. -/
def State.postReq (r : HReq) (status : Nat) (payload : List Byte) (s : State) : State :=
  let s1 := if r.silent && status = 0 then s else s.postEntry r.mb r.cmd false (r.mb = 0) r.seq status s.hub.frame payload
  if r.mb = 7 && r.cmd = 1 && status = 0 then s1.linkMap (fun l => { l with asleep := true }) else s1

/-- Completions of a mailbox are posted: those of MB4 and MB5 as they finish, the others in the order of acceptance
(R379). -/
def State.postDone (mb : Nat) : Nat → State → State
  | 0, s => s
  | n + 1, s =>
    let l := s.hub.link
    let mine := l.reqs.zipIdx.filter (fun x => x.1.mb = mb)
    let pick := if mb = 4 ∨ mb = 5 then mine.find? (fun x => x.1.res.isSome) else (mine.head?).filter (fun x => x.1.res.isSome)
    match pick with
    | none => s
    | some (r, i) =>
      match r.res with
      | none => s
      | some (st, p) => State.postDone mb n ((s.linkMap (fun l => { l with reqs := l.reqs.eraseIdx i })).postReq r st p)

/-- A request outstanding finishes with a status and a payload (R379). -/
def State.finish (mb : Nat) (seq : BitVec 16) (status : Nat) (payload : List Byte) (s : State) : State :=
  let s1 := s.linkMap (fun l => { l with
    reqs := l.reqs.map (fun r => if r.mb = mb && r.seq = seq && r.res.isNone then { r with res := some (status, payload) } else r) })
  s1.postDone mb 40

/-! ### The kill net (R226, R235, R538) -/

/-- The trip count's two bytes. -/
def State.tripBytes (s : State) : List Byte := le 2 s.hub.fg.trips.toNat

/-- The halves a source of the net reaches: both, but a STOP not a half without a hub path (R226, R474). -/
def State.netHalves (cause : Nat) (s : State) : List HalfId := bothHalves.filter (fun id => cause ≠ 5 || s.reach id)

/-- The latch of the halves a source of the net reaches is set (R226, R227). -/
def State.setLatches (cause : Nat) (s : State) : State :=
  eachOf (s.netHalves cause) (fun id t => t.setHalf ((t.half id).setLatch cause) id) s

/-- A mask of halves: bit 0 half A, bit 1 half B. -/
def halfMask (ids : List HalfId) : Nat := bit (ids.contains .A) + 2 * bit (ids.contains .B)

/-- An accepted release that is not carried out completes with RELEASE_REFUSED, reason TRIP_COUNT (R420, R538). -/
def State.dropRelease (s : State) : State :=
  match s.hub.fg.rel with
  | some (_, qs) => eachOf qs (fun q t => t.finish 0 q 0x0130 (le 1 6)) (s.fgMap (fun f => { f with rel := none }))
  | none => s

/-- A source of causes 0 to 5 asserts (R226, R232, R235, R538). -/
def State.kill (cause : Nat) (s : State) : State :=
  let ids := s.netHalves cause
  let s1 := s.setLatches cause
  let f := s1.hub.fg
  if f.st = 2 then
    let s2 := (s1.fgMap (fun f => { f with st := 0, trips := if cause = 5 then f.trips else f.trips + 1, halfChk := [] })).dropRelease
    let n := (if cause = 5 then s2.hub.fg.trips + 1 else s2.hub.fg.trips).toNat
    (s2.raiseHub 0x2A locHub).unsol 0 0x8001 s2.hub.frame (le 1 cause ++ le 1 (halfMask ids) ++ le 2 n) true
  else if f.st = 1 && 1 ≤ cause && cause ≤ 4 then s1.fgMap (fun f => { f with trips := f.trips + 1 })
  else s1

/-! ### What a half hands to the hub -/

/-- The key of an event entry. -/
def entryKey (id : HalfId) (key : Nat × Nat) : Nat × Nat := (id.num * 1024 + key.1, key.2)

/-- Who builds the cycle records of a half now (R327): the half itself without a hub path. -/
def State.place (s : State) (id : HalfId) : Option HalfId := if s.reach id then none else some id

/-- Change the open records that meet a condition. -/
def State.openMap (p : CycRec → Bool) (f : CycRec → CycRec) (s : State) : State :=
  s.recsMap (fun r => { r with opens := r.opens.map (fun c => if p c then f c else c) })

/-- The record of a cylinder and count of a place. -/
def CycRec.is (place : Option HalfId) (cyl cyc : Nat) (c : CycRec) : Bool := c.place = place && c.o.cyl = cyl && c.o.cyc = cyc

/-- A result enters its record at a FRAME (R325, R326). -/
def CycRec.file (fr : Word) (r : ResOut) (c : CycRec) : CycRec :=
  if r.imep then { c with imep := some (fr, r) } else { c with cmb := some (fr, r) }

/-- FRAME of who builds a record. -/
def State.placeFrame (s : State) : Option HalfId → Word
  | none => s.hub.frame
  | some id => (s.half id).frame

/-- A cylinder has committed in a half: its record opens, or the other half's takes the slots in (R325, R326). -/
def State.openRec (id : HalfId) (o : OpenRec) (s : State) : State :=
  let pl := s.place id
  let keys := o.ks.map (fun k => (id.num * 1024 + k, o.cyc))
  if s.hub.recs.opens.any (CycRec.is pl o.cyl o.cyc) then
    s.openMap (CycRec.is pl o.cyl o.cyc) (fun c => { c with wait := c.wait ++ keys, flags := c.flags ||| o.flags })
  else
    let c0 : CycRec := ⟨pl, o, s.hub.load, keys, [], none, none, none, o.flags, false, none⟩
    let mine (r : ResOut) : Bool := r.cyl = o.cyl && r.cyc = o.cyc
    let c1 := eachOf (s.hub.recs.early.filter mine) (CycRec.file (s.placeFrame pl)) c0
    let tr := if pl.isSome then none else s.hub.recs.traces.lookup o.cyl
    let c2 : CycRec := { c1 with trace := tr.map (·.1), flags := c1.flags ||| (if tr.any (·.2) then 128 else 0) }
    -- a result of an earlier cycle that never opened has no record any more
    s.recsMap (fun r => { r with
      opens := r.opens ++ [c2], early := r.early.filter (fun x => !(x.cyl = o.cyl && x.cyc ≤ o.cyc)) })

/-- An event entry is written (R188, R326). -/
def State.addEntry (id : HalfId) (cyl cyc : Nat) (bytes : List Byte) (key : Nat × Nat) (s : State) : State :=
  let k := entryKey id key
  s.openMap (fun c => c.o.cyl = cyl && c.o.cyc = cyc && (c.wait.contains k || c.place = s.place id))
    (fun c => { c with ents := c.ents ++ [(k, bytes)], wait := c.wait.erase k })

/-- Bytes of an entry already written change. -/
def State.editEntry (id : HalfId) (cyl : Nat) (key : Nat × Nat) (f : List Byte → List Byte) (s : State) : State :=
  s.openMap (fun c => c.o.cyl = cyl) (fun c => { c with ents := c.ents.map (fun e => if e.1 = entryKey id key then (e.1, f e.2) else e) })

/-- A result stage is filed in its record, or waits for it; S1 takes it in at its next foreground (R325, R38). -/
def State.fileResult (id : HalfId) (r : ResOut) (s : State) : State :=
  let pl := s.place id
  let s1 := if s.hub.recs.opens.any (CycRec.is pl r.cyl r.cyc) then s.openMap (CycRec.is pl r.cyl r.cyc) (CycRec.file (s.placeFrame pl) r)
    else s.recsMap (fun x => { x with early := x.early ++ [r] })
  if pl.isNone && !s1.hub.recs.intake.contains r then s1.recsMap (fun x => { x with intake := x.intake ++ [r] }) else s1

/-- The blocks, newest first, that still stand in the ring of trace blocks once the bytes `nb` of the newest are written: a block stands until
its last byte is overwritten (R503). In the one whose first bytes are overwritten, the last bytes of `nb` stand there. -/
def fitBlocks (nb : List Byte) : Nat → List TarnRec → List TarnRec
  | _, [] => []
  | room, b :: t =>
    if room = 0 then []
    else if b.bytes.length ≤ room then b :: fitBlocks nb (room - b.bytes.length) t
    else
      let gone := b.bytes.length - room
      let k := min gone nb.length
      [{ b with bytes := overlay b.bytes (gone - k) (nb.drop (nb.length - k)) }]

/-- A trace block begins to be written: it has its index from here, and its record names it (R326, R503); none of a half without a hub
path (R327). -/
def State.newTrace (id : HalfId) (cyl cyc : Nat) (s : State) : State :=
  if !s.reach id then s else
  let n := s.hub.tarn.blockN
  let s1 := (s.tarnMap (fun t => { t with blockN := n + 1 })).recsMap (fun r => { r with traces := (cyl, n, false) :: r.traces.filter (·.1 ≠ cyl) })
  s1.openMap (CycRec.is none cyl cyc) (fun c => { c with trace := some n })

/-- A trace block under way is decimated (R329): TRACE_DECIM of its record. -/
def State.decimTrace (cyl : Nat) (s : State) : State :=
  match s.hub.recs.traces.lookup cyl with
  | none => s
  | some (n, _) =>
    (s.recsMap (fun r => { r with traces := (cyl, n, true) :: r.traces.filter (·.1 ≠ cyl) })).openMap
      (fun c => c.place.isNone && c.trace = some n) (fun c => { c with flags := c.flags ||| 128 })

/-- A trace block is finished and stands in the Tarn (R503); none of a half that has lost its hub path meanwhile (R327). -/
def State.addTrace (id : HalfId) (cyl : Nat) (bytes : List Byte) (s : State) : State :=
  match s.hub.recs.traces.lookup cyl with
  | none => s
  | some (n, _) =>
    let s1 := s.recsMap (fun r => { r with traces := r.traces.filter (·.1 ≠ cyl) })
    if !s.reach id then s1 else
    s1.tarnMap (fun t => { t with
      blocks := fitBlocks bytes 64487424 (⟨n, bytes, false, s.hub.frame, t.blockW, t.writes⟩ :: t.blocks), blockW := t.blockW + 1
      writes := t.writes + 1 })

/-- The cycle count of the throw cycle running at a cylinder, as a half that commits it keeps it: the lane's own, else the other (R325). -/
def State.laneCount (id : HalfId) (cyl : Nat) (s : State) : Nat :=
  (((s.half id).laneCyc cyl).orElse (fun _ => (s.half id.other).laneCyc cyl)).getD 0

/-- A FUEL slot of a cylinder has fired in the cycle in the other half, as far as that half is heard, over the Leat or by way of the hub (R322). -/
def State.fuelElsewhere (id : HalfId) (cyl cyc : Nat) (s : State) : Bool :=
  let h := s.half id.other
  (h.links.leat.up || (s.reach .A && s.reach .B)) &&
    (idxs 24).any (fun k => schCylValid (h.cyls.get k).cfg && schCylCyl (h.cyls.get k).cfg = cyl && (h.cyls.get k).fuelCyc = some cyc)

/-- The other half answers for a combustion result whether the cycle was fuelled there (R322). -/
def State.fuelAsk (id : HalfId) (j : Fin 12) (cyl cyc : Nat) (s : State) : State :=
  if !s.fuelElsewhere id cyl cyc then s else
  s.setHalf ((s.half id).laneMap j (fun l => { l with results := l.results.map (fun r =>
    if !r.imep && r.cyl = cyl && r.cyc = cyc then { r with fuel := true } else r) })) id

/-- A cycle window has closed: PMAX_CYC enters the cycle's record where that is still open (R320, R325, log 78), and goes to S1 (R336) from a
half that reaches the hub. -/
def State.cyclePeak (id : HalfId) (x : Nat × Nat × Nat × Option Int × Rat) (s : State) : State :=
  let s1 := s.openMap (CycRec.is (s.place id) x.2.1 x.2.2.1) (fun c => { c with pmax := x.2.2.2.1 })
  if s.reach id then s1.recsMap (fun r => { r with peaks := r.peaks ++ [x] }) else s1

/-- A count was corrected: what the half has filed under the old count moves (R539). -/
def State.moveCount (id : HalfId) (cyl old new : Nat) (ks : List Nat) (s : State) : State :=
  let pl := s.place id
  let mine (k : Nat × Nat) : Bool := k.1 / 1024 = id.num && ks.contains (k.1 % 1024) && k.2 = old
  match s.hub.recs.opens.find? (CycRec.is pl cyl old) with
  | none => s
  | some c =>
    let w := (c.wait.filter mine).map (fun k => (k.1, new))
    let e := (c.ents.filter (fun x => mine x.1)).map (fun x => ((x.1.1, new), x.2))
    let c1 : CycRec := { c with wait := c.wait.filter (fun k => !mine k), ents := c.ents.filter (fun x => !mine x.1) }
    let alone := c1.wait.isEmpty && c1.ents.isEmpty
    if s.hub.recs.opens.any (CycRec.is pl cyl new) then
      let s1 := s.openMap (CycRec.is pl cyl new) (fun d => { d with wait := d.wait ++ w, ents := d.ents ++ e })
      if alone then s1.recsMap (fun r => { r with opens := r.opens.filter (fun d => !CycRec.is pl cyl old d) })
      else s1.openMap (CycRec.is pl cyl old) (fun _ => c1)
    else
      let d : CycRec := { c with o := { c.o with cyc := new }, wait := w, ents := e }
      if alone then s.openMap (CycRec.is pl cyl old) (fun _ => d)
      else (s.openMap (CycRec.is pl cyl old) (fun _ => c1)).recsMap (fun r => { r with opens := r.opens ++ [d] })

/-- A sample of a cut cycle (R149): kept where its conditions held at the true TDC and no event of the cycle took a late policy. The TDC's
instant is that of the first sample at or past it, or of the last one there is (log 114). -/
def State.cutSample (id : HalfId) (cyl cyc : Nat) (ap : Int) (pts : List (Rat × Rat × Bool)) (ast : Bool) (s : State) : State :=
  match s.hub.cal.twist with
  | none => s
  | some t =>
    if t.probe || !t.cuts.contains (cyl, cyc) then s else
    let late := s.hub.recs.opens.any (fun c => CycRec.is (s.place id) cyl cyc c && c.ents.any (fun e =>
      let o := byteAt e.2 3
      1 ≤ o && o ≤ 5))
    let e : Rat := ap + (t.loss : Rat) * 65536 / 1000
    let (tau, keep) : Rat × Bool := match pts.find? (fun p => e ≤ p.1), pts.getLast? with
      | some p, _ => p.2
      | none, some p => p.2
      | none, none => (0, false)
    let smp : CalSmp := ⟨cyl, if ast then -e else e, tau⟩
    s.calMap (fun c => { c with twist := some { t with
      cuts := t.cuts.erase (cyl, cyc), smps := if keep && !late then t.smps ++ [smp] else t.smps } })

/-- Whether this commit's cylinder is cut, and when next: one cycle in every CUT_EVERY (R149). -/
def State.cutCount (cyl cyc : Nat) (flags : Nat) (s : State) : State :=
  match s.hub.cal.twist with
  | none => s
  | some t =>
    if t.probe || !t.cyls.contains cyl then s else
    let (left, last) := ((t.left.lookup cyl).map (fun x => (x.1, some x.2))).getD (t.every - 1, none)
    -- the cylinder's cycle counts once, whichever of its halves commits it first
    if last = some cyc then s else
    let now := flags.testBit 10
    let left1 := if now then t.every - 1 else left - 1
    let rest := t.left.filter (fun x => x.1 ≠ cyl)
    let t1 : TwistRun := { t with left := (cyl, left1, cyc) :: rest, cuts := if now then (cyl, cyc) :: t.cuts else t.cuts }
    let cut (h : Half) : Half := { h with cyls := h.cyls.map (fun c =>
      if schCylCyl c.cfg = cyl && left1 = 0 then { c with cut := some (cyc + 1) } else c) }
    { (s.calMap (fun c => { c with twist := some t1 })) with a := cut s.a, b := cut s.b }

/-- V_b of a measurement of a half (R244): LAST of the reservoir's input where its hold is at or before the start of BOOST, else what the
measurement has. -/
def State.vbOf (id : HalfId) (m : Meas) (s : State) : Option (Rat × Nat) :=
  let (src, i) := resInput ((s.half id).led.res.get (resIx m.res)).c0
  let l := (s.half src).acq.last.get i
  match l.hold with
  | some t => if t ≤ m.bst then some (voltsOf i.1 ((s.half src).acq.ain.get i) l.code, t) else m.vb
  | none => m.vb

/-- BOOST of an opening starts: it counts as drawn, and its cost is measured (R244, R245, R252). -/
def State.boostStart (id : HalfId) (pair prof k : Nat) (s : State) : State :=
  let h := s.half id
  let cyc := match fin? 1024 k with | some k => (h.slots.get k).cyc | none => 0
  let h1 := (h.drawResv k cyc).drawShare pair prof
  let s1 := s.setHalf h1 id
  match h1.resOf pair with
  | none => s1
  | some r =>
    let m : Meas := ⟨pair, prof % 32, r.1, h1.now, none, none, false, h1.fg.offAt, none, false⟩
    s1.setHalf { h1 with led := { h1.led with meas := h1.led.meas ++ [{ m with vb := s1.vbOf id m }] } } id

/-- BOOST of an opening ends (R244, R245). -/
def State.boostEnd (id : HalfId) (pair : Nat) (drop : Bool) (s : State) : State :=
  let h := s.half id
  s.setHalf { h with led := { h.led with meas := h.led.meas.map (fun m =>
    if m.pair = pair && m.bstEnd.isNone then { m with bstEnd := some h.now, drop := m.drop || drop } else m) } } id

/-- A classified edge goes to the tooth log and to the WHEEL_DIAG requests that wait (R441, R446). -/
def State.tooth (id : HalfId) (i : Nat) (ts : Word) (pol first : Bool) (cls pos : Nat) (s : State) : State :=
  let on := (match id with | .A => s.hub.cfg.img.a.toothOn | .B => s.hub.cfg.img.b.toothOn).any (fun x => x.ix.1 = i)
  let s1 := if !on || !s.reach id then s else s.tarnMap (fun t => { t with
    teeth := (⟨id, i, ts, cls, pos, (s.half id).frame, false, t.writes⟩ :: t.teeth).take 65536, toothN := t.toothN + 1, writes := t.writes + 1 })
  let e := leW ts ++ le 1 (128 * bit pol + 64 * bit first + cls) ++ le 1 0 ++ le 2 pos
  s1.calMap (fun c => { c with diags := c.diags.map (fun d =>
    if d.h = id && d.inp.ix.1 = i && d.ents.length < d.n then { d with ents := e :: d.ents } else d) })

/-- One item a half hands over (R412, R455, R460): what needs the hub waits while the half has no path to it; an event that the hub counts
waits as its HALF_Q record. -/
def State.take (id : HalfId) (o : Out) (s : State) : State :=
  let path := s.reach id
  let keep := { s with kept := s.kept ++ [(id, o)] }
  match o with
  | .weir src kind level frame payload =>
    let h := s.half id
    let (en, q) := s.hub.weir.srcOf src
    if !en then s else
    let s1 := s.setHalf (h.evAppend ⟨src, q, kind, level, false, !path, frame, h.ts, payload, false⟩) id
    if path then s1.hubMap (fun u => u.weirWrite s.ts src kind level false frame h.ts payload) else s1
  | .log typ code frame data => if path then s.log typ (id.num + 1) code frame data else keep
  | .ev e => if path then s.hubMap (fun u => { u with flt := { u.flt with queue := u.flt.queue ++ [e] } }) else s
  | .unsol mb cmd _ payload wake => if path then s.unsol mb cmd s.hub.frame payload wake else keep
  | .done mb seq status payload => s.finish mb seq status payload
  | .kill cause => s.kill cause
  | .entry cyl cyc bytes key => s.addEntry id cyl cyc bytes key
  | .outcome cyl key o => s.editEntry id cyl key (fun b => overlay b 3 (le 1 o))
  | .tag cyl key t => s.editEntry id cyl key (fun b => overlay b 14 (le 2 (u16 b 14 ||| t.toNat)))
  | .boostStart pair prof k => s.boostStart id pair prof k
  | .boostEnd pair drop => s.boostEnd id pair drop
  | .tooth i ts pol first cls pos => s.tooth id i ts pol first cls pos
  | .result r => s.fileResult id r
  | .traceNew cyl => s.newTrace id cyl (s.laneCount id cyl)
  | .laneCount j cyl => s.setHalf ((s.half id).laneMap j (fun l => { l with cycNo := s.laneCount id cyl })) id
  | .fuelAsk j cyl cyc => s.fuelAsk id j cyl cyc
  | .traceDecim cyl => s.decimTrace cyl
  | .trace cyl bytes => s.addTrace id cyl bytes
  | .cyclePeak lane cyl cyc ang span => s.cyclePeak id (lane, cyl, cyc, ang, span)
  | .anaLoss => s.setHalf (s.half id).anaIncomplete id
  | .aclkLost pt hold => s.setHalf ((s.half id).lostPoint pt hold) id
  | .opened o => (s.openRec id o).cutCount o.cyl o.cyc o.flags
  | .recount cyl old new ks => s.moveCount id cyl old new ks
  | .calPeak cyl cyc ap pts ast => s.cutSample id cyl cyc ap pts ast

/-- Everything a half has ready is handed over. -/
def State.takeAll (id : HalfId) (s : State) : State :=
  let h := s.half id
  if h.out.isEmpty then s else h.out.foldl (fun t o => State.take id o t) (s.setHalf { h with out := [] } id)

/-- Hand-over until nothing is left; what is handed over can raise more, a few rounds deep. -/
def State.flush (s : State) : State := (List.range 6).foldl (fun s _ => (s.takeAll .A).takeAll .B) s

/-- A command acts on a half; what it hands over is taken. -/
def State.onHalf (id : HalfId) (f : Half → Half) (s : State) : State := (s.setHalf (f (s.half id)) id).flush

/-- A command acts on both halves. -/
def State.onHalves (f : Half → Half) (s : State) : State := ({ s with a := f s.a, b := f s.b } : State).flush

/-! ### Time -/

/-- EVCLK runs: the module is powered with KEY high (R31, R481). -/
def State.clocked (s : State) : Bool := s.hub.boot.awake

/-- `n` et pass (R31): the halves that are on pass them, and what that hands over is taken. -/
def State.advance (n : Nat) (s : State) : State :=
  if n = 0 then s else
  let go (h : Half) : Half := if h.on && s.clocked then h.pass n else { h with now := h.now + n }
  ({ s with a := go s.a, b := go s.b, now := s.now + n } : State).flush

/-- The clock is brought forward to an instant, if that lies ahead (log 2). -/
def State.advanceTo (t : Nat) (s : State) : State := s.advance (t - s.now)

end Sys2Proof.Machine
end

