-- ==== Sys2Proof/Machine/Live.lean ====
section
/-! DEFINITION. How a command reaches a half: only one that is on and clocked acts; a command that names a timed instant
brings the clock forward to it (log 2, log 3); the WHEEL_DIAG requests that an edge completes. -/

namespace Sys2Proof.Machine

open Sys2Proof

/-- A half works: on, with the module awake (R31, R481). -/
def State.live (s : State) (id : HalfId) : Bool := (s.half id).on && s.clocked

/-- A command acts on a half that works. -/
def State.act (id : HalfId) (f : Half → Half) (s : State) : State := if s.live id then s.onHalf id f else s

/-- A command that names an instant the half knows: the clock is brought forward to it (log 2), then it acts; nothing where
the half knows none (log 3). -/
def State.due (id : HalfId) (t : Half → Option Nat) (f : Half → Half) (s : State) : State :=
  if !s.live id then s else
  match t (s.half id) with
  | none => s
  | some x => (s.advanceTo x).act id f

/-- The halves reach each other over the Leat, and one has OPEN, SHORT_GND or SHORT_BAT set on an input while the other has none (R84). -/
def State.disagree (i : Inp) (s : State) : Bool :=
  s.live .A && s.live .B && s.a.links.leat.up && s.b.links.leat.up && (s.a.rcvOf i).wir.bad != (s.b.rcvOf i).wir.bad

/-- Since when the halves disagree on each input follows the flags and the Leat (R84). -/
def State.disCheck (s : State) : State :=
  s.hubMap (fun u => { u with disAt := Vector.ofFn (fun k : Fin 6 =>
    if s.disagree (Inp.ofCode k.1) then (match u.disAt.get k with | some x => some x | none => some (s.now, false)) else none) })

/-- The hub works (R481). -/
def State.hubOn (s : State) : Bool := s.clocked && s.hub.boot.stage ≤ 5 && 1 ≤ s.hub.boot.stage

/-- A core starts its foreground at this tick (R41): the one before has ended. -/
def State.runs (n : Fin 4) (s : State) : Bool := (s.hub.behind.get n).all (fun x => x ≤ s.now)

/-- Foreground work of the stewards of some halves, what it hands over taken (R38). -/
def State.fore (on : HalfId → Bool) (f : Half → Half) (s : State) : State :=
  eachOf bothHalves (fun id t => if on id then t.act id f else t) s

/-- The completion payload of a WHEEL_DIAG (R441). -/
def State.diagBytes (d : DiagRun) (s : State) : List Byte :=
  let h := s.half d.h
  leW (h.wrxDiag d.inp) ++ leW (h.rcvOf d.inp).peakReg ++ leW (h.rcvOf d.inp).edgeSt ++ (d.ents.reverse.take d.n).flatten

/-- WHEEL_DIAG requests whose edges are complete, or whose second has passed, complete (R441); the WRX_EDGE_ST they return clears
NOISE_BLANKED like any read of it (R73). -/
def State.diagsDone (s : State) : State :=
  let isDone (d : DiagRun) : Bool := d.ents.length ≥ d.n || s.now ≥ d.till
  let (fin, rest) := s.hub.cal.diags.partition isDone
  eachOf fin (fun d t => (t.finish 4 d.req.1 0 (t.diagBytes d)).setHalf ((t.half d.h).rcvMap d.inp (fun r => { r with noise := 0 })) d.h)
    (s.calMap (fun c => { c with diags := rest }))

end Sys2Proof.Machine
end

