-- ==== Sys2Proof/Machine/Collector.lean ====
section
/-! DEFINITION. The commands of the Weir (R208, R406 to R412). -/

namespace Sys2Proof.Machine

open Sys2Proof

/-- The half and offset of a source of a half (R407). -/
def srcHalf (src : Nat) : Option (HalfId × Nat) :=
  if 0x100 ≤ src && src < 0x500 then some (.A, src - 0x100)
  else if 0x500 ≤ src && src < 0x900 then some (.B, src - 0x500) else none

/-- The source is a level source: an enabled PSF input, or a crossing comparator configured as a level (R411). -/
def State.isLevel (s : State) (src : Nat) : Bool :=
  match srcHalf src with
  | none => false
  | some (id, o) =>
    let h := s.half id
    h.cfg.psfOn.any (fun b => b.1 = o) || (0x010 ≤ o && h.cfg.xcLevel.any (fun g => g.1 + 0x010 = o))

/-- The level source of a number. -/
def WeirSt.level (w : WeirSt) (src : Nat) : LvlSrc := (w.levels.find? (fun l => l.src = src)).getD ⟨src, 0, false, false, 0⟩

/-- A level source changed. -/
def WeirSt.setLevel (l : LvlSrc) (w : WeirSt) : WeirSt := { w with levels := l :: w.levels.filter (fun x => x.src ≠ l.src) }

/-- The hub queue of a source, which a source of a half reaches only over a hub path, has room (R410, R412). -/
def State.hubRoom (s : State) (src : Nat) : Bool :=
  match srcHalf src, fin? 4 (s.hub.weir.srcOf src).2 with
  | some (id, _), some q => !s.reach id || s.hub.weir.room q
  | _, _ => true

/-- The event queue of a source's half has room (R412). -/
def State.ownRoom (s : State) (src : Nat) : Bool :=
  match srcHalf src with
  | some (id, _) => (s.half id).evRoom
  | none => true

/-- Whether a record of a level source would be appended now: every queue that takes it has room (R410, R412). -/
def State.hasRoom (s : State) (src : Nat) : Bool := s.hubRoom src && s.ownRoom src

/-- A level source's record finds a queue full (R410): the loss counts there, and no queue takes the record, so that the assertion makes one
record when there is room. -/
def State.levelLost (src : Nat) (s : State) : State :=
  match srcHalf src with
  | none => s
  | some (id, _) =>
    let s1 := match s.hubRoom src, fin? 4 (s.hub.weir.srcOf src).2 with
      | false, some q => s.hubMap (fun u => u.overflow s.ts q)
      | _, _ => s
    if s.ownRoom src then s1 else s1.onHalf id (fun h => h.evOverflow src)

/-- A level source's record (R411). -/
def State.levelRecord (src : Nat) (s : State) : State :=
  match srcHalf src with
  | some (id, o) => s.onHalf id (fun h => h.emit (.weir src 1 true h.frame (if o < 4 then 0#32 else 1#32)))
  | none => s

/-- A level source in ARMED whose line is asserted: recorded where its queue has room (R410, R411). -/
def State.levelTry (src : Nat) (s : State) : State :=
  let l := s.hub.weir.level src
  if l.st ≠ 0 || !l.live || !(s.hub.weir.srcOf src).1 then s
  else if s.hasRoom src then (s.levelRecord src).weirMap (WeirSt.setLevel { l with st := 1, asked := false })
  else s.levelLost src

/-- The line of a level source asserts (R411). -/
def State.levelUp (src : Nat) (s : State) : State :=
  if !s.isLevel src then s else
  (s.weirMap (WeirSt.setLevel { s.hub.weir.level src with live := true })).levelTry src

/-- A power-stage fault input asserts (R208). -/
def execPsfAssert (id : HalfId) (b : Fin 4) (s : State) : Host.Outcome State Fault Refusal :=
  .next (if s.live id then s.levelUp (id.weirBase + b.1) else s)

/-- The line of a level source asserts (R411). -/
def execLevelAssert (src : Fin 4096) (s : State) : Host.Outcome State Fault Refusal :=
  .next (if s.clocked then s.levelUp src.1 else s)

/-- The line of a level source deasserts (R411). -/
def execLevelDeassert (src : Fin 4096) (s : State) : Host.Outcome State Fault Refusal :=
  let l := s.hub.weir.level src.1
  .next (if s.clocked && s.isLevel src.1 then
    s.weirMap (WeirSt.setLevel { l with live := false, st := if l.st = 2 then 0 else l.st }) else s)

/-- WEIR_TRANSIENT of a source (R411, R413): the hub's; of a half without a hub path the half raises it, and the hub counts it when the record is
forwarded (R460). -/
def State.transient (src : Nat) (s : State) : State :=
  match srcHalf src with
  | some (id, _) => if s.reach id || !s.live id then s.raiseHub 0x69 locHub else s.onHalf id (fun h => h.raise 0x69 (locInp h.id 7))
  | none => s.raiseHub 0x69 locHub

/-- The handler queries a level source (R411). -/
def execWeirStatusQuery (src : Fin 4096) (s : State) : Host.Outcome State Fault Refusal :=
  let l := s.hub.weir.level src.1
  if !s.clocked || l.st ≠ 1 || l.asked then .next s
  else
    let s1 := s.weirMap (WeirSt.setLevel { l with asked := true, trans := if l.live then l.trans else l.trans + 1 })
    .next (if l.live then s1 else s1.transient src.1)

/-- The handler acknowledges a level source (R411). -/
def execWeirAcknowledge (src : Fin 4096) (s : State) : Host.Outcome State Fault Refusal :=
  let l := s.hub.weir.level src.1
  .next (if s.clocked && l.st = 1 then s.weirMap (WeirSt.setLevel { l with st := if l.live then 2 else 0 }) else s)

/-- A source writes the doorbell (R406, R412). -/
def execWeirDoorbell (src : Fin 4096) (payload : Word) (s : State) : Host.Outcome State Fault Refusal :=
  match srcHalf src.1 with
  | some (id, _) => .next (s.act id (fun h => h.emit (.weir src.1 0 false h.frame payload)))
  | none => .next (if s.clocked then s.weir src.1 0 false payload else s)

end Sys2Proof.Machine
end

