-- ==== Sys2Proof/Machine/Inputs.lean ====
section
/-! DEFINITION. The commands of the wheel receivers, the tracker's timers and the twist unit (R54 to R158). -/

namespace Sys2Proof.Machine

open Sys2Proof

/-- A qualified edge (R67): the tracker takes it, the overspeed trip counts it, the twist unit recomputes. -/
def execQualifiedEdge (id : HalfId) (i : Inp) (e : EdgeIn) (s : State) : Host.Outcome State Fault Refusal :=
  .next (((s.advance e.dt).act id (fun h => (h.qualified i e).twist)).diagsDone)

/-- The state of the comparator after an edge of the polarity EDGE_SEL selects (R55, R60). -/
def Rcv.afterEdge (r : Rcv) : Bool :=
  if r.hall then (match wrxCfg0EdgeSel r.cfg0 with | 0 => false | 1 => true | _ => !r.tooth) else false

/-- A qualified edge inside blanking on a receiver (R66, R74, R78): NOISE_BLANKED counts; its lobe belongs to the tooth interval that
runs. `pk` is the lobe it ends as the receiver sees it. -/
def Rcv.blanked (now : Nat) (pk : Nat × Nat) (r : Rcv) : Rcv :=
  { r with noise := satInc 8 r.noise, tooth := r.afterEdge, held := false, lobeCur := peaks r.lobeCur pk, lastQ := now }

/-- An edge inside blanking (R66), its lobe in mV at the pins: nothing where the comparator's output does not change (R56, R60). -/
def execEdgeBlanked (id : HalfId) (b : BlankedEdge) (s : State) : Host.Outcome State Fault Refusal :=
  .next (s.act id (fun h =>
    let r := h.rcvOf b.inp
    let e := seenBy r ⟨0, r.afterEdge != wrxCfg0Invert r.cfg0, b.pkPos, b.pkNeg, 0, false⟩
    if h.enabled b.inp && h.now < r.blankEnd && r.changes e then h.rcvMap b.inp (Rcv.blanked h.now (e.pkPos, e.pkNeg)) else h))

/-- The blanking window ends (R62, R65): from that period on edges lie outside. -/
def execBlankingWindowEnd (id : HalfId) (i : Inp) (s : State) : Host.Outcome State Fault Refusal :=
  .next (s.due id (fun h => if h.enabled i then some (h.rcvOf i).blankEnd else none) (fun h => h))

/-- The ends of the next predicted intervals of a unit after its last edge, at a normalised period (R58, R91). -/
def Half.unitEnds (h : Half) (t : Rat) : Nat → TUnit → List Rat
  | 0, _ => []
  | n + 1, u =>
    let x := h.nextOf u
    let e := u.lastAt + t * x.span
    e :: Half.unitEnds h t n { u with pos := x.pos, mark := x.mark, lastAt := e }

/-- The ends of predicted intervals of a unit from the second on since its last accepted edge: a bad tooth's was the first (R58, R97). -/
def Half.armUnit (h : Half) (u : TUnit) : List Rat :=
  match predT h.trk.depth u.hist with
  | some t => (List.replicate u.bad u.lastAt ++ h.unitEnds t 8 u).drop 1
  | none => []

/-- The same of a phase input with a cycle phase outside LIMP, at the present INC (R58, R530, log 106), from the cycle of the pattern that
now lies in; `t` is the last accepted feature. -/
def Half.armPhase (h : Half) (t : Nat) : List Rat :=
  let fs := h.phaseDesc.feats h.trk.dir.read
  let inc : Rat := h.trk.src.inc
  let cycle : Rat := (h.cycLen * 2 ^ 24 : Int) / inc
  let at0 := h.cyc - (h.trk.src.inc * (h.now - t) / 2 ^ 24 : Nat)
  match h.nearFeat at0 none with
  | none => []
  | some j =>
    let part (i : Nat) : Rat := (((List.range i).foldl (fun a q => a + featSpan h.cycLen fs ((j + q) % fs.length)) 0 * 2 ^ 24 : Int) : Rat) / inc
    let m := (((h.now - t : Nat) : Rat) / cycle).floor.toNat
    ([m, m + 1].flatMap (fun c => (List.range fs.length).map (fun i => (c * fs.length + i + 1, (t : Rat) + c * cycle + part (i + 1))))).filterMap
      (fun x => if x.1 < 2 then none else some x.2)

/-- The ends of intervals, from the second on, at which V_ARM of an input halves (R58): predicted ones, or while its unit has no prediction
the last measured interval again and again. -/
def Half.armEnds (h : Half) (i : Inp) (t : Nat) : List Rat :=
  let r := h.rcvOf i
  let own := if h.trk.src.inp = some i && h.trk.src.known then h.armUnit h.trk.src
    else if h.trk.sec.inp = some i && h.trk.sec.known then h.armUnit h.trk.sec
    else if h.trk.phaseInp = some i && h.trk.angleValid && h.trk.src.inc ≠ 0 then h.armPhase t else []
  if !own.isEmpty then own
  else if r.lastInt = 0 then []
  else [((t + max 2 ((h.now - t) / r.lastInt + 1) * r.lastInt : Nat) : Rat)]

/-- The next instant at which V_ARM of an input halves (R58). -/
def Half.decayAt (h : Half) (i : Inp) : Option Nat :=
  match (h.rcvOf i).accAt.head? with
  | none => none
  | some t =>
    if !h.enabled i || (h.rcvOf i).hall then none
    else ((h.armEnds i t).map (fun e => (ceilRat e).toNat)).find? (fun e => h.now < e)

/-- V_ARM halves at the end of a predicted interval without an accepted edge (R58). -/
def execVarmDecay (id : HalfId) (i : Inp) (s : State) : Host.Outcome State Fault Refusal :=
  .next (s.due id (fun h => h.decayAt i) (fun h => h.rcvMap i (fun r => { r with varm := max (r.varm / 2) r.floor })))

/-- The overspeed trip deasserts after 1 s without an edge (R230). -/
def execOverspeedTripTimeout (id : HalfId) (s : State) : Host.Outcome State Fault Refusal :=
  .next (s.due id (fun h => if h.fg.osTrip then h.fg.osLast.map (· + etPerSec) else none)
    (fun h => { h with fg := { h.fg with osTrip := false, osShort := 0, osLong := 0, osLast := none } }))

/-- The gate of an expected edge closes (R97): a synthetic edge, and the throw angles follow. -/
def execGateClose (id : HalfId) (u : UnitId) (s : State) : Host.Outcome State Fault Refusal :=
  let unit (h : Half) : TUnit := match u with | .source => h.trk.src | .second => h.trk.sec
  let ok (h : Half) : Bool := match u with | .source => h.srcGated | .second => h.trk.sec.known
  let act (h : Half) : Half := match u with | .source => h.srcGateClose | .second => h.secGateClose
  .next ((s.due id (fun h => if ok h then (h.gateEnd (unit h)).map (fun t => (ceilRat t).toNat) else none)
    (fun h => (act h).twist)).diagsDone)

/-- The instant at which STOP_TIME has passed without an edge (R105): on any crank wheel, or in LIMP on the phase input. -/
def Half.stopAt (h : Half) : Option Nat :=
  if h.trk.st = 0 then none
  else if h.trk.inLimp then some ((match h.trk.phase.edges.head? with | some e => e.1 | none => h.trk.src.lastAt.floor.toNat) + 2 ^ 32)
  else some (h.trk.crankAt + h.trk.stopTime)

/-- No edge for STOP_TIME (R105): STOP. -/
def execStopTimeout (id : HalfId) (s : State) : Host.Outcome State Fault Refusal :=
  .next (s.due id Half.stopAt (fun h => (h.loseSync 0).twist))

/-- A receiver is enabled (R69): EN goes to 1 where the configuration has it 1. -/
def execReceiverEnable (id : HalfId) (i : Inp) (lvl : InLevel) (s : State) : Host.Outcome State Fault Refusal :=
  .next (s.act id (fun h => if h.enabled i || !h.cfg.ens.contains i then h else h.enable i lvl))

/-- Firmware clears VALID (R67, R68). -/
def execEdgeLatchClear (id : HalfId) (i : Inp) (s : State) : Host.Outcome State Fault Refusal :=
  .next (s.act id (fun h => h.rcvMap i (Rcv.clearValid h.now)))

/-- An instant lies 500 ms or one revolution back, whichever is longer (R78); while no speed is known a revolution has no length, and
500 ms alone counts (log 106). -/
def Half.longAgo (h : Half) (t : Nat) : Bool :=
  let rev : Rat := match h.rpm with | some r => if r ≤ 0 then 0 else 60 * (etPerSec : Rat) / r | none => 0
  ((h.now - t : Nat) : Rat) ≥ max (500 * (etPerMs : Rat)) rev

/-- The clipped-signature condition holds or has passed its count: 3 gaps, or 8 teeth on a wheel without gaps (R78). -/
def Half.clipCount (h : Half) (i : Inp) : Nat := if (h.wheel i).gaps.isEmpty then 8 else 3

/-- The sensor's high level is at most 16 V (R78): a wheel sensor supply of the module gives 5 or 12 V (R516); the level of a sensor
supplied elsewhere is its own (log 113). -/
def Half.sensorLow (h : Half) (i : Inp) : Bool := (pinElecWssEn h.pinElec).testBit (5 - i.ix.1) || decide (Config.hallHigh i.ix.1 ≤ 16000)

/-- The test of a wiring condition holds (R78); voltages in mV, the supply in 0.1 V (log 21). -/
def Half.wiringTest (h : Half) (i : Inp) (c : Cond) (cm dc vIn : Nat) : Bool :=
  let r := h.rcvOf i
  h.enabled i && (match c with
    | .openCircuit => wrxCfg1OpenEn r.cfg1 && (if r.hall then !wrxCfg1PullupEn r.cfg1 && 2200 ≤ cm && cm ≤ 2800 else dc > 1000)
    | .shortGnd => wrxCfg1ShortEn r.cfg1 && (if r.hall then h.rotation i && cm < 300 && h.longAgo r.lastQ else cm < 500)
    | .shortBat => wrxCfg1ShortEn r.cfg1 && (if r.hall then h.sensorLow i && (cm : Int) - 100 * vIn ≤ 1500 && (100 * vIn : Int) - cm ≤ 1500 else cm > 7000)
    | .clipped => wrxCfg1ShapeEn r.cfg1 && !r.hall && h.rotation i && (h.revOf i).clipRun ≥ h.clipCount i
    | .silent => h.rotation i && h.longAgo r.lastAt)

/-- CM and DCDIFF as last measured, in units of 50 mV and 10 mV cut off below (R75, log 113). -/
def Half.measure (i : Inp) (cm dc : Nat) (h : Half) : Half := h.rcvMap i (fun r => { r with cm := sat 8 (cm / 50), dcdiff := sat 8 (dc / 10) })

/-- A wiring condition sets its flag (R78), counts (R83), and withholds the edges of a receiver with an open or short (R82). -/
def Half.wiringSet (i : Inp) (c : Cond) (cm dc vIn : Nat) (h00 : Half) : Half :=
  let h := h00.measure i cm dc
  if !h.wiringTest i c cm dc vIn then h else
  let h1 := h.rcvMap i (fun r => { r with wir := match c with
    | .openCircuit => { r.wir with opn := true }
    | .shortGnd => { r.wir with shortGnd := true }
    | .shortBat => { r.wir with shortBat := true }
    | .clipped => { r.wir with clip := if cm < 1500 then 1 else if cm > 4000 then 2 else 3 }
    | .silent => { r.wir with silent := true } })
  let h2 := Half.wiringEvents h i h1
  let h3 := if h2.failCond i then
      (if h2.failed i then h2.setFailed i else (h2.setFailed i).onFailed i)
    else h2
  if c = .silent then h3.dirCheck.tryLimp else h3

/-- A wiring condition clears (R529); with the last condition of R82 gone the second of R82 starts, unless INPUT_HOLD holds
the input (R463). -/
def Half.wiringClear (i : Inp) (c : Cond) (cm dc vIn : Nat) (h00 : Half) : Half :=
  let h := h00.measure i cm dc
  let still : Bool := match c with
    | .clipped => (h.revOf i).okRun < h.clipCount i
    | .silent => true
    | _ => h.wiringTest i c cm dc vIn
  if still then h else
  let h1 := h.rcvMap i (fun r => { r with wir := match c with
    | .openCircuit => { r.wir with opn := false }
    | .shortGnd => { r.wir with shortGnd := false }
    | .shortBat => { r.wir with shortBat := false }
    | .clipped => { r.wir with clip := 0 }
    | .silent => r.wir })
  if h1.failed i && !h1.failCond i && (h1.revOf i).clearAt.isNone then
    h1.revMap i (fun x => { x with clearAt := if h1.inputHeld i then none else some h1.now, hold := h1.inputHeld i })
  else h1

/-- INPUT_HOLD ends for an input: the second of R82 starts (R463). -/
def Half.holdTick (i : Inp) (h : Half) : Half :=
  let c := h.revOf i
  if !c.failed || h.failCond i then h
  else if h.inputHeld i then h.revMap i (fun x => { x with clearAt := none, hold := true })
  else if c.clearAt.isNone then h.revMap i (fun x => { x with clearAt := some h.now, hold := false })
  else h

/-- A wiring condition holds past its persistence (R78). -/
def execWiringConditionSet (id : HalfId) (i : Inp) (c : Cond) (cm dc : Nat) (s : State) : Host.Outcome State Fault Refusal :=
  .next (s.act id (fun h => h.wiringSet i c cm dc s.hub.boot.v)).disCheck

/-- A wiring condition clears (R529). -/
def execWiringConditionClear (id : HalfId) (i : Inp) (c : Cond) (cm dc : Nat) (s : State) : Host.Outcome State Fault Refusal :=
  .next (s.act id (fun h => h.wiringClear i c cm dc s.hub.boot.v)).disCheck

/-- FAILED clears 1 s after its last condition (R82). -/
def execReceiverFailedClear (id : HalfId) (i : Inp) (s : State) : Host.Outcome State Fault Refusal :=
  .next (s.due id (fun h => if h.failed i && !h.failCond i && !h.inputHeld i then (h.revOf i).clearAt.map (· + etPerSec) else none)
    (fun h => h.onFailedClear i))

/-- The halves have disagreed on a wire for 100 ms (R84): both count it, once while the disagreement lasts. The clock is brought forward to
that instant (log 2). -/
def execReceiverDisagree (i : Inp) (s : State) : Host.Outcome State Fault Refusal :=
  match s.hub.disAt.get i.ix with
  | some (t, false) =>
    .next (((s.advanceTo (t + 100 * etPerMs)).hubMap (fun u => { u with disAt := put1 u.disAt i.ix (some (t, true)) })).onHalves
      (fun h => h.raise 0x06 (h.inLoc i)))
  | _ => .next s

/-- The twist unit recomputes (R134), 16 et after the last time. -/
def execTwistRecompute (id : HalfId) (s : State) : Host.Outcome State Fault Refusal :=
  .next (s.due id (fun h => some (h.tws.lastRec + 16)) Half.twist)

/-- The comparator changes without a qualified edge (R61, R69). -/
def execComparatorStateChange (id : HalfId) (i : Inp) (tooth : Bool) (s : State) : Host.Outcome State Fault Refusal :=
  .next (s.act id (fun h => if h.enabled i then h.rcvMap i (fun r => { r with tooth := tooth, held := false }) else h))

/-- WHEEL_DIAG's second has passed (R441): it completes with the edges it has. -/
def execWheelDiagTimeout (id : HalfId) (s : State) : Host.Outcome State Fault Refusal :=
  match s.hub.cal.diags.find? (fun d => d.h = id) with
  | none => .next s
  | some d => .next ((s.advanceTo d.till).diagsDone)

end Sys2Proof.Machine
end

