-- ==== Sys2Proof/Machine/Requests.lean ====
section
/-! DEFINITION. How a host message comes in (R373, R377 to R386, R401, R414, R416): check units, alive counters, wake, the
common checks, acceptance, and the order of a request's checks. -/

namespace Sys2Proof.Machine

open Sys2Proof

/-! ### Bytes of a request -/

/-- The bytes of a message before its CRC (R377); STATUS and FRAME are 0 in a request. -/
def msgBytes (mb cmd : Nat) (m : Msg) : List Byte :=
  le 1 mb ++ [m.flags] ++ le 2 cmd ++ le 2 m.seq.toNat ++ le 2 m.len ++ le 2 m.alive.toNat ++ zeros 6 ++ m.payload

/-- The request a message carries. -/
def msgAsk (mb cmd : Nat) (m : Msg) : Ask := ⟨mb, cmd, m.seq, m.flags.getLsbD 5, m.payload⟩

/-- The byte at a frame offset (R414). -/
def Ask.b (a : Ask) (o : Nat) : Nat := byteAt a.p (o - 16)

/-- The 16-bit number at a frame offset. -/
def Ask.h (a : Ask) (o : Nat) : Nat := u16 a.p (o - 16)

/-- The 32-bit number at a frame offset. -/
def Ask.w (a : Ask) (o : Nat) : Nat := u32 a.p (o - 16)

/-- The register word at a frame offset. -/
def Ask.reg (a : Ask) (o : Nat) : Word := w32 a.p (o - 16)

/-- Bytes from a frame offset. -/
def Ask.bytes (a : Ask) (o n : Nat) : List Byte := slice a.p (o - 16) n

/-- Some byte of a range of frame offsets is not 0 (R414). -/
def Ask.dirty (a : Ask) (o n : Nat) : Bool := (a.bytes o n).any (· ≠ 0#8)

/-- The half a HALF byte names. -/
def halfOf (v : Nat) : HalfId := if v = 1 then .B else .A

/-! ### Answers -/

/-- A request finishes (R379, R380). -/
def State.done (a : Ask) (status : Nat) (payload : List Byte) (s : State) : State := s.finish a.mb a.seq status payload

/-- The checks of a request in order: the first that fails gives the status and nothing else happens (R416). -/
def State.checked (a : Ask) (cs : List (Bool × Nat)) (ok : State → State) (s : State) : State :=
  match cs.find? (·.1) with
  | some (_, st) => s.done a st []
  | none => ok s

/-- A refusal that leaves no request outstanding (R380, R384): its completion is posted at once. -/
def State.refuse (mb cmd : Nat) (seq : BitVec 16) (status : Nat) (s : State) : State :=
  s.postEntry mb cmd false (mb = 0) seq status s.hub.frame []

/-! ### Check units (R382 to R386) -/

/-- Failures of a stream within CHK_WIN at an instant (R386). -/
def HostLink.recent (l : HostLink) (now : Nat) (ts : List Nat) : List Nat := ts.filter (fun t => now < t + l.cfg.chkWin * etPerMs)

/-- A check failure, charged to a stream or to none (R383, R386): at the threshold the stream becomes lastingly faulty, and
the primary setpoint stream asks for the backup (R394). -/
def State.checkFail (stream : Option (Fin 9)) (s : State) : State :=
  let s0 := (s.linkMap (fun l => { l with chk := sat 16 (l.chk + 1) })).raiseHub 0x60 locHub
  match stream with
  | none => s0
  | some i =>
    let s1 := s0.linkMap (fun l => { l with
      fails := upd l.fails i (fun ts => s.now :: l.recent s.now ts), okRun := if i = 1 then 0 else l.okRun })
    let l := s1.hub.link
    if l.faulty.get i || (l.fails.get i).length < l.cfg.chkThr then s1
    else (s1.linkMap (fun l => { l with
      faulty := put1 l.faulty i true, swPend := l.swPend || (i = 1 && l.cfg.backupEn && l.source = 0) })).raiseHub 0x62 locHub

/-- The stream of a mailbox. -/
def mbStream (mb : Nat) : Option (Fin 9) := if mb < 8 then fin? 9 mb else none

/-- The host wakes at a frame that passes its check unit: every waiting entry is notified at once (R401). -/
def State.wake (s : State) : State :=
  if !s.hub.link.asleep then s else
  let s1 := s.linkMap (fun l => { l with asleep := false })
  if s1.hub.link.cq.isEmpty then s1 else s1.notify

/-- The host link serves a transport (R489, R492): in READY and NO_CONFIG any, in RECOVERY SPI only. -/
def State.serves (t : Transport) (s : State) : Bool :=
  s.clocked && t ≠ .can && (s.hub.boot.stage = 4 || s.hub.boot.stage = 5 || (s.hub.boot.stage = 6 && t = .spi))

/-- The port that answers leave on follows the last accepted message (R373), and its source is kept (R494). -/
def HostLink.from_ (m : Msg) (l : HostLink) : HostLink :=
  match m.t with
  | .eth1 => { l with ports := 1, peer := (m.udp, m.ip) }
  | .eth2 => { l with ports := 2, peer := (m.udp, m.ip) }
  | _ => l

/-- With REDUNDANT, a frame equal in ALIVE and CRC to one accepted on another transport within the preceding 1 ms (R384). -/
def HostLink.duplicate (l : HostLink) (t : Transport) (alive : BitVec 16) (crc : Word) (now : Nat) : Bool :=
  l.cfg.redundant && l.dups.any (fun d => d.1 ≠ t && d.2.1 = alive && d.2.2.1 = crc && now ≤ d.2.2.2 + etPerMs)

/-- The alive check of a mailbox's stream (R384): accepted or not, after its effects. -/
def State.aliveCheck (mb : Fin 8) (cmd : Nat) (m : Msg) (s : State) : State × Bool :=
  let set (s : State) : State := s.linkMap (fun l => { l with alive := put1 l.alive mb (some m.alive) })
  match s.hub.link.alive.get mb with
  | none => (set s, true)
  | some a =>
    let d := (m.alive - a).toNat
    if d = 1 then (set s, true)
    else if d = 2 then ((set s).raiseHub 0x61 locHub, true)
    else if d = 0 || 32768 ≤ d then ((s.refuse mb.1 cmd m.seq 0x20).checkFail (mbStream mb.1), false)
    else (((set s).refuse mb.1 cmd m.seq 0x21).checkFail (mbStream mb.1), false)

/-- The doorbell of a mailbox rings with its message index (R378, R408). -/
def State.doorbell (mb : Fin 8) (s : State) : State :=
  (s.weir mb.1 0 false (BitVec.ofNat 32 (s.hub.link.doors.get mb))).linkMap (fun l => { l with doors := upd l.doors mb (· + 1) })

/-- What a command's mailbox and code are refused with by the stage (R492, R494). -/
def State.stageRefuses (mb cmd : Nat) (s : State) : Option Nat :=
  if s.hub.boot.stage = 5 then (if mb = 2 || mb = 6 || mb = 7 then none else some 0x10)
  else if s.hub.boot.stage = 6 then
    (if (mb = 6 && (cmd = 2 || cmd = 0x10 || cmd = 0x11 || cmd = 0x12)) || (mb = 7 && cmd = 3) then none else some 0x11)
  else none

/-- The length of a datagram on Ethernet differs from the LENGTH field it carries (R373). -/
def misfit (m : Msg) : Bool := (m.t = .eth1 || m.t = .eth2) && m.len ≠ 20 + m.payload.length

/-- A message of mailbox 0 to 7 at its check unit (R373, R383, R384, R394, R401): the state after it, and whether it goes on. -/
def State.hear (mb : Fin 8) (cmd : Nat) (m : Msg) (s : State) : State × Bool :=
  if !s.serves m.t then (s, false) else
  if misfit m then (s.checkFail (mbStream mb.1), false) else
  let crc := crc32c (msgBytes mb.1 cmd m)
  if s.hub.link.duplicate m.t m.alive crc s.now then (s, false) else
  let (s1, ok) := s.aliveCheck mb cmd m
  if !ok then (s1, false) else
  let s2 := s1.linkMap (fun l => { (l.from_ m) with
    dups := (m.t, m.alive, crc, s.now) :: l.dups.filter (fun d => s.now ≤ d.2.2.2 + etPerMs)
    okRun := if mb.1 = 1 then l.okRun + 1 else l.okRun })
  ((s2.wake).doorbell mb, true)

/-- The common checks of R379 and R381 and the acceptance of a request. -/
def State.accept (a : Ask) (lenOk : Bool) (serve : Ask → State → State) (s : State) : State :=
  let mine := s.hub.link.reqs.filter (fun r => r.mb = a.mb)
  match s.stageRefuses a.mb a.cmd with
  | some st => s.refuse a.mb a.cmd a.seq st
  | none =>
    if !lenOk then s.refuse a.mb a.cmd a.seq 0x12
    else if mine.length ≥ 32 then s.refuse a.mb a.cmd a.seq 0x14
    else if mine.any (fun r => r.seq = a.seq) then s.refuse a.mb a.cmd a.seq 0x15
    else serve a (s.linkMap (fun l => { l with reqs := l.reqs ++ [⟨a.mb, a.seq, a.cmd, a.silent, none⟩] }))

/-- A message of a known command comes in (R378 to R386, R416). -/
def State.request (mb : Fin 8) (cmd : Nat) (len : Ask → Nat) (serve : Ask → State → State) (m : Msg) (s : State) : State :=
  let (s1, ok) := s.hear mb cmd m
  if !ok then s1 else
  let a := msgAsk mb.1 cmd m
  s1.accept a (m.len = len a && m.len = 20 + m.payload.length && 20 ≤ m.len && m.len ≤ 1024) serve

/-! ### Reach and level (R47, R416) -/

/-- The hub reaches every half of a list. -/
def State.reaches (ids : List HalfId) (s : State) : Bool := ids.all s.reach

/-- A function of R46 stands at Basic level: 0 scheduling, 1 tracker, 2 twist, 3 drive profiles, 4 acquisition, 5 analysis,
6 sluice. -/
def State.basic (f : Nat) (s : State) : Bool := !(s.hub.cfg.img.expert.getD f false)

/-! ### COMBINE lists (R430) -/

/-- One entry of a COMBINE_REFUSED list: modes A and B, scope, cylinder. -/
structure Combo where
  a     : Nat
  b     : Nat
  scope : Nat
  cyl   : Nat
deriving DecidableEq, Repr

/-- Insert by the first field, after equal ones (R430). -/
def insCombo (x : Combo) : List Combo → List Combo
  | [] => [x]
  | y :: t => if y.a ≤ x.a then y :: insCombo x t else x :: y :: t

/-- A list payload of R430: TOTAL, NLIST, at most 125 entries of 8 bytes. -/
def listPayload (xs : List (List Byte)) : List Byte :=
  le 2 xs.length ++ le 2 (min 125 xs.length) ++ (xs.take 125).flatten

/-- The payload of COMBINE_REFUSED. -/
def comboPayload (xs : List Combo) : List Byte :=
  listPayload ((xs.foldl (fun l x => insCombo x l) []).map (fun x => le 2 x.a ++ le 2 x.b ++ le 1 x.scope ++ le 1 x.cyl ++ zeros 2))

end Sys2Proof.Machine
end

