-- ==== Sys2Proof/Machine/Setpoints.lean ====
section
/-! DEFINITION. Setpoints (R386 to R395, R422 to R424): mailbox 1, the CAN FD backup stream, the switch between them, staging,
the CAN status frame. -/

namespace Sys2Proof.Machine

open Sys2Proof

/-! ### Validation (R387 to R390, R423) -/

/-- The configuration of a cylinder with Basic events (R423). -/
def State.basicCyl (s : State) (cyl : Nat) : Option CylCfg := s.hub.cfg.img.cyls.find? (fun c => c.cyl = cyl && !c.evts.isEmpty)

/-- A half serves a cylinder. -/
def Half.servesCyl (h : Half) (cyl : Nat) : Bool := (idxs 24).any (fun k => schCylValid (h.cyls.get k).cfg && schCylCyl (h.cyls.get k).cfg = cyl)

/-- The cylinder's cycle count in a half. -/
def Half.countOf (h : Half) (cyl : Nat) : Word :=
  match (idxs 24).find? (fun k => schCylValid (h.cyls.get k).cfg && schCylCyl (h.cyls.get k).cfg = cyl) with
  | some k => (h.cyls.get k).count
  | none => 0#32

/-- (target - N) modulo 256, N the low 8 bits of a half's next uncommitted count (R388). -/
def Half.ahead (h : Half) (cyl tag : Nat) : Nat := (tag + 512 - ((h.countOf cyl).toNat + 1) % 256) % 256

/-- The status of a target cycle (R388): none for k = 0 or 1. -/
def cycStatus (k : Nat) : Option Nat := if k ≤ 1 then none else if 128 ≤ k then some 0x30 else some 0x31

/-- One event of an entry lies within its limits (R390, R423). -/
def evtOk (len : Int) (c : CylCfg) (n : Nat) (e : Int × Nat) : Bool :=
  if e.2 = 0 then true else
  match c.evts.find? (fun x => x.evt = n) with
  | none => false
  | some x => -(len / 2) ≤ e.1 && e.1 < len / 2 && x.earliest ≤ e.1 &&
      (if x.action = 4 then x.profs.getLast?.any (fun p => e.2 ≤ p.2) else e.2 ≤ x.durMax)

/-- The four events at a byte offset: six bytes each, start and duration (R392, R422). -/
def evtsAt (p : List Byte) (o : Nat) : List (Int × Nat) := (List.range 4).map (fun e => (i32 p (o + 6 * e), u16 p (o + 6 * e + 4)))

/-- Validation of an entry (R387 to R390, R416, R423): its serving halves that S0 reaches, or the status of its refusal. -/
def State.checkEntry (s : State) (cyl tag : Nat) (evts : List (Int × Nat)) : Sum Nat (List HalfId) :=
  match s.basicCyl cyl with
  | none => .inl 0x32
  | some c =>
    let hs := bothHalves.filter (fun id => (s.half id).servesCyl cyl && s.reach id)
    match hs.head? with
    | none => .inl 0x0103
    | some h0 =>
      if !(evts.zipIdx.all (fun x => evtOk (s.half h0).cycLen c x.2 x.1)) then .inl 0x32
      else
        let src := if s.reach c.home then c.home else h0
        match cycStatus ((s.half src).ahead cyl tag) with
        | some st => .inl st
        | none => .inr hs

/-! ### Load figure (R147, R387, R422) -/

/-- A load figure arrives; 0xFFFF carries none. -/
def State.takeLoad (v : Nat) (s : State) : State :=
  if v = 0xFFFF then s else
  let ld := min v 1200
  let s1 := s.hubMap (fun u => { u with load := ld })
  eachOf bothHalves (fun id t => if t.reach id then t.setHalf ((t.half id).twsMap (fun w => { w with load := some ld })) id else t) s1

/-! ### Host intake, S0 foreground step 2 (R38, R387) -/

/-- Host intake of one MB1 request (R387, R414, R422, R423). -/
def State.intake1 (a : Ask) (s : State) : State :=
  let n := a.b 18
  let dirty := a.dirty 19 1 || (List.range n).any (fun i => a.dirty (20 + 28 * i + 2) 2)
  s.checked a [(n < 1 || 24 < n || dirty, 0x0104)] (fun s =>
    let rows := (List.range n).map (fun i =>
      let o := 20 + 28 * i
      (i, a.b o, a.b (o + 1), evtsAt a.p (o + 4 - 16)))
    let judged := rows.map (fun (i, cyl, tag, ev) => ((i, cyl, tag, ev), s.checkEntry cyl tag ev))
    let backup := s.hub.link.source = 1
    let ents := judged.filterMap (fun (r, v) => match v with
      | .inr hs => if backup then none else some (⟨r.1, r.2.1, r.2.2.1, r.2.2.2, hs⟩ : SpEnt)
      | .inl _ => none)
    let refs := judged.filterMap (fun (r, v) => match v with
      | .inl st => some (r.1, r.2.1, st)
      | .inr _ => if backup then some (r.1, r.2.1, 0x33) else none)
    s.linkMap (fun l => { l with sp := l.sp ++ [⟨some a.seq, ents, refs, false⟩] }))

/-- Host intake of one backup frame (R388, R390, R393, R394): kept, and forwarded while the backup stream is in service. -/
def State.intakeBackup (p : List Byte) (s : State) : State :=
  let cyl := byteAt p 1
  let tag := byteAt p 2
  let ev := evtsAt p 4
  match s.checkEntry cyl tag ev with
  | .inl _ => s
  | .inr hs =>
    let fresh (x : Nat × Nat × List (Int × Nat)) : Bool :=
      x.1 ≠ cyl || (x.2.1 ≠ tag && hs.any (fun id => (cycStatus ((s.half id).ahead cyl x.2.1)).isNone))
    s.linkMap (fun l => { l with
      backup := (cyl, tag, ev) :: l.backup.filter fresh
      sp := if l.source = 1 then l.sp ++ [⟨none, [⟨0, cyl, tag, ev, hs⟩], [], false⟩] else l.sp })

/-- Host intake of a frame: what waits, in the order of arrival (R38). -/
def State.intake (s : State) : State :=
  eachOf s.hub.link.mb1 (fun a t => if a.mb = 1 then t.intake1 a else t.intakeBackup a.p) (s.linkMap (fun l => { l with mb1 := [] }))

/-! ### Staging, steward foreground step 3 (R388, R424) -/

/-- A steward stages an entry for one of the next two cycles of a cylinder. -/
def Half.stage (cyl k : Nat) (ev : List (Int × Nat)) (h : Half) : Half :=
  { h with cyls := h.cyls.map (fun c =>
      if schCylValid c.cfg && schCylCyl c.cfg = cyl then (if k = 0 then { c with staged0 := some ev } else { c with staged1 := some ev }) else c) }

/-- An entry at one of its halves (R424): staged, or the status of its refusal. -/
def State.stageAt (e : SpEnt) (id : HalfId) (st : State × List (Option Nat)) : State × List (Option Nat) :=
  let (s, rs) := st
  if !s.reach id then (s, rs ++ [some 0x0103]) else
  let k := (s.half id).ahead e.cyl e.tag
  match cycStatus k with
  | some r => (s, rs ++ [some r])
  | none => (s.setHalf ((s.half id).stage e.cyl k e.evts) id, rs ++ [none])

/-- An entry staged in every half it goes to (R389, R423, R424): refused with a steward's status, or as unreachable where no
half staged it. -/
def State.stageEntry (e : SpEnt) (st : State × List (Nat × Nat × Nat)) : State × List (Nat × Nat × Nat) :=
  let (s, refs) := st
  let (s1, rs) := eachOf e.halfs (State.stageAt e) (s, [])
  let bad := rs.filterMap id
  let named := bad.filter (· ≠ 0x0103)
  match named, rs.any Option.isNone with
  | r :: _, _ => (s1, refs ++ [(e.idx, e.cyl, r)])
  | [], true => (s1, refs)
  | [], false => (s1, refs ++ [(e.idx, e.cyl, 0x0103)])

/-- Insert a refusal by entry index. -/
def insRef (x : Nat × Nat × Nat) : List (Nat × Nat × Nat) → List (Nat × Nat × Nat)
  | [] => [x]
  | y :: t => if y.1 ≤ x.1 then y :: insRef x t else x :: y :: t

/-- A forwarded frame is staged; its completion goes out in the same frame (R424). -/
def State.stageFrame (f : SpFrame) (s : State) : State :=
  let (s1, refs) := eachOf f.ents State.stageEntry (s, f.refs)
  match f.seq with
  | none => s1
  | some q =>
    let rs := refs.foldl (fun l x => insRef x l) []
    s1.finish 1 q (if rs.isEmpty then 0 else 1) (le 1 rs.length ++ zeros 3 ++ rs.flatMap (fun r => le 1 r.1 ++ le 1 r.2.1 ++ le 2 r.2.2))

/-- An entry for the halves that meet a condition; none where no half does. -/
def SpEnt.only (p : HalfId → Bool) (e : SpEnt) : Option SpEnt :=
  if (e.halfs.filter p).isEmpty then none else some { e with halfs := e.halfs.filter p }

/-- A forwarded frame in the foreground of some stewards (R41, R424): a steward without foreground for this tick stages its entries at its
next one, and the completion waits for it. -/
def State.stageNow (runs : HalfId → Bool) (f : SpFrame) (s : State) : State :=
  match f.ents.filterMap (SpEnt.only (fun id => !runs id)) with
  | [] => s.stageFrame f
  | later =>
    let (s1, refs) := eachOf (f.ents.filterMap (SpEnt.only runs)) State.stageEntry (s, f.refs)
    s1.linkMap (fun l => { l with sp := l.sp.filter (·.held) ++ [{ f with ents := later, refs := refs, held := true }] ++ l.sp.filter (!·.held) })

/-- Setpoint staging (R45, R424): at a frame tick what the frame before forwarded, in a late foreground what was left to it (R41). -/
def State.staging (late : Bool) (runs : HalfId → Bool) (s : State) : State :=
  eachOf (s.hub.link.sp.filter (fun f => !late || f.held)) (State.stageNow runs)
    (s.linkMap (fun l => { l with sp := l.sp.filter (fun f => late && !f.held) }))

/-! ### The setpoint source (R394, R431) -/

/-- The setpoint source changes: 0 PRIMARY, 1 BACKUP, with the cause of its record. -/
def State.switchSource (src cause : Nat) (s : State) : State :=
  ((s.linkMap (fun l => { l with source := src, swPend := false, swAt := s.now, okRun := 0 })).raiseHub 0x63 locHub).unsol 1 0x8001 s.hub.frame
    (le 1 src ++ le 1 cause) true

/-- The kept backup entries whose target cycles are not committed are staged in place of the primary ones (R394). -/
def State.stageBackup (s : State) : State :=
  eachOf s.hub.link.backup.reverse (fun x t => eachOf bothHalves (fun id t =>
    let k := (t.half id).ahead x.1 x.2.1
    if t.reach id && (t.half id).servesCyl x.1 && k ≤ 1 then t.setHalf ((t.half id).stage x.1 k x.2.2) id else t) t) s

/-- The switch between the streams at a frame tick (R394). -/
def State.sourceTick (s : State) : State :=
  let l := s.hub.link
  if l.source = 1 then
    if !l.cfg.backupEn then s.switchSource 0 2
    else if l.okRun ≥ 50 && s.now ≥ l.swAt + etPerSec then s.switchSource 0 1 else s
  else if l.swPend && l.cfg.backupEn then (s.switchSource 1 0).stageBackup
  else s.linkMap (fun l => { l with swPend := false })

/-! ### Commands -/

/-- SETPOINT arrives (R387, R422): its load figure is taken, its entries wait for host intake. -/
def execSetpoint (m : Msg) (s : State) : Host.Outcome State Fault Refusal :=
  let a := msgAsk 1 1 m
  let (s1, ok) := s.hear 1 1 m
  .next (if !ok then s1 else
    let s2 := if a.p.length ≥ 2 && (s1.stageRefuses 1 1).isNone then s1.takeLoad (a.h 16) else s1
    s2.accept a (20 ≤ m.len && m.len ≤ 1024 && 4 ≤ a.p.length && m.len = 20 + a.p.length && m.len = 24 + 28 * a.b 18)
      (fun a s => s.linkMap (fun l => { l with mb1 := l.mb1 ++ [a] })))

/-- A CAN FD backup frame arrives (R382, R385, R392, R393). -/
def State.canBackup (port : Nat) (ident : Nat) (data : List Byte) (s : State) : State :=
  let l := s.hub.link
  let cyl := ident + 1 - l.cfg.spBase
  let bad := s.checkFail (some 8)
  if !(s.serves .eth1) || s.hub.boot.stage ≠ 4 || !l.cfg.backupEn || port ≠ l.cfg.backupPort || ident < l.cfg.spBase || 24 < cyl || cyl < 1 then s
  else if data.length ≠ 32 || crc16 (data.take 30) ≠ BitVec.ofNat 16 (256 * byteAt data 30 + byteAt data 31) then bad
  else if byteAt data 1 ≠ cyl then bad
  else
    match fin? 24 (cyl - 1) with
    | none => s
    | some c =>
      let al := byteAt data 0 / 16
      let set (t : State) : State := t.linkMap (fun l => { l with canAlive := put1 l.canAlive c (some al) })
      let good (t : State) : State :=
        ((set t).takeLoad (u16 data 28)).linkMap (fun l => { l with mb1 := l.mb1 ++ [⟨8, 0, 0, true, data⟩] })
      match l.canAlive.get c with
      | none => good s
      | some old =>
        let d := (al + 16 - old) % 16
        if d = 1 then good s
        else if d = 2 then (good s).raiseHub 0x61 locHub
        else set bad

/-- CAN_BACKUP_FRAME (R392). -/
def execCanBackupFrame (port : Fin 2) (ident : BitVec 11) (data : List Byte) (s : State) : Host.Outcome State Fault Refusal :=
  .next (s.canBackup port.1 ident.toNat data)

/-- Fault classes lasting somewhere now (R395). -/
def State.lastingN (s : State) : Nat :=
  (idxs 192).countP (fun c => (s.a.flt.cnt.get c).lasting || (s.b.flt.cnt.get c).lasting || (s.hub.flt.cnt.get c).lasting)

/-- The data field of a CAN status frame of a port (R395). -/
def State.statBytes (p : Fin 2) (s : State) : List Byte :=
  let l := s.hub.link
  let f := s.hub.fg
  let b := le 1 (l.canOut.get p % 16 * 16) ++ le 1 (s.a.snap.st * 16 + s.b.snap.st) ++
    le 2 (roundFree 23 (((s.half s.primary).snap.speed : Int) * 10) 65536).toNat ++
    le 1 (128 * bit (s.a.fg.latch || s.b.fg.latch) + 64 * bit f.fga + 32 * bit f.fgb) ++
    le 1 (64 * l.source + 32 * bit (s.a.links.role = 3 || s.b.links.role = 3)) ++ le 2 (sat 16 s.lastingN) ++ leW s.hub.frame ++ zeros 2
  let c := (crc16 b).toNat
  b ++ [BitVec.ofNat 8 (c / 256), BitVec.ofNat 8 c]

/-- The status frames of the configured CAN ports leave, each with its port's alive counter (R395). -/
def State.statSend (s : State) : State :=
  let ps := s.hub.link.cfg.canPorts
  s.linkMap (fun l => { l with
    canOut := ps.foldl (fun v p => upd v p (· + 1)) l.canOut, statAt := s.now
    sent := ps.map (fun p => (⟨2 + p.1, 0, 0, l.cfg.statId, s.statBytes p, 0⟩ : Sent)) ++ l.sent })

/-- A CAN status frame is due on each configured CAN port (R395): the clock is brought forward to it. -/
def execCanStatusFrame (s : State) : Host.Outcome State Fault Refusal :=
  if !s.clocked || s.hub.boot.stage ≠ 4 then .next s else
  .next (s.advanceTo (s.hub.link.statAt + s.hub.link.cfg.statPer * etPerMs)).statSend

end Sys2Proof.Machine
end

