-- ==== Sys2Proof/Machine/ClosedLoop.lean ====
section
/-! DEFINITION. What S1 does with results: the MFB50 closed loop and the wiring check (R330 to R336). -/

namespace Sys2Proof.Machine

open Sys2Proof

/-! ### The closed loop (R330 to R335) -/

/-- K as a factor, and the limits of CL_CFG0 and CL_CFG1 in Q16 (R341). -/
def ClSt.gain (c : ClSt) : Rat := (clCfg0K c.cfg0 : Rat) / 100

/-- STEP_MAX in Q16. -/
def ClSt.stepMax (c : ClSt) : Rat := (clCfg0StepMax c.cfg0 : Rat) * 65536 / 100

/-- LIM_ADV in Q16. -/
def ClSt.limAdv (c : ClSt) : Rat := (clCfg1LimAdv c.cfg1 : Rat) * 65536 / 100

/-- LIM_RET in Q16. -/
def ClSt.limRet (c : ClSt) : Rat := (clCfg1LimRet c.cfg1 : Rat) * 65536 / 100

/-- TARGET in Q16. -/
def ClSt.target (c : ClSt) : Rat := (clCfg1Target c.cfg1 : Rat) * 65536 / 20

/-- A correction within the limits (R331). -/
def ClSt.clamp (c : ClSt) (d : Rat) : Rat := max (-c.limAdv) (min c.limRet d)

/-- The correction after a result whose error is e (R331). -/
def ClSt.step (c : ClSt) (e : Rat) : Rat := c.clamp (c.delta + max (-c.stepMax) (min c.stepMax (-(c.gain * e))))

/-- The correction stands at a limit. -/
def ClSt.atLimit (c : ClSt) : Bool := c.delta = -c.limAdv || c.delta = c.limRet

/-- S1 publishes a cylinder's correction, its source cycle and EVT_MASK to every half that serves it (R331, R333); OFF publishes
zero (R334). -/
def State.publish (k : Fin 24) (s : State) : State :=
  let c := s.hub.cl.get k
  let d : Int := if clCfg0Mode c.cfg0 = 0 then 0 else roundFreeQ 45 c.delta
  let set (h : Half) : Half := { h with cyls := h.cyls.map (fun x =>
    if schCylValid x.cfg && schCylCyl x.cfg = k.1 + 1 then { x with delta := d, deltaSrc := c.src, evtMask := clCfg0EvtMask c.cfg0 } else x) }
  eachOf bothHalves (fun id t => if t.reach id then t.setHalf (set (t.half id)) id else t) s

/-- A result is held out of the loop (R332). -/
def State.clHeld (r : ResOut) (s : State) : Bool :=
  let q := r.qual
  let flags := match s.hub.recs.opens.find? (CycRec.is none r.cyl r.cyc) with
    | some c => c.flags
    | none => 0
  q.testBit 13 || q.testBit 4 || q.testBit 3 || q.testBit 11 || !r.fuel || q.testBit 8 || q.testBit 2 || r.mfb50.isNone ||
    flags.testBit 15 || flags.testBit 14

/-- The mean MFB50 of the latest unheld results of the cylinders in BALANCE (R331). -/
def Hub.balance (u : Hub) : Rat :=
  let xs := u.cl.toList.filterMap (fun c => if clCfg0Mode c.cfg0 = 2 then c.last else none)
  if xs.isEmpty then 0 else (xs.sum : Rat) / xs.length

/-- Balancing is frozen: a half is not JOINED (R335, R472). -/
def State.clFrozen (s : State) : Bool := s.a.links.role ≠ 0 || s.b.links.role ≠ 0

/-- S1 takes in a combustion result for the closed loop (R331, R332, R335). -/
def State.clIntake (r : ResOut) (s : State) : State :=
  match fin? 24 (r.cyl - 1) with
  | none => s
  | some k =>
    let mode := clCfg0Mode (s.hub.cl.get k).cfg0
    if r.imep || r.cyl = 0 || s.basic 5 || mode = 0 then s else
    let held := s.clHeld r
    let upC (f : ClSt → ClSt) (s : State) : State := s.hubMap (fun u => { u with cl := upd u.cl k f })
    if held then upC (fun c => { c with hold := true, last := none }) s else
    let s1 := upC (fun c => { c with hold := false, last := r.mfb50 }) s
    if mode = 2 && s.clFrozen then s1 else
    let c := s1.hub.cl.get k
    let m : Rat := (r.mfb50.getD 0 : Int)
    let e : Rat := if mode = 1 then m - c.target else m - s1.hub.balance
    let c1 : ClSt := { c with delta := c.step e, src := r.cyc % 256 }
    let lim := c1.atLimit
    let s2 := (upC (fun _ => { c1 with limit := lim }) s1).publish k
    if lim && !c.limit then s2.raiseHub 0x74 locHub else s2

/-! ### Pressure inputs on the wrong cylinder (R336) -/

/-- Firing TDCs as (cylinder, TDC'), of the entries of both halves. -/
def State.tdcs (s : State) : List (Nat × Int) :=
  bothHalves.flatMap (fun id =>
    let h := s.half id
    ((idxs 24).filter (fun k => (h.tws.cyl.get k).valid)).map (fun k =>
      let t : Int := (h.tws.cyl.get k).tdc.toNat
      ((h.tws.cyl.get k).cyl, if h.trk.dir.read then (h.cycLen - t) % h.cycLen else t)))

/-- The cylinder whose TDC lies nearest to a cycle angle, modulo L. -/
def nearestTdc (len a : Int) (xs : List (Nat × Int)) : Option Nat :=
  (xs.foldl (fun (best : Option (Nat × Nat)) x =>
    let d := (wrapS len (a - x.2)).natAbs
    match best with
    | some (_, e) => if d < e then some (x.1, d) else best
    | none => some (x.1, d)) none).map (·.1)

/-- One vote more for a cylinder. -/
def vote (j : Nat) (t : List (Nat × Nat)) : List (Nat × Nat) := (j, (t.lookup j).getD 0 + 1) :: t.filter (fun x => x.1 ≠ j)

/-- The cylinder with the most votes, and how many. -/
def topVote (t : List (Nat × Nat)) : Nat × Nat := t.reverse.foldl (fun b x => if b.2 < x.2 then x else b) (0, 0)

/-- The verdict of 32 counted cycles (R336): CORR_STAT's fields, and whether MISWIRED sets (some true), clears (some false) or
stays. -/
def verdictOf (own : Nat) (t : List (Nat × Nat)) : CorrSt × Option Bool :=
  let (j, n) := topVote t
  let mine := (t.lookup own).getD 0
  if 24 ≤ mine then (⟨1, own, mine, 0, [], none⟩, some false)
  else if 24 ≤ n then (⟨2, j, n, 0, [], none⟩, some true)
  else (⟨0, j, n, 0, [], none⟩, none)

/-- What a combustion result says of its cycle for the wiring check (R336): its window is valid and the tracker was in SYNC at commit. -/
def State.corrCounts (r : ResOut) (s : State) : Bool :=
  let sync := match s.hub.recs.opens.find? (CycRec.is none r.cyl r.cyc) with
    | some c => c.o.states / 16 = 4
    | none => false
  !r.qual.testBit 13 && !r.qual.testBit 4 && sync

/-- S1 notes it at result intake. -/
def State.corrNote (r : ResOut) (s : State) : State :=
  match fin? 24 r.lane with
  | some j => if r.imep then s else s.hubMap (fun u => { u with corrs := upd u.corrs j (fun c => { c with comb := some (r.cyc, s.corrCounts r) }) })
  | none => s

/-- S1's wiring check of one cycle (R336). -/
def State.corrIntake (lane cyl cyc : Nat) (ang : Option Int) (span : Rat) (s : State) : State :=
  let id : HalfId := if lane < 12 then .A else .B
  match fin? 24 lane, fin? 12 (lane % 12), ang.bind (fun a => nearestTdc (s.half id).cycLen a s.tdcs) with
  | some j, some l, some seen =>
    let c := s.hub.corrs.get j
    if !(corrCfgEn s.hub.corr && c.comb = some (cyc, true) && (corrCfgCorrMin s.hub.corr : Nat) ≤ span * 10) then s else
    let set (x : CorrSt) (s : State) : State := s.hubMap (fun u => { u with corrs := put1 u.corrs j x })
    let t := vote seen c.tally
    if c.counted + 1 < 32 then set { c with counted := c.counted + 1, tally := t } s else
    let (c1, mis) := verdictOf cyl t
    let s1 := set { c1 with comb := c.comb } s
    let s2 := match mis with
      | some b => s1.setHalf ((s1.half id).laneMap l (fun x => { x with miswired := b })) id
      | none => s1
    if c1.verdict = 2 && c.verdict ≠ 2 then s2.raiseHub 0x73 ((s2.half id).laneLoc l) else s2
  | _, _, _ => s

/-- The combustion result of a cycle window has been taken in, or a later one. -/
def Hub.peakReady (u : Hub) (x : Nat × Nat × Nat × Option Int × Rat) : Bool :=
  match fin? 24 x.1 with
  | some j => (u.corrs.get j).comb.any (fun c => x.2.2.1 ≤ c.1)
  | none => true

/-- Result intake, S1 foreground step 3 (R38, R324): the combustion results, then the cycles whose result has been taken in. A result complete
before its cycle's commit is taken in once the record is open, which says whether the cycle was HELD or DEFAULT (R325, R332, log 114). -/
def State.resultIntake (s : State) : State :=
  let s1 := s.hubMap (fun u => { u with
    cl := u.cl.map (fun c => { c with frozen := clCfg0Mode c.cfg0 = 2 && s.clFrozen }), recs := { u.recs with intake := u.recs.intake.filter u.recs.early.contains } })
  let s2 := eachOf (s.hub.recs.intake.filter (fun r => !s.hub.recs.early.contains r)) (fun r t => (t.corrNote r).clIntake r) s1
  let ready := s2.hub.recs.peaks.filter s2.hub.peakReady
  eachOf ready (fun x t => t.corrIntake x.1 x.2.1 x.2.2.1 x.2.2.2.1 x.2.2.2.2)
    (s2.recsMap (fun r => { r with peaks := r.peaks.filter (fun x => !s2.hub.peakReady x) }))

end Sys2Proof.Machine
end

