-- ==== Sys2Proof/Machine/Power.lean ====
section
/-! DEFINITION. Shed levels, sensor supplies, the power budget (R263 to R266, R521) and the clocks: PTP, PPS, the time map, the
TCXO (R33, R34, R404, R405). -/

namespace Sys2Proof.Machine

open Sys2Proof

/-! ### Sensor supplies (R263, R264, R521) -/

/-- The half of a sensor supply, and its P position there. -/
def ssPlace (n : Fin 24) : HalfId × Fin 12 := (if n.1 < 12 then .A else .B, ⟨n.1 % 12, Nat.mod_lt _ (by decide)⟩)

/-- SSn goes off (R275): SS_OK clears; `byShed` when level 4 switched it off. -/
def State.ssOff (n : Fin 24) (byShed : Bool) (s : State) : State :=
  let (id, i) := ssPlace n
  (s.pwrMap (fun p => { p with on := put1 p.on n false })).onHalf id (fun h =>
    (h.ssClear i).acqMap (fun a => { a with ssShed := put1 a.ssShed i (byShed || a.ssShed.get i) }))

/-- SSn starts (R264, R489, R521). -/
def State.ssOn (n : Fin 24) (s : State) : State :=
  let (id, i) := ssPlace n
  (s.pwrMap (fun p => { p with on := put1 p.on n true, trip := put1 p.trip n false, off4 := put1 p.off4 n false })).onHalf id (fun h =>
    h.acqMap (fun a => { a with ssShed := put1 a.ssShed i false }))

/-- Level 4 is entered: the supplies SS_SHED names go off, the tripped ones among them wait too (R263, R521). -/
def State.shed4 (s : State) : State :=
  eachIdx 24 (fun n t =>
    let p := t.hub.pwr
    if !p.cfg.toNat.testBit (8 + n.1) || !(p.on.get n || p.trip.get n || p.queue.contains n) then t
    else (t.pwrMap (fun p => { p with off4 := put1 p.off4 n true, queue := p.queue.filter (· ≠ n) })).ssOff n true) s

/-- Thresholds of the shed levels in 0.1 V (R263). -/
def shedThr (n : Nat) : Nat := match n with | 1 => 140 | 2 => 125 | 3 => 110 | _ => 100

/-- The shed level stands in the hub and the halves it reaches. -/
def State.setShed (n : Nat) (s : State) : State :=
  eachOf bothHalves (fun id t => if t.reach id then t.setHalf ((t.half id).setShed n) id else t) (s.pwrMap (fun p => { p with shed := n }))

/-- V_IN has stood below the next level's threshold for 1 ms (R263). -/
def State.shedEnter (dV : Nat) (s : State) : State :=
  let n := s.hub.pwr.shed + 1
  if !s.hubOn || 4 < n || shedThr n ≤ dV then s else
  let s1 := ((s.pwrMap (fun p => { p with vIn := dV })).setShed n).raiseHub 0x70 locHub
  match n with
  | 2 => s1.pwrMap (fun p => { p with scrub := some s1.now })
  | 4 => s1.shed4
  | _ => s1

/-- SHED_ENTER (R263). -/
def execShedEnter (dV : Nat) (s : State) : Host.Outcome State Fault Refusal := .next (s.shedEnter dV)

/-- V_IN has stood at or above the level's threshold plus 0.5 V for 50 ms (R263, R264). -/
def State.shedLeave (dV : Nat) (s : State) : State :=
  let n := s.hub.pwr.shed
  if !s.hubOn || n = 0 || dV < shedThr n + 5 then s else
  let s1 := (s.pwrMap (fun p => { p with vIn := dV })).setShed (n - 1)
  match n with
  | 2 => s1.pwrMap (fun p => { p with scrub := none })
  | 4 => s1.pwrMap (fun p => { p with queue := (idxs 24).filter (fun i => p.off4.get i || p.queue.contains i), stepAt := s1.now })
  | _ => s1

/-- SHED_LEAVE (R263). -/
def execShedLeave (dV : Nat) (s : State) : Host.Outcome State Fault Refusal := .next (s.shedLeave dV)

/-- The next sensor supply starts, one every 1 ms (R264, R489). -/
def execSupplyRestartStep (s : State) : Host.Outcome State Fault Refusal :=
  match s.hub.pwr.queue with
  | [] => .next s
  | n :: t =>
    if !s.hubOn then .next s else
    let s1 := s.advanceTo s.hub.pwr.stepAt
    .next ((s1.pwrMap (fun p => { p with queue := t, stepAt := s1.now + etPerMs })).ssOn n)

/-- A deferred scrub resumes after SCRUB_DEFER seconds (R263). -/
def execScrubDeferExpire (s : State) : Host.Outcome State Fault Refusal :=
  match s.hub.pwr.scrub with
  | none => .next s
  | some t =>
    if !s.hubOn then .next s else
    .next ((s.advanceTo (t + pwrCfgScrubDefer s.hub.pwr.cfg * etPerSec)).pwrMap (fun p => { p with scrub := none }))

/-- P_IN has stood above 60 W for 100 ms (R265): raised once for the excursion. -/
def execPowerOver (s : State) : Host.Outcome State Fault Refusal :=
  match s.hub.pwr.overAt with
  | none => .next s
  | some t =>
    if !s.hubOn || s.hub.pwr.raised then .next s else
    .next (((s.advanceTo (t + 100 * etPerMs)).pwrMap (fun p => { p with raised := true })).raiseHub 0x71 locHub)

/-- SSn has been in limit for 5 ms (R521): it trips off. -/
def execSsSupplyTrip (n : Fin 24) (s : State) : Host.Outcome State Fault Refusal :=
  if !s.hubOn || !s.hub.pwr.on.get n then .next s else
  .next ((s.pwrMap (fun p => { p with trip := put1 p.trip n true, tripAt := put1 p.tripAt n s.now })).ssOff n false)

/-- When the retry of a tripped supply is due (R521): 1 s after the trip, 1 ms after the last retry. -/
def Pwr.retryDue (p : Pwr) (n : Fin 24) : Nat := max (p.tripAt.get n + etPerSec) ((p.retryAt.map (· + etPerMs)).getD 0)

/-- A supply may retry: tripped, not held off by level 4. -/
def Pwr.mayRetry (p : Pwr) (n : Fin 24) : Bool := p.trip.get n && !p.off4.get n

/-- A tripped supply retries (R521); of several due together the lowest number goes first. -/
def execSsSupplyRetry (n : Fin 24) (s : State) : Host.Outcome State Fault Refusal :=
  let p := s.hub.pwr
  let t := max s.now (p.retryDue n)
  let first := (idxs 24).all (fun m => n.1 ≤ m.1 || !p.mayRetry m || t < p.retryDue m)
  if !s.hubOn || !p.mayRetry n || !first then .next s else
  .next (((s.advanceTo t).pwrMap (fun p => { p with retryAt := some t, tripAt := put1 p.tripAt n t })).ssOn n)

/-! ### Clocks (R33, R34, R404, R405) -/

/-- Change the PTP part. -/
def State.ptpMap (f : PtpSt → PtpSt) (s : State) : State := s.hubMap (fun u => { u with ptp := f u.ptp })

/-- A PTP sync brings an offset estimate (R404). -/
def State.ptpSync (ofs : Int) (s : State) : State :=
  if !s.hubOn || !s.hub.link.cfg.ptpEn then s else
  let p := s.hub.ptp
  let run := if ofs.natAbs ≤ 1000 then p.run + 1 else 0
  let out := 10000 < ofs.natAbs
  let lock := if p.lock = 3 then 3 else if p.lock = 2 && out then 1 else if p.lock = 2 || 16 ≤ run then 2 else 1
  let s1 := s.ptpMap (fun p => { p with ofs := if p.lock = 3 then p.ofs else satI 30 ofs, run := run, syncAt := some s.now, lock := lock })
  if p.lock = 2 && out then s1.raiseHub 0x67 locHub else s1

/-- PTP_SYNC (R404). -/
def execPtpSync (ofsNs : Int) (s : State) : Host.Outcome State Fault Refusal := .next (s.ptpSync ofsNs)

/-- 3 s have passed without a valid sync (R404): LOCK goes to FREE, unless PPS_IN has it (R33). -/
def execPtpSyncTimeout (s : State) : Host.Outcome State Fault Refusal :=
  match s.hub.ptp.syncAt with
  | none => .next s
  | some t =>
    if !s.hubOn then .next s else
    let s1 := s.advanceTo (t + 3 * etPerSec)
    let held := s1.hub.ptp.lock = 3
    let s2 := s1.ptpMap (fun p => { p with syncAt := none, run := 0, lock := if p.lock = 3 then 3 else 0 })
    .next (if held then s2 else s2.raiseHub 0x67 locHub)

/-- A rising edge of PPS_IN (R33, R404). -/
def execPpsPulse (ofsNs : Int) (s : State) : Host.Outcome State Fault Refusal :=
  if !s.hubOn || !s.hub.link.cfg.ppsIn then .next s else
  .next (s.ptpMap (fun p => { p with ppsAt := some s.now, lock := 3, ofs := satI 30 ofsNs }))

/-- The instant of the next time map (R405): a second after the last. -/
def PtpSt.mapDue (p : PtpSt) (now : Nat) : Nat := match p.mapAt with | some t => t + etPerSec | none => now

/-- The time map (R405): the latest tick's FRAME and its reference time, as the row brings it. -/
def execTimeMapWrite (sec ns : Nat) (s : State) : Host.Outcome State Fault Refusal :=
  if !s.hubOn then .next s else
  let s1 := s.advanceTo (s.hub.ptp.mapDue s.now)
  .next (s1.ptpMap (fun p => { p with mapF := s1.hub.frame, mapS := sec % 2 ^ 48, mapNs := ns, mapAt := some s1.now }))

/-- The TCXO fails (R34, R468): CLOCK_HOLDOVER, and LOCK reads FREE while it stands. -/
def execTcxoFail (s : State) : Host.Outcome State Fault Refusal :=
  if !s.hubOn || s.hub.ptp.hold then .next s else
  .next ((s.ptpMap (fun p => { p with hold := true })).raiseHub 0x72 locHub)

end Sys2Proof.Machine
end

