-- ==== Sys2Proof/Machine/Floodgate.lean ====
section
/-! DEFINITION. The floodgate as the hub runs it, and mailbox 0 (R225, R232 to R237, R418 to R421, R538). -/

namespace Sys2Proof.Machine

open Sys2Proof

/-- FG_SETTLE in et (R237). -/
def FgHub.settle (f : FgHub) : Nat := fgCfgFgSettle f.cfg * etPerMs

/-- FG_STAT of a half (R236). SRC stands at its default until an input has been seen (log 109). -/
def State.fgStat (id : HalfId) (s : State) : Word :=
  let f := s.hub.fg
  let g := (s.half id).fg
  putB f.fga 31 ||| putB f.fgb 30 ||| putB g.latch 29 ||| putB g.checked 28 ||| put g.cause 4 24 |||
    putB f.lowA 23 ||| putB f.lowB 22 ||| putB s.a.fg.osTrip 21 ||| putB s.b.fg.osTrip 20 ||| putB f.stop 19 ||| put g.trips 16 0

/-- The release check for halves (R232, R234): 0 passes, else the reason of the first failing item. -/
def State.fgFail (ids : List HalfId) (s : State) : Nat :=
  let f := s.hub.fg
  if !(f.fga && f.fgb) then 1
  else if f.hiAt.all (fun t => s.now < t + f.settle) then 2
  else if s.a.fg.osTrip || s.b.fg.osTrip then 3
  else if ids.any (fun id => !(s.half id).readbackSafe) then 4
  else if !s.reaches bothHalves then 5
  else 0

/-- CHECKED of the halves (R232, R234). -/
def State.setChecked (ids : List HalfId) (s : State) : State :=
  eachOf bothHalves (fun id t => t.setHalf { t.half id with fg := { (t.half id).fg with checked := ids.contains id && (t.half id).fg.latch } } id) s

/-- Kill latches released at a frame tick by an accepted release (R232, R234, R420); a half that cannot be reached stays gated (R538). -/
def State.fgRelease (s : State) : State :=
  match s.hub.fg.rel with
  | none => s
  | some (ids, qs) =>
    let s1 := eachOf (ids.filter s.reach) (fun id t => t.setHalf (((t.half id).releaseLatch).tdacAbort) id) (s.fgMap (fun f => { f with rel := none }))
    let s2 := (s1.raiseHub 0x2B locHub).unsol 0 0x8002 s1.hub.frame s1.tripBytes false
    eachOf qs (fun q t => t.finish 0 q 0 (le 1 0)) s2

/-- A HALF_RESET latch is counted (R235); where the release state was RUN it is a trip, posted with the FRAME of the reset (R232, R454, R455). -/
def State.halfTrip (run : Bool) (fr : Word) (id : HalfId) (s : State) : State :=
  let s1 := s.fgMap (fun f => { f with trips := f.trips + 1 })
  if run then (s1.raiseHub 0x2A locHub).unsol 0 0x8001 fr (le 1 6 ++ le 1 (halfMask [id]) ++ s1.tripBytes) true else s1

/-- The trip count into the timing dies S0 reaches, and HALF_RESET latches counted that it could not reach (R235). -/
def State.fgTrips (s : State) : State :=
  let seen := s.hub.fg.owed.filter (fun x => s.reach x.1)
  let s1 := eachOf seen (fun x t => t.halfTrip x.2.1 x.2.2 x.1)
    (s.fgMap (fun f => { f with owed := f.owed.filter (fun x => !s.reach x.1) }))
  eachOf bothHalves (fun id t => if t.reach id then t.setHalf { t.half id with fg := { (t.half id).fg with trips := s1.hub.fg.trips.toNat } } id else t) s1

/-- S0's release check at a frame tick (R232, R234). -/
def State.fgCheck (s0 : State) : State :=
  let s := s0.fgTrips
  if s.hub.fg.st = 2 then
    let hung := bothHalves.filter (fun id => (s.half id).fg.latch && s.hub.fg.rel.all (fun r => !r.1.contains id))
    let good := hung.filter (fun id => s.fgFail [id] = 0)
    let why := ((hung.filter (fun id => s.fgFail [id] ≠ 0)).map (fun id => s.fgFail [id])).headD 0
    (s.fgMap (fun f => { f with halfChk := good, halfFail := why, fail := s.fgFail bothHalves })).setChecked (good ++ ((s.hub.fg.rel.map (·.1)).getD []))
  else
    let n := s.fgFail bothHalves
    if n = 0 then (s.fgMap (fun f => { f with st := 1, fail := 0 })).setChecked bothHalves
    else (s.fgMap (fun f => { f with st := 0, fail := n })).setChecked []

/-- STOP (R226, R419): the source asserts, the trip count increments, the event log keeps REASON. -/
def State.serveStop (a : Ask) (frame : Word) (s : State) : State :=
  s.checked a [(a.dirty 17 3, 0x0104)] (fun s =>
    let s1 := (s.kill 5).fgMap (fun f => { f with stop := true, trips := f.trips + 1 })
    (s1.log 0x30 0 (a.b 16) frame (leW frame)).done a 0 s1.tripBytes)

/-- FLOODGATE_RELEASE (R232, R234, R420). In TRIPPED the reason is that of the check of the same tick; where every item held at it, as after
a STOP served just before, it is TRIP_COUNT (log 109). -/
def State.serveRelease (a : Ask) (s : State) : State :=
  s.checked a [(a.dirty 18 2, 0x0104)] (fun s =>
    let f := s.hub.fg
    let no (n : Nat) : State := s.done a 0x0130 (le 1 n)
    let same := a.h 16 = f.trips.toNat
    if f.st = 0 then no (if f.fail = 0 then 6 else f.fail)
    else if f.st = 1 then
      if !same then no 6 else s.fgMap (fun f => { f with st := 2, stop := false, rel := some (bothHalves, [a.seq]) })
    else
      let (ids, qs) := f.rel.getD ([], [])
      let hung := bothHalves.filter (fun id => (s.half id).fg.latch && !ids.contains id)
      if hung.isEmpty then
        if ids.isEmpty then s.done a 0 (le 1 0) else s.fgMap (fun f => { f with rel := some (ids, qs ++ [a.seq]) })
      else if hung.any (fun id => !f.halfChk.contains id) then no f.halfFail
      else if !same then no 6
      else s.fgMap (fun f => { f with rel := some (ids ++ hung, qs ++ [a.seq]) }))

/-- SET_DIRECTION (R421): work for each steward's next frame tick. -/
def State.serveDirection (a : Ask) (s : State) : State :=
  let astern := a.b 16 = 1
  let fixed := bothHalves.any (fun id => !trkCfg0Reversible (s.half id).trk.cfg0)
  s.checked a [(!s.reaches bothHalves, 0x0103), (1 < a.b 16 || a.dirty 17 3, 0x0104), (astern && fixed, 0x0131)] (fun s =>
    s.hubMap (fun u => { u with jobs := u.jobs ++ [⟨0, a.seq, le 1 (a.b 16), [.dir .A astern, .dir .B astern]⟩] }))

/-- FG_STATUS (R418). -/
def State.serveFgStatus (a : Ask) (s : State) : State :=
  s.checked a [(!s.reaches bothHalves, 0x0103)] (fun s => s.done a 0 (leW (s.fgStat .A) ++ leW (s.fgStat .B) ++ leW s.hub.fg.cfg))

/-- One mailbox 0 request served in S0's foreground step 1 (R378, R419). -/
def State.serve0 (x : Ask × Word) (s : State) : State :=
  match x.1.cmd with
  | 1 => s.serveStop x.1 x.2
  | 2 => s.serveRelease x.1
  | 3 => s.serveDirection x.1
  | _ => s.serveFgStatus x.1

/-- Every mailbox 0 request that waits is served in the order of acceptance (R419). -/
def State.serveMb0 (s : State) : State := eachOf s.hub.link.mb0 State.serve0 (s.linkMap (fun l => { l with mb0 := [] }))

/-- A mailbox 0 request waits for S0's next foreground step 1 (R378). -/
def State.queue0 (a : Ask) (s : State) : State := s.linkMap (fun l => { l with mb0 := l.mb0 ++ [(a, s.hub.frame)] })

/-- STOP arrives (R419). -/
def execStop (m : Msg) (s : State) : Host.Outcome State Fault Refusal := .next (s.request 0 1 (fun _ => 24) State.queue0 m)

/-- FLOODGATE_RELEASE arrives (R420). -/
def execFloodgateRelease (m : Msg) (s : State) : Host.Outcome State Fault Refusal := .next (s.request 0 2 (fun _ => 24) State.queue0 m)

/-- SET_DIRECTION arrives (R421). -/
def execSetDirection (m : Msg) (s : State) : Host.Outcome State Fault Refusal := .next (s.request 0 3 (fun _ => 24) State.queue0 m)

/-- FG_STATUS arrives (R418). -/
def execFgStatus (m : Msg) (s : State) : Host.Outcome State Fault Refusal := .next (s.request 0 4 (fun _ => 20) State.queue0 m)

end Sys2Proof.Machine
end

