-- ==== Sys2Proof/Machine/Window.lean ====
section
/-! DEFINITION. The host link below the mailboxes: check failures, the host window and management frames, the SPI request
buffer, the completion queue's consumption and notifications (R374 to R376, R383, R386, R397 to R401). -/

namespace Sys2Proof.Machine

open Sys2Proof

/-! ### Streams and frames that fail (R381, R383, R384, R386) -/

/-- CHK_WIN passes without a check failure of a lastingly faulty stream (R386): the clock is brought forward to it. -/
def State.streamRecover (i : Fin 9) (s : State) : State :=
  let l := s.hub.link
  if !s.clocked || !l.faulty.get i then s else
  let s1 := s.advanceTo ((l.fails.get i).headD 0 + l.cfg.chkWin * etPerMs)
  s1.linkMap (fun l => { l with faulty := put1 l.faulty i false, fails := put1 l.fails i [] })

/-- STREAM_RECOVER (R386). -/
def execStreamRecover (stream : Stream) (s : State) : Host.Outcome State Fault Refusal :=
  .next (s.streamRecover (match stream with
    | .mailbox n => n.castSucc
    | .canBackup => 8))

/-- The CRC-32C of a frame's last four bytes covers the bytes before them (R382). -/
def crcOk (b : List Byte) : Bool := 4 ≤ b.length && crc32c (b.take (b.length - 4)) = w32 b (b.length - 4)

/-- A message is discarded (R383): its CRC, or on Ethernet its length, does not match (R373). -/
def State.discard (t : Transport) (b : List Byte) (udp : Nat) (s : State) : State :=
  let wrong := (t = .eth1 || t = .eth2) && udp ≠ u16 b 6
  if !s.serves t || (crcOk b && !wrong) then s
  else s.checkFail (if b.isEmpty then none else mbStream (byteAt b 0))

/-- DISCARDED_FRAME (R383). -/
def execDiscardedFrame (t : Transport) (bytes : List Byte) (udpLen : Nat) (s : State) : Host.Outcome State Fault Refusal :=
  .next (s.discard t bytes udpLen)

/-- The commands of a mailbox (R418, R422, R426, R433, R441, R446, R449, R451). -/
def known (mb cmd : Nat) : Bool :=
  match mb with
  | 0 => 1 ≤ cmd && cmd ≤ 4
  | 1 => cmd = 1
  | 2 => 1 ≤ cmd && cmd ≤ 7
  | 3 => [0x01, 0x02, 0x03, 0x04, 0x10, 0x11, 0x20, 0x21, 0x30, 0x40, 0x50, 0x51, 0x52, 0x60, 0x61, 0x62].contains cmd
  | 4 => [0x01, 0x02, 0x03, 0x10, 0x11, 0x12, 0x13, 0x20, 0x21, 0x22, 0x23, 0x30].contains cmd
  | 5 => 1 ≤ cmd && cmd ≤ 5
  | 6 => [0x01, 0x02, 0x03, 0x04, 0x05, 0x10, 0x11, 0x12].contains cmd
  | 7 => 1 ≤ cmd && cmd ≤ 4
  | _ => false

/-- A message of no known command (R373, R381, R384): BAD_MAILBOX before any alive check, or BAD_COMMAND. -/
def State.unknown (mb cmd : Nat) (m : Msg) (s : State) : State :=
  match fin? 8 mb with
  | none => if !s.serves m.t then s else if misfit m then s.checkFail none else s.wake.refuse mb cmd m.seq 0x10
  | some b =>
    if known mb cmd then s else
    let (s1, ok) := s.hear b cmd m
    if !ok then s1 else s1.refuse mb cmd m.seq ((s1.stageRefuses mb cmd).getD 0x11)

/-- UNKNOWN_COMMAND (R381). -/
def execUnknownCommand (mb : Byte) (cmd : BitVec 16) (m : Msg) (s : State) : Host.Outcome State Fault Refusal :=
  .next (s.unknown mb.toNat cmd.toNat m)

/-! ### Consumption and notifications (R397 to R401) -/

/-- The entries not yet notified meet a condition of R398. -/
def HostLink.wants (l : HostLink) (now : Nat) : Bool :=
  match l.cq.filter (fun e => !e.notified) with
  | [] => false
  | e :: es =>
    let w := e :: es
    (w.any (·.wake) || l.cq.length ≥ 192) ||
      (!l.asleep && (w.length ≥ l.cfg.modCnt || now ≥ e.at_ + l.cfg.modTime * etPerUs))

/-- A write of CQ_HEAD (R399, R400, R402). -/
def State.cqHead (v : BitVec 16) (s : State) : State :=
  let l := s.hub.link
  let n := (v - l.head).toNat
  if (l.tail - l.head).toNat < n then s else
  s.linkMap (fun l =>
    let l1 : HostLink := { l with head := v, cq := l.cq.drop n, dgAt := [] }
    { l1 with irq := l.irq && (l1.cq.any (·.held) || l1.wants s.now) })

/-- CQ_HEAD_WRITE (R400). -/
def execCqHeadWrite (v : BitVec 16) (s : State) : Host.Outcome State Fault Refusal :=
  .next (if s.serves .spi then s.cqHead v else s)

/-- The DATAGRAM notification sent longest ago that no CQ_HEAD write followed within 2 ms is repeated from CQ_HEAD, and is due again 2 ms on
(R399). -/
def execDatagramRepeat (s : State) : Host.Outcome State Fault Refusal :=
  match s.hub.link.dgAt with
  | [] => .next s
  | t :: _ => .next (if s.serves .eth1 then
      ((s.advanceTo (t + 2 * etPerMs)).linkMap (fun l => { l with dgAt := l.dgAt.tail })).datagram 0 else s)

/-! ### The SPI request buffer (R374) -/

/-- REQ_BUSY. -/
def State.reqBusy (s : State) : Bool := s.hub.link.busy.any (s.now < ·)

/-- An SPI write that comes while REQ_BUSY stands is lost. -/
def State.spiLost (s : State) : State := s.linkMap (fun l => { l with spiLost := sat 16 (l.spiLost + 1) })

/-- REQUEST_BUFFER_WRITE (R374). -/
def execRequestBufferWrite (ofs : Nat) (data : List Byte) (s : State) : Host.Outcome State Fault Refusal :=
  .next (if !s.serves .spi then s else if s.reqBusy then s.spiLost
    else s.linkMap (fun l => { l with buf := overlay l.buf (min ofs 1024) data }))

/-! ### The host window (R375, R376, R488, R495) -/

/-- The firmware image that runs: none in ROM and RECOVERY (R489). -/
def State.fwImg (s : State) : List Byte :=
  if s.hub.boot.stage = 0 || s.hub.boot.stage = 6 then [] else (s.hub.flash.fw.get (if s.hub.boot.slot then 1 else 0)).img

/-- The digest of an image of R425: every byte before the signature area. -/
def cfgDigest (b : List Byte) : List Byte := Config.sha512 (b.take (u32 b 8 - 96 * byteAt b 7))

/-- BOOT_STATE (R495). -/
def State.bootState (s : State) : Word :=
  let b := s.hub.boot
  put b.stage 4 28 ||| putB b.slot 27 ||| putB b.trial 26 ||| putB b.fwFall 25 ||| putB b.cfgFall 24 ||| putB b.cfgMis 23 |||
    putB s.hub.flash.owner.isSome 22 ||| putB s.hub.sec.jtag.isSome 21 ||| put (byteAt s.fwImg 6) 8 8 ||| put s.hub.flash.floor 8 0

/-- RESET_CAUSE (R488). -/
def State.resetCause (s : State) : Word :=
  put s.hub.boot.cause 8 24 ||| put s.hub.boot.prev 8 16 ||| put s.hub.boot.count.toNat 16 0

/-- The digest of the committed image; none when none is committed. -/
def State.cfgDig (s : State) : Option (List Byte) := s.hub.cfg.bytes.map cfgDigest

/-- CHK_STAT (R375). -/
def HostLink.chkStat (l : HostLink) : Word := put l.source 2 30 ||| putB (l.faulty.get 1) 29 ||| put l.chk 16 0

/-- CQ_STAT (R375). -/
def HostLink.cqStat (l : HostLink) : Word :=
  putB l.asleep 31 ||| putB l.irq 30 ||| put (l.tail - l.head).toNat 9 16 ||| put l.ovf 16 0

/-- MOD (R375). -/
def LinkCfgMod (c : LinkCfg) : Word := put c.modCnt 8 24 ||| put c.modTime 12 12 ||| put c.notify 2 0

/-- TM_STAT (R375): LOCK reads FREE in holdover (R468). -/
def PtpSt.stat (p : PtpSt) : Word := put (if p.hold then 0 else p.lock) 2 30 ||| putI p.ofs 30 0

/-- The word of the host window at an offset that is a multiple of 4 (R375). -/
def State.window (s : State) (o : Nat) : Word :=
  let l := s.hub.link
  let tag := ((s.cfgDig).getD []).take 8
  match o with
  | 0x000 => 0x2496#32
  | 0x004 => Config.hwRev
  | 0x008 => BitVec.ofNat 32 Config.serial
  | 0x00C => BitVec.ofNat 32 (Config.serial / 2 ^ 32)
  | 0x010 => w32 s.fwImg 12
  | 0x014 => w32 tag 0
  | 0x018 => w32 tag 4
  | 0x020 => s.bootState
  | 0x024 => s.resetCause
  | 0x028 => s.hub.frame
  | 0x030 => s.hub.ptp.mapF
  | 0x034 => BitVec.ofNat 32 s.hub.ptp.mapS
  | 0x038 => BitVec.ofNat 32 (s.hub.ptp.mapS / 2 ^ 32 % 2 ^ 16)
  | 0x03C => BitVec.ofNat 32 s.hub.ptp.mapNs
  | 0x040 => s.hub.ptp.stat
  | 0x084 => putB s.reqBusy 31 ||| put l.spiLost 16 0
  | 0x088 => l.head.zeroExtend 32
  | 0x08C => l.tail.zeroExtend 32
  | 0x090 => l.cqStat
  | 0x094 => LinkCfgMod l.cfg
  | 0x0A0 => l.chkStat
  | _ => 0#32

/-- A byte of the host window. -/
def State.windowByte (s : State) (o : Nat) : Byte := BitVec.ofNat 8 ((s.window (o / 4 * 4)).toNat >>> (8 * (o % 4)))

/-- A management frame's answer (R376): operation, offset, length, status, data. -/
def mgmtAnswer (op addr len status : Nat) (data : List Byte) : List Byte :=
  let b := le 1 (op + 128) ++ le 1 0 ++ le 2 addr ++ le 2 len ++ le 2 status ++ data
  b ++ leW (crc32c b)

/-- The answer leaves to the source of the frame. -/
def State.answer (port : Fin 2) (b : List Byte) (s : State) : State := s.linkMap (fun l => { l with sent := ⟨port.1, 0, 0, 0, b, s.portIp port.1⟩ :: l.sent })

/-- A management frame of an operation comes in (R376, R401): a check failure, nothing, or what it does. -/
def State.management (port : Fin 2) (op : Nat) (b : List Byte) (go : Nat → Nat → State → State) (s : State) : State :=
  let len := u16 b 4
  let fits := b.length = 12 + len || (op = 3 && b.length = 12)
  if !s.serves .eth1 then s
  else if !crcOk b || !fits then s.checkFail none
  else if byteAt b 0 ≠ op then s
  else
    let s1 := s.wake
    if len < 4 || 256 < len || len % 4 ≠ 0 then s1.answer port (mgmtAnswer op (u16 b 2) len 0x12 [])
    else go (u16 b 2) len s1

/-- MANAGEMENT_READ (R376). -/
def execManagementRead (port : Fin 2) (bytes : List Byte) (s : State) : Host.Outcome State Fault Refusal :=
  .next (s.management port 3 bytes (fun a n s => s.answer port (mgmtAnswer 3 a n 0 ((List.range n).map (fun i => s.windowByte (a + i))))))

/-- MANAGEMENT_WRITE (R376, R400): CQ_HEAD alone accepts a write. -/
def execManagementWrite (port : Fin 2) (bytes : List Byte) (s : State) : Host.Outcome State Fault Refusal :=
  .next (s.management port 2 bytes (fun a n s =>
    if a = 0x088 && n = 4 then (s.cqHead (BitVec.ofNat 16 (u16 bytes 8))).answer port (mgmtAnswer 2 a n 0 [])
    else s.answer port (mgmtAnswer 2 a n 0x13 [])))

end Sys2Proof.Machine
end

