-- ==== Sys2Proof/Machine/Registers.lean ====
section
/-! DEFINITION. The registers as Efrun and Ronro read and write them (R4, R17): the value of each, what a write does by the
access of its fields, what a read clears. -/

namespace Sys2Proof.Machine

open Sys2Proof

/-! ### Values -/

/-- The last commit of some cylinder was held, or was a default (R391). -/
def Half.heldLast (h : Half) : Bool :=
  (idxs 24).any (fun k => let c := h.cyls.get k; schCylValid c.cfg && c.lastSrc = 1)

/-- The last commit of some cylinder took its default setpoint (R391). -/
def Half.defaultLast (h : Half) : Bool :=
  (idxs 24).any (fun k => let c := h.cyls.get k; schCylValid c.cfg && c.lastSrc = 2)

/-- DEGR (R479): the highest level whose condition holds. -/
def State.degr (id : HalfId) (s : State) : Nat :=
  let h := s.half id
  if h.fg.latch then 5
  else if !h.trk.fires then 4
  else if h.trk.inLimp then 3
  else if !h.links.path || h.defaultLast || h.shed = 4 then 2
  else if h.tws.mode = 3 || h.links.role ≠ 0 || s.hub.link.source = 1 || h.heldLast || h.shed ≠ 0 || s.hub.ptp.hold ||
    h.acq.slices.toList.any (·.failed) then 1
  else 0

/-- LINK_STAT (R477). -/
def State.linkStat (id : HalfId) (s : State) : Word :=
  let l := (s.half id).links
  put l.role 2 30 ||| putB l.path 29 ||| putB ((s.half id).on && s.primary = id) 28 ||| putB l.rejoin 27 ||| put (s.degr id) 3 24 ||| put l.splits 16 0

/-- OUT_STAT (R222). -/
def Chan.stat (c : Chan) : Word :=
  putB c.rb 31 ||| putB c.level 30 ||| putB c.limit 29 ||| putB c.shortHi 28 ||| putB c.shortLo 27 ||| putB c.mismatch 26 ||| put c.edges 16 0

/-- DRV_STAT (R224). -/
def Pair.stat (p : Pair) : Word :=
  put p.phase 3 29 ||| put p.prof 5 24 ||| putB p.hiLat 23 ||| putB p.loLat 22 ||| putB p.maxLat 21 ||| putB p.hiLive 20 |||
    putB p.loLive 19 ||| put p.fault 3 16 ||| put p.tBoost 16 0

/-- POOL_STAT (R195). -/
def Bank.poolStat (b : Bank) : Word := put b.held 10 22 ||| put b.peak 10 12 ||| put b.refused 12 0

/-- HOP_STAT (R196); `occ` counts the entries in use. -/
def Bank.hopStat (occ : Nat) (b : Bank) : Word := put occ 5 27 ||| put b.hiwat 5 22 ||| put b.waited 10 12 ||| put b.hopLate 12 0

/-- SCH_CYL (R193). -/
def CylSt.reg (c : CylSt) : Word := (c.cfg &&& schCylRw) ||| put c.count.toNat 8 9 ||| putB c.committed 8

/-- RES_STAT (R261). U_MEAS beyond its sixteen bits reads as the nearest end (log 10). -/
def State.resStat (r : Fin 8) (s : State) : Word :=
  let x := s.hub.res.get r
  let claims := bothHalves.foldl (fun n id => n + (s.half id).led.claims.countP (fun c => c.res = r.1)) 0
  let skips := bothHalves.foldl (fun n id => n + ((s.half id).led.res.get r).skips) 0
  let start := bothHalves.any (fun id => ((s.half id).led.res.get r).start ≠ 0)
  putI (satI 16 (roundFreeQ 41 (x.u * 10000))) 16 16 ||| putB x.below 15 ||| putB x.frozen 14 ||| putB start 13 |||
    put (min claims 24) 5 8 ||| put (sat 8 skips) 8 0

/-- PWR_STAT (R266); SS_OFF stands from level 4 until each supply it switched off has restarted. -/
def Pwr.stat (p : Pwr) : Word :=
  put (sat 10 p.vIn) 10 22 ||| put (sat 10 p.pIn) 10 12 ||| put p.shed 3 9 |||
    putB ((idxs 24).any (fun n => p.off4.get n)) 8

/-- CL_STAT (R341). -/
def ClSt.stat (c : ClSt) : Word :=
  putI (satI 16 (roundFreeQ 42 (c.delta * 1000 / 65536))) 16 16 ||| put c.src 8 8 ||| putB c.limit 7 ||| putB c.hold 6 ||| putB c.frozen 5

/-- CORR_STAT (R342). -/
def CorrSt.stat (c : CorrSt) : Word := put c.verdict 2 30 ||| put c.seen 5 25 ||| put c.votes 6 19 ||| put c.counted 6 13

/-- A counting place: a half's steward, or the hub. -/
def State.faults (p : Option HalfId) (s : State) : Faults :=
  match p with
  | some id => (s.half id).flt
  | none => s.hub.flt

/-- FRAME at a counting place. -/
def State.frameAt (p : Option HalfId) (s : State) : Word :=
  match p with
  | some id => (s.half id).frame
  | none => s.hub.frame

/-- A word of a slot as it is in force (R159). -/
def Slot.word (x : Slot) (w : Nat) : Word :=
  match w with
  | 0 => x.c.w0
  | 1 => x.c.w1
  | 2 => x.c.w2
  | 3 => x.c.w3
  | 4 => x.c.w4
  | 5 => x.w5
  | 6 => x.edgeTs
  | _ => x.w7

/-- The value of a register (R4). -/
def State.reg (s : State) : Reg → Word
  | .wrxCfg0 h i => ((s.half h).rcvOf i).cfg0
  | .wrxCfg1 h i => ((s.half h).rcvOf i).cfg1
  | .wrxEdgeTs h i => ((s.half h).rcvOf i).ts
  | .wrxEdgeSt h i => ((s.half h).rcvOf i).edgeSt
  | .wrxPeak h i => ((s.half h).rcvOf i).peakReg
  | .wrxDiag h i => (s.half h).wrxDiag i
  | .trkCfg0 h => (s.half h).trk.cfg0
  | .trkCfg1 h => (s.half h).trk.cfg1
  | .trkStat h => (s.half h).trkStat
  | .trkAngle h => (s.half h).trkAngle
  | .trkSpeed h => BitVec.ofNat 32 (s.half h).speed
  | .trkInc h => BitVec.ofNat 32 (s.half h).trk.src.inc
  | .twsCfg0 h => (s.half h).tws.cfg0
  | .twsStat h => (s.half h).twsStat
  | .twsTauA h => BitVec.ofInt 32 (roundFreeQ 43 (s.half h).tws.tauA)
  | .twsTauM h => BitVec.ofInt 32 (s.half h).tws.tauM
  | .twsTauS h => BitVec.ofInt 32 (s.half h).tws.tauS
  | .twsW h k => ((s.half h).tws.cyl.get k).w
  | .twsS h k => ((s.half h).tws.cyl.get k).s
  | .twsTdc h k => ((s.half h).tws.cyl.get k).tdc
  | .slotWord h k w => ((s.half h).slots.get k).word w.1
  | .schCfg h => (s.half h).schCfg
  | .schCh h m => ((s.half h).chans.get m).sch
  | .schCyl h k => ((s.half h).cyls.get k).reg
  | .poolCfg h b => ((s.half h).banks.get b).pool
  | .poolStat h b => ((s.half h).banks.get b).poolStat
  | .hopStat h b => ((s.half h).banks.get b).hopStat ((s.half h).occ b.1)
  | .outCfg h m => ((s.half h).chans.get m).out
  | .outStat h m => ((s.half h).chans.get m).stat
  | .drvPair h p => ((s.half h).pairs.get p).pair
  | .drvStat h p => ((s.half h).pairs.get p).stat
  | .profile h i w => ((s.half h).profs.get i).get w
  | .fgStat h => s.fgStat h
  | .fgCfg => s.hub.fg.cfg
  | .osCfg h => (s.half h).fg.osCfg
  | .resCfg0 r => (s.a.led.res.get r).c0
  | .resCfg1 r => (s.a.led.res.get r).c1
  | .resCfg2 r => (s.a.led.res.get r).c2
  | .resStat r => s.resStat r
  | .resMap h p => (s.half h).led.map.get p
  | .resCost0 h i => (s.half h).led.cost0.get i
  | .pwrCfg => s.hub.pwr.cfg
  | .pwrStat => s.hub.pwr.stat
  | .ainCfg h i => (s.half h).acq.ain.get i
  | .last h i => (s.half h).lastWord i
  | .seqCfg h q => ((s.half h).acq.seqs.get q).cfg
  | .trgCfg0 h t => ((s.half h).acq.lines.get t).cfg0
  | .trgCfg1 h t => ((s.half h).acq.lines.get t).cfg1
  | .aclkCfg h => (s.half h).acq.aclk
  | .acqTmr h n => (s.half h).acq.tmr.get n
  | .xcCfg h g => ((s.half h).acq.xc.get g).cfg
  | .xcTs h g => ((s.half h).acq.xc.get g).ts
  | .xcSt h g => ((s.half h).acq.xc.get g).stat
  | .refStat h => (s.half h).acq.refStat
  | .calCfg h => (s.half h).acq.calCfg
  | .calStat h => (s.half h).acq.calStat
  | .calFail h => (s.half h).acq.calFail
  | .tdacCfg h => (s.half h).acq.tdac.cfg
  | .tdacRes h => (s.half h).acq.tdac.res
  | .acqStat h => (s.half h).acq.stat
  | .anaCfg h j n => ((s.half h).ana.lanes.get j).cfg.get n
  | .anaScale h j => ((s.half h).ana.lanes.get j).scale
  | .anaPscale h j => ((s.half h).ana.lanes.get j).pscale
  | .anaStat h j => ((s.half h).ana.lanes.get j).stat
  | .trcCfg h => (s.half h).ana.trc
  | .clCfg0 k => (s.hub.cl.get k).cfg0
  | .clCfg1 k => (s.hub.cl.get k).cfg1
  | .clStat k => (s.hub.cl.get k).stat
  | .corrCfg => s.hub.corr
  | .corrStat j => (s.hub.corrs.get j).stat
  | .sleCfg0 h e => ((s.half h).eng e).cfg0
  | .sleCfg1 h e => ((s.half h).eng e).cfg1
  | .sleCfg2 h e => ((s.half h).eng e).cfg2
  | .sleClk h e => ((s.half h).eng e).clk
  | .sleTlim h e => ((s.half h).eng e).tlim
  | .sleStat h e => ((s.half h).eng e).stat
  | .slgCtl h g => putB ((s.half h).slg g).align 19
  | .slgStat h g => ((s.half h).slg g).stat
  | .slpCfg h n => ((s.half h).slu.pins.get n).cfg
  | .fltCfg p c => (s.faults p).cfg.get c
  | .fltStat p c => (s.faults p).stat c
  | .fltLoc p c => ((s.faults p).cnt.get c).loc
  | .splitCfg h => (s.half h).links.split
  | .linkStat h => s.linkStat h
  | .resetCause => s.resetCause
  | .bootState => s.bootState
  | .pinElec h => (s.half h).pinElec

/-! ### Writes (R17) -/

/-- Change one half, nothing of it handed over. -/
def State.halfMap (id : HalfId) (f : Half → Half) (s : State) : State := s.setHalf (f (s.half id)) id

/-- Change one slot's word of content: the RW bits of R159; the RO words stay. -/
def SlotC.setWord (c : SlotC) (w : Nat) (v : Word) : SlotC :=
  match w with
  | 0 => { c with w0 := v }
  | 1 => { c with w1 := v &&& 0xFFFFFFF8#32 }
  | 2 => { c with w2 := v }
  | 3 => { c with w3 := v &&& 0xFFFFFFDF#32 }
  | 4 => { c with w4 := v &&& 0xFF000000#32 }
  | _ => c

/-- Content is frozen from its commit until it has fired or been withdrawn: FROZEN, LOADED, DUE (R43). -/
def Slot.frozen (s : Slot) : Bool := 2 ≤ s.st && s.st ≤ 4

/-- A write of a slot's word; a frozen slot accepts none (R43, R159). -/
def Slot.setWord (w : Nat) (v : Word) (s : Slot) : Slot := if s.frozen then s else { s with c := s.c.setWord w v }

/-- The bits of a profile's word that are RW (R217). -/
def profRw (w : Nat) : Word := if w = 0 then profHdrRw else if 13 ≤ w then 0 else if w % 2 = 1 then phARw else phBRw

/-- The bits of ANA_CFG n that are RW. -/
def anaRw (n : Nat) : Word :=
  match n with
  | 0 => anaCfg0Rw
  | 1 => anaCfg1Rw
  | 2 => anaCfg2Rw
  | 3 => anaCfg3Rw
  | 4 => anaCfg4Rw
  | _ => anaCfg5Rw

/-- The RES_CFG registers stand in both halves, one copy (R257). -/
def State.resMap (r : Fin 8) (f : ResSt → ResSt) (s : State) : State :=
  { s with a := s.a.resMap r f, b := s.b.resMap r f }

/-- Change the counting place. -/
def State.faultsMap (p : Option HalfId) (f : Faults → Faults) (s : State) : State :=
  match p with
  | some id => s.halfMap id (fun h => { h with flt := f h.flt })
  | none => s.hubMap (fun u => { u with flt := f u.flt })

/-- Change a calibration line of the closed loop. -/
def State.clMap (k : Fin 24) (f : ClSt → ClSt) (s : State) : State := s.hubMap (fun u => { u with cl := upd u.cl k f })

/-- A register takes the RW bits of a value (R17); a register without RW bits stays as it is. -/
def State.putReg (r : Reg) (v : Word) (s : State) : State :=
  match r with
  | .wrxCfg0 h i => s.halfMap h (Half.rcvMap i (fun x => { x with cfg0 := v }))
  | .wrxCfg1 h i => s.halfMap h (Half.rcvMap i (fun x => { x with cfg1 := writeRw x.cfg1 v wrxCfg1Rw }))
  | .trkCfg0 h => s.halfMap h (Half.trkMap (fun x => { x with cfg0 := writeRw x.cfg0 v trkCfg0Rw }))
  | .trkCfg1 h => s.halfMap h (Half.trkMap (fun x => { x with cfg1 := writeRw x.cfg1 v trkCfg1Rw }))
  | .twsCfg0 h => s.halfMap h (Half.twsMap (fun x => { x with cfg0 := writeRw x.cfg0 v twsCfg0Rw }))
  | .twsW h k => s.halfMap h (Half.twsMap (fun x => { x with cyl := upd x.cyl k (fun c => { c with w := writeRw c.w v twsWRw }) }))
  | .twsS h k => s.halfMap h (Half.twsMap (fun x => { x with cyl := upd x.cyl k (fun c => { c with s := v }) }))
  | .twsTdc h k => s.halfMap h (Half.twsMap (fun x => { x with cyl := upd x.cyl k (fun c => { c with tdc := v }) }))
  | .slotWord h k w => s.halfMap h (Half.slotMap k (Slot.setWord w.1 v))
  | .schCfg h => s.halfMap h (fun x => { x with schCfg := writeRw x.schCfg v schCfgRw })
  | .schCh h m => s.halfMap h (Half.chanMap m (fun c => { c with sch := writeRw c.sch v schChRw }))
  | .schCyl h k => s.halfMap h (Half.cylMap k (fun c => { c with cfg := writeRw c.cfg v schCylRw }))
  | .poolCfg h b => s.halfMap h (fun x => { x with banks := upd x.banks b (fun c => { c with pool := writeRw c.pool v poolCfgRw }) })
  | .outCfg h m => s.halfMap h (Half.chanMap m (fun c => { c with out := writeRw c.out v outCfgRw }))
  | .drvPair h p => s.halfMap h (Half.pairMap p (fun c => { c with pair := writeRw c.pair v drvPairRw }))
  | .profile h i w => s.halfMap h (fun x => { x with profs := upd x.profs i (fun p => put1 p w (v &&& profRw w.1)) })
  | .fgCfg => s.fgMap (fun f => { f with cfg := writeRw f.cfg v fgCfgRw })
  | .osCfg h => s.halfMap h (fun x => { x with fg := { x.fg with osCfg := writeRw x.fg.osCfg v osCfgRw } })
  | .resCfg0 r => s.resMap r (fun x => { x with c0 := v })
  | .resCfg1 r => s.resMap r (fun x => { x with c1 := v })
  | .resCfg2 r => s.resMap r (fun x => { x with c2 := writeRw x.c2 v resCfg2Rw })
  | .resMap h p => s.halfMap h (fun x => { x with led := { x.led with map := upd x.led.map p (fun o => writeRw o v resMapRw) } })
  | .resCost0 h i => s.halfMap h (fun x => { x with led := { x.led with cost0 := upd x.led.cost0 i (fun o => writeRw o v resCost0Rw) } })
  | .pwrCfg => s.pwrMap (fun p => { p with cfg := v })
  | .ainCfg h i => s.halfMap h (Half.acqMap (fun a => { a with ain := upd a.ain i (fun o => writeRw o v ainCfgRw) }))
  | .seqCfg h q => s.halfMap h (Half.seqMap q (fun x => { x with cfg := writeRw x.cfg v seqCfgRw }))
  | .trgCfg0 h t => s.halfMap h (Half.acqMap (fun a => { a with lines := upd a.lines t (fun l => { l with cfg0 := writeRw l.cfg0 v trgCfg0Rw }) }))
  | .trgCfg1 h t => s.halfMap h (Half.acqMap (fun a => { a with lines := upd a.lines t (fun l => { l with cfg1 := writeRw l.cfg1 v trgCfg1Rw }) }))
  | .aclkCfg h => s.halfMap h (Half.acqMap (fun a => { a with aclk := writeRw a.aclk v aclkCfgRw }))
  | .acqTmr h n => s.halfMap h (fun x => x.acqMap (fun a => { a with
      tmr := upd a.tmr n (fun o => writeRw o v acqTmrRw), tmrAt := put1 a.tmrAt n (x.now + acqTmrPeriod v) }))
  | .xcCfg h g => s.halfMap h (Half.acqMap (fun a => { a with xc := upd a.xc g (fun x => { x with cfg := writeRw x.cfg v xcCfgRw }) }))
  | .calCfg h => s.halfMap h (Half.acqMap (fun a => { a with calCfg := writeRw a.calCfg v calCfgRw }))
  | .tdacCfg h => s.halfMap h (Half.acqMap (fun a => { a with tdac := { a.tdac with cfg := writeRw a.tdac.cfg v (tdacCfgRw &&& ~~~(putB true 31)) } }))
  | .anaCfg h j n => s.halfMap h (Half.laneMap j (fun l => { l with cfg := upd l.cfg n (fun o => writeRw o v (anaRw n.1)) }))
  | .anaScale h j => s.halfMap h (Half.laneMap j (fun l => { l with scale := v }))
  | .anaPscale h j => s.halfMap h (Half.laneMap j (fun l => { l with pscale := v }))
  | .trcCfg h => s.halfMap h (fun x => { x with ana := { x.ana with trc := writeRw x.ana.trc v trcCfgRw } })
  | .clCfg0 k => s.clMap k (fun c => { c with cfg0 := writeRw c.cfg0 v clCfg0Rw })
  | .clCfg1 k => s.clMap k (fun c => { c with cfg1 := writeRw c.cfg1 v clCfg1Rw })
  | .corrCfg => s.hubMap (fun u => { u with corr := writeRw u.corr v corrCfgRw })
  | .sleCfg0 h e => s.halfMap h (Half.sleMap e (fun x => { x with cfg0 := writeRw x.cfg0 v sleCfg0Rw }))
  | .sleCfg1 h e => s.halfMap h (Half.sleMap e (fun x => { x with cfg1 := v }))
  | .sleCfg2 h e => s.halfMap h (Half.sleMap e (fun x => { x with cfg2 := writeRw x.cfg2 v sleCfg2Rw }))
  | .sleClk h e => s.halfMap h (Half.sleMap e (fun x => { x with clk := writeRw x.clk v sleClkRw }))
  | .sleTlim h e => s.halfMap h (Half.sleMap e (fun x => { x with tlim := v }))
  | .slpCfg h n => s.halfMap h (fun x => { x with slu := { x.slu with pins := upd x.slu.pins n (fun p => { p with cfg := writeRw p.cfg v slpCfgRw }) } })
  | .fltCfg p c => s.faultsMap p (fun f => { f with cfg := upd f.cfg c (fun o => writeRw o v fltCfgRw) })
  | .splitCfg h => s.halfMap h (fun x => { x with links := { x.links with split := writeRw x.links.split v splitCfgRw } })
  | .pinElec h => s.halfMap h (fun x => { x with pinElec := writeRw x.pinElec v pinElecRw })
  | .wrxEdgeTs .. | .wrxEdgeSt .. | .wrxPeak .. | .wrxDiag .. | .trkStat _ | .trkAngle _ | .trkSpeed _ | .trkInc _ | .twsStat _
  | .twsTauA _ | .twsTauM _ | .twsTauS _ | .poolStat .. | .hopStat .. | .outStat .. | .drvStat .. | .fgStat _ | .resStat _
  | .pwrStat | .last .. | .xcTs .. | .xcSt .. | .refStat _ | .calStat _ | .calFail _ | .tdacRes _ | .acqStat _ | .anaStat ..
  | .clStat _ | .corrStat _ | .sleStat .. | .slgCtl .. | .slgStat .. | .fltStat .. | .fltLoc .. | .linkStat _ | .resetCause
  | .bootState => s

/-- The place that holds a register: a half, or the hub. -/
def regHalf : Reg → Option HalfId
  | .wrxCfg0 h _ | .wrxCfg1 h _ | .wrxEdgeTs h _ | .wrxEdgeSt h _ | .wrxPeak h _ | .wrxDiag h _ | .trkCfg0 h | .trkCfg1 h
  | .trkStat h | .trkAngle h | .trkSpeed h | .trkInc h | .twsCfg0 h | .twsStat h | .twsTauA h | .twsTauM h | .twsTauS h
  | .twsW h _ | .twsS h _ | .twsTdc h _ | .slotWord h _ _ | .schCfg h | .schCh h _ | .schCyl h _ | .poolCfg h _ | .poolStat h _
  | .hopStat h _ | .outCfg h _ | .outStat h _ | .drvPair h _ | .drvStat h _ | .profile h _ _ | .fgStat h | .osCfg h
  | .resMap h _ | .resCost0 h _ | .ainCfg h _ | .last h _ | .seqCfg h _ | .trgCfg0 h _ | .trgCfg1 h _ | .aclkCfg h | .acqTmr h _
  | .xcCfg h _ | .xcTs h _ | .xcSt h _ | .refStat h | .calCfg h | .calStat h | .calFail h | .tdacCfg h | .tdacRes h | .acqStat h
  | .anaCfg h _ _ | .anaScale h _ | .anaPscale h _ | .anaStat h _ | .trcCfg h | .sleCfg0 h _ | .sleCfg1 h _ | .sleCfg2 h _
  | .sleClk h _ | .sleTlim h _ | .sleStat h _ | .slgCtl h _ | .slgStat h _ | .slpCfg h _ | .splitCfg h | .linkStat h | .pinElec h => some h
  | .fltCfg p _ | .fltStat p _ | .fltLoc p _ => p
  | .fgCfg | .resCfg0 _ | .resCfg1 _ | .resCfg2 _ | .resStat _ | .pwrCfg | .pwrStat | .clCfg0 _ | .clCfg1 _ | .clStat _ | .corrCfg
  | .corrStat _ | .resetCause | .bootState => none

/-- The place works: its half is on, or the hub runs. -/
def State.placeOn (r : Reg) (s : State) : Bool :=
  match regHalf r with
  | some h => s.live h
  | none => s.hubOn

/-- A write by firmware (R17): RW bits are stored, RW1C bits written as 1 clear, SLG_CTL acts (R369), GO starts the test DAC
(R307), and EN of a receiver written as 1 waits for RECEIVER_ENABLE, which knows the level at the input (R69). -/
def State.writeReg (r : Reg) (v : Word) (s : State) : State :=
  match r with
  | .wrxCfg0 h i => s.onHalf h (fun x =>
      ({ x with cfg := { x.cfg with ens := x.cfg.ens.filter (· ≠ i) ++ (if wrxCfg0En v then [i] else []) } } : Half).rcvMap i
        (fun r => { r with cfg0 := v &&& (r.cfg0 ||| ~~~(putB true 31)) }))
  | .wrxEdgeSt h i => s.onHalf h (fun x => x.rcvMap i (fun r =>
      let r1 : Rcv := { r with ovr := r.ovr && !v.getLsbD 30 }
      if v.getLsbD 31 then r1.clearValid x.now else r1))
  | .trkStat h => s.onHalf h (Half.trkMap (fun x => { x with accelImpl := x.accelImpl && !v.getLsbD 19 }))
  | .twsStat h => s.onHalf h (Half.twsMap (fun x => { x with twRange := x.twRange && !v.getLsbD 25, fbSeen := x.fbSeen && !v.getLsbD 24 }))
  | .outStat h m => s.onHalf h (Half.chanMap m (fun c => { c with
      shortHi := c.shortHi && !v.getLsbD 28, shortLo := c.shortLo && !v.getLsbD 27, mismatch := c.mismatch && !v.getLsbD 26 }))
  | .drvStat h p => s.onHalf h (Half.pairMap p (fun c => { c with
      hiLat := c.hiLat && !v.getLsbD 23, loLat := c.loLat && !v.getLsbD 22, maxLat := c.maxLat && !v.getLsbD 21 }))
  | .sleStat h e => s.onHalf h (Half.sleMap e (Sle.statW1c v))
  | .fltStat p c => s.faultsMap p (fun f => { f with cnt := upd f.cnt c (fun x => { x with seen := x.seen && !v.getLsbD 24 }) })
  | .slgCtl h g => s.onHalf h (Half.slgCtl g v (0, false))
  | .tdacCfg h =>
    let s1 := s.putReg r v
    if tdacCfgTest v = 3 || 47 < tdacCfgInput v then s
    else if v.getLsbD 31 && !(s.half h).acq.tdac.busy then s1.onHalf h (fun x => (x.tdacStart (tdacCfgTest v) (tdacCfgInput v) (tdacCfgCode v) none).1)
    else if !v.getLsbD 31 && (s.half h).acq.tdac.busy then s.onHalf h Half.tdacStop
    else if (s.half h).acq.tdac.busy then s else s1
  | .outCfg h _ => (s.putReg r v).onHalf h Half.settle
  | _ => s.putReg r v

/-- REGISTER_WRITE (R4). -/
def execRegisterWrite (r : Reg) (v : Word) (s : State) : Host.Outcome State Fault Refusal :=
  .next (if s.placeOn r then s.writeReg r v else s)

/-! ### Reads -/

/-- What a read clears (R17): the RC fields of a register. -/
def State.clearRc (r : Reg) (s : State) : State :=
  match r with
  | .wrxEdgeSt h i => s.halfMap h (Half.rcvMap i (fun x => { x with noise := 0 }))
  | .poolStat h b => s.halfMap h (fun x => { x with banks := upd x.banks b (fun c => { c with peak := 0, refused := 0 }) })
  | .hopStat h b => s.halfMap h (fun x => { x with banks := upd x.banks b (fun c => { c with hiwat := 0, waited := 0, hopLate := 0 }) })
  | .outStat h m => s.halfMap h (Half.chanMap m (fun c => { c with edges := 0 }))
  | .resStat r => s.resMap r (fun x => { x with skips := 0 })
  | .xcSt h g => s.halfMap h (Half.acqMap (fun a => { a with xc := upd a.xc g (fun x => { x with cnt := 0 }) }))
  | .calStat h => s.halfMap h (Half.acqMap (fun a => { a with lateCnt := 0 }))
  | .acqStat h => s.halfMap h (Half.acqMap (fun a => { a with ovr := 0, late := 0 }))
  | .anaStat h j => s.halfMap h (Half.laneMap j (fun l => { l with misf := 0, knock := 0 }))
  | _ => s

/-- REGISTER_READ (R73). -/
def execRegisterRead (r : Reg) (s : State) : Host.Outcome State Fault Refusal := .next (if s.placeOn r then s.clearRc r else s)

end Sys2Proof.Machine
end

