-- ==== Sys2Proof/Machine/Configure.lean ====
section
/-! DEFINITION. Applying a configuration image (R15 to R429): registers at their defaults or as the image sets them, slots
released and allocated anew (R162 to R165), engines halted, histories afresh. -/

namespace Sys2Proof.Machine

open Sys2Proof

/-! ### Wheels -/

/-- The pitches between expected edges of a wheel (R88, R90). -/
def Wheel.spans (w : Wheel) : List Rat :=
  ((List.range w.teeth).filter (fun p => !w.missing p)).flatMap (fun p =>
    (w.next false p false).span :: (if (w.markAt p).isSome then [(w.next false p true).span] else []))

/-- The longest of them in degrees. -/
def Wheel.longest (w : Wheel) : Rat := if w.present then (w.spans.foldl max 0) * 360 / (max 1 w.teeth : Nat) else 0

/-- STOP_TIME in et (R105): 1.8 times the longest interval of any crank wheel at 4.5 rpm, 27 degrees a second. -/
def HalfImg.stopTime (i : HalfImg) : Nat := (roundFreeQ 44 (max i.ckd.longest i.ckf.longest * 9 / 5 / 27 * etPerSec)).toNat

/-! ### Slots (R162 to R165) -/

/-- The channel's owner makes it a drive-mode channel (R199). -/
def Half.isDrive (h : Half) (m : Fin 48) : Bool := outCfgSrc (h.chans.get m).out = 2

/-- The reserved slots that serve a channel: its four, and the odd channel's four for a pair (R21, R162). -/
def Half.reserved (h : Half) (m : Fin 48) : List (Fin 1024) :=
  (List.range (if h.isDrive m then 8 else 4)).filterMap (fun i => fin? 1024 (4 * m.1 + i))

/-- Pool slots that are FREE (R164). -/
def Half.poolFree (h : Half) : Nat := (idxs 1024).countP (fun k => 0x0C0 ≤ k.1 && (h.slots.get k).st = 0)

/-- The unmet floors of the banks beside one (R164). -/
def Half.unmet (h : Half) (b : Nat) : Nat :=
  ((idxs 4).filter (fun o => o.1 ≠ b)).foldl (fun n o => n + (poolCfgFloor (h.banks.get o).pool - (h.banks.get o).held)) 0

/-- The reason a pool slot is refused to a bank (R164); none when it is granted. -/
def Half.poolRefusal (h : Half) (b : Fin 4) : Option Nat :=
  let n := h.poolFree
  if poolCfgCap (h.banks.get b).pool ≤ (h.banks.get b).held then some 0x0120
  else if n = 0 then some 0x0121
  else if n < h.unmet b.1 + 1 then some 0x0122
  else none

/-- The bank of a channel. -/
def bankOf (m : Fin 48) : Fin 4 := ⟨m.1 / 12, by omega⟩

/-- A pool slot for a channel (R162), charged to the channel's bank; or the reason of R164. -/
def Half.grantPool (m : Fin 48) (x : Holder) (h : Half) : Half × Sum Nat (Fin 1024) :=
  let b := bankOf m
  match h.poolRefusal b, (idxs 1024).find? (fun k => 0x0C0 ≤ k.1 && (h.slots.get k).st = 0) with
  | some r, _ => (h, .inl r)
  | none, some k =>
    let h1 : Half := { h with banks := upd h.banks b (fun c => { c with held := c.held + 1, peak := max c.peak (c.held + 1) }) }
    (h1.slotMap k (fun s => { s with st := 1, holder := x }), .inr k)
  | none, none => (h, .inl 0x0121)

/-- A slot for a channel (R162, R163): the lowest EMPTY reserved slot that nobody holds, else one from the pool. -/
def Half.grant (m : Fin 48) (x : Holder) (h : Half) : Half × Sum Nat (Fin 1024) :=
  match (h.reserved m).find? (fun k => (h.slots.get k).st = 1 && (h.slots.get k).holder = .nobody) with
  | some k => (h.slotMap k (fun s => { s with holder := x }), .inr k)
  | none => h.grantPool m x

/-- The slots of Basic events, reserved ones first, and of the acquisition configuration, from the pool (R162): the half after it, and the
first refusal. -/
def Half.allocate (cyls : List CylCfg) (trig : List SlotC) (h : Half) : Half × Option Nat :=
  let basic := cyls.flatMap (fun c => (c.evts.filter (fun e => e.half = h.id)).map (fun e => (e.ch, Holder.basic c.cyl e.evt e.ch, (none : Option SlotC))))
  let acq := trig.map (fun c => (c.chan.1, Holder.acq c.chan.1, some c))
  (basic ++ acq).foldl (fun (st : Half × Option Nat) (x : Nat × Holder × Option SlotC) =>
    match st.2, fin? 48 x.1 with
    | none, some m =>
      let (h1, r) := if x.2.2.isSome then st.1.grantPool m x.2.1 else st.1.grant m x.2.1
      match r with
      | .inl c => (h1, some c)
      | .inr k => (match x.2.2 with | some c => h1.slotMap k (fun s => { s with base := c }) | none => h1, none)
    | _, _ => st) (h, none)

/-! ### A half -/

/-- What is ACTIVE ends as aborted before the slots are released (log 23). -/
def Half.endActive (h : Half) : Half :=
  eachIdx 48 (fun m h => if (h.chans.get m).setBy.isSome then (h.chanMap m (fun c => { c with setBy := none })).settle1 m else h)
    (eachIdx 1024 (fun k h =>
      let s := h.slots.get k
      if s.st ≠ 5 then h else if s.c.action = 3 then (h.dropDeferred k 12).endPulse k 11 else (h.dropDeferred k 12).abortDrive k) h)

/-- An engine at a commit before its new registers (R358): queues and buffers empty, configuration at its defaults; a
RUNNING one halts (R360). -/
def Half.slCommit (e : Fin 8) (h : Half) : Half :=
  (if (h.eng e).st = 2 then h.slHalt e else h).sleMap e (fun x => { x with
    cfg0 := sleCfg0Reset, cfg1 := sleCfg1Reset, cfg2 := sleCfg2Reset, clk := sleClkReset, tlim := 0#32, tx := [], rx := [], txb := [], rxb := [] })

/-- Every configuration register of a half at its default, and what a commit ends (R429). -/
def Half.deconfig (h0 : Half) : Half :=
  let h : Half := (eachIdx 8 Half.slCommit h0.endActive).tdacEnd 5 0
  { h with
    cfg := HalfCfg.reset
    rcv := h.rcv.map (fun r => { r with cfg0 := wrxCfg0Reset, cfg1 := wrxCfg1Reset })
    trk := { h.trk with cfg0 := trkCfg0Reset, cfg1 := trkCfg1Reset }
    tws := { h.tws with cfg0 := twsCfg0Reset, cyl := Tws.reset.cyl }
    schCfg := schCfgReset
    slots := slotsReset
    cyls := Vector.replicate 24 CylSt.reset
    banks := h.banks.map (fun b => { b with pool := poolCfgReset, held := 0 })
    chans := h.chans.map (fun c => { c with sch := schChReset, out := outCfgReset, setBy := none, blocked := false, claim := none,
                                            pulses := [], slLvl := false })
    pairs := h.pairs.map (fun p => { p with pair := drvPairReset })
    profs := Vector.replicate 32 (Vector.replicate 16 0#32)
    profNew := Vector.replicate 32 none
    fg := { h.fg with osCfg := osCfgReset }
    links := { h.links with split := splitCfgReset }
    pinElec := pinElecReset
    led := { Led.reset with vIn := h.led.vIn, vIns := h.led.vIns, res := h.led.res.map (fun r => { ResSt.reset with frozen := r.frozen, skips := r.skips }) }
    acq := { h.acq with
      ain := Vector.replicate 48 ainCfgReset
      seqs := h.acq.seqs.map (fun s => { s with cfg := seqCfgReset, mask := none })
      lines := h.acq.lines.map (fun l => { l with cfg0 := trgCfg0Reset, cfg1 := trgCfg1Reset })
      aclk := aclkCfgReset, aclkNew := none, tmr := Vector.replicate 4 acqTmrReset, tmrNew := Vector.replicate 4 none
      xc := h.acq.xc.map (fun x => { x with cfg := xcCfgReset }), calCfg := calCfgReset
      grps := h.acq.grps.map (fun g => { g with asked := [], mine := none, wait := g.wait.map (fun x => (x.1, x.2.1, none)) }) }
    ana := ⟨h.ana.lanes.map (fun l => { Lane.reset with misf := l.misf, knock := l.knock }), trcCfgReset⟩
    slu := { h.slu with
      grp := h.slu.grp.map (fun g => { g with ctl := [], swap := none, align := false })
      pins := h.slu.pins.map (fun p => { p with cfg := slpCfgReset, lvl := false, dir := false, claim := none }), libs := [], auto := true } }

/-- The image's part of a half. Wheel descriptions, phase inputs and the static twist table are the same in both (R85, R141): those the
body has for half A (log 106). -/
def Image.ofHalf (im : Image) : HalfId → HalfImg
  | .A => im.a
  | .B => { im.b with ckd := im.a.ckd, ckf := im.a.ckf, cma := im.a.cma, cmb := im.a.cmb, table := im.a.table }

/-- The registers that take a value the image gives one: receiver, tracker, twist and overspeed configuration are the same in both halves
(R54, R85, R141, R231). -/
def regTwins : Reg → List Reg
  | .wrxCfg0 _ i => [.wrxCfg0 .A i, .wrxCfg0 .B i]
  | .wrxCfg1 _ i => [.wrxCfg1 .A i, .wrxCfg1 .B i]
  | .trkCfg0 _ => [.trkCfg0 .A, .trkCfg0 .B]
  | .trkCfg1 _ => [.trkCfg1 .A, .trkCfg1 .B]
  | .twsCfg0 _ => [.twsCfg0 .A, .twsCfg0 .B]
  | .twsW _ k => [.twsW .A k, .twsW .B k]
  | .twsS _ k => [.twsS .A k, .twsS .B k]
  | .twsTdc _ k => [.twsTdc .A k, .twsTdc .B k]
  | .osCfg _ => [.osCfg .A, .osCfg .B]
  | r => [r]

/-- The bits of WRX_CFG0 whose change is a change of the receiver's configuration: all but EN and INVERT, which corrections set (R71). -/
def rcvCfgBits (w : Word) : Word := w &&& ~~~(putB true 31 ||| putB true 27)

/-- The pairs of a half draw on a reservoir (R240). -/
def Half.drawsOn (h : Half) (r : Fin 8) : Bool :=
  (idxs 24).any (fun p => resMapDraw (h.led.map.get p) && resMapRes (h.led.map.get p) = r.1)

/-- A program of a group: the active bank holds it (R361, R364). -/
def Half.setProgram (g : Fin 2) (ws : List (BitVec 24)) (h : Half) : Half :=
  let v : Vector (BitVec 24) 48 := Vector.ofFn (fun i => ws.getD i.1 0#24)
  h.slgMap g (fun x => if x.bank then { x with bank1 := v } else { x with bank0 := v })

/-- The four words of SENT_RX in a region that begins at `lo` (R365): STAMP to arm, STAMP to measure, JUMP TIMEOUT to the first, QUEUE
STORE_C0 with NEXT LOOP to the second. -/
def sentProgram (lo : Nat) : List (BitVec 24) := [0x302000#24, 0x300000#24, 0x004000#24 + BitVec.ofNat 24 lo, 0x442000#24]

/-- Words of the active bank of a group from an address on. -/
def Half.setWords (g : Fin 2) (lo : Nat) (ws : List (BitVec 24)) (h : Half) : Half :=
  h.slgMap g (fun x =>
    let v (b : Vector (BitVec 24) 48) : Vector (BitVec 24) 48 := ws.zipIdx.foldl (fun b w => match fin? 48 (lo + w.2) with | some n => put1 b n w.1 | none => b) b
    if x.bank then { x with bank1 := v x.bank1 } else { x with bank0 := v x.bank0 })

/-- An engine that runs a library program is in use and starts after the commit (R358). SENT_RX watches its pin, with its four words in the
engine's region, its divider, its TLIM and its joined RX queue (R365). -/
def Half.libSetup (l : LibCfg) (h : Half) : Half :=
  if l.half ≠ h.id then h else
  let h1 := h.sleMap l.eng (fun x => { x with cfg0 := x.cfg0 ||| putB true 8 ||| putB true 7 })
  if l.prog ≠ 0 then h1 else
  let lo := sleCfg2RegLo (h.eng l.eng).cfg2
  (h1.sleMap l.eng (fun x => { x with
    cfg0 := put lo 6 26 ||| put (lo + 1) 6 20 ||| put (l.pins.headD 0) 6 14 ||| put 1 2 12 ||| (x.cfg0 &&& put 0xFFF 12 0)
    cfg2 := (x.cfg2 &&& ~~~(put 15 4 23 ||| put 63 6 7)) ||| put 4 4 23 ||| put (lo + 3) 6 7
    clk := put 5 16 16, tlim := BitVec.ofInt 32 (roundFree 47 (1024 * (l.tNom : Int) * 2) 5) })).setWords (grpOf l.eng) lo (sentProgram lo)

/-- A half takes the image's parts beyond its registers; `old` is the half before the commit. -/
def Half.takeImage (im : Image) (old h : Half) : Half :=
  let hi := im.ofHalf h.id
  let cfg : HalfCfg := ⟨hi.ckd, hi.ckf, hi.cma, hi.cmb, hi.table, im.cyls, im.link.holdCyc, none,
    allInps.filter (fun i => wrxCfg0Invert (h.rcvOf i).cfg0), allInps.filter (fun i => wrxCfg0En (h.rcvOf i).cfg0), hi.psfOn, hi.xcLevel, im.libs, im.geom⟩
  let h1 : Half := { h with cfg := cfg, led := { h.led with fill := h.led.cost0 } }
  -- a receiver whose configuration stays goes on, INVERT as it stands; a changed one waits for RECEIVER_ENABLE (R69); REV_UNAVAIL (R80)
  let h2 := eachOf allInps (fun i t =>
    let o := old.rcvOf i
    let n := h.rcvOf i
    let same := wrxCfg0En o.cfg0 && wrxCfg0En n.cfg0 && rcvCfgBits o.cfg0 = rcvCfgBits n.cfg0 && o.cfg1 = n.cfg1 &&
      old.cfg.inverts.contains i == cfg.inverts.contains i
    let inv := if same then wrxCfg0Invert o.cfg0 else wrxCfg0Invert n.cfg0
    let t1 := t.rcvMap i (fun r => { r with cfg0 := rcvCfgBits r.cfg0 ||| putB same 31 ||| putB inv 27 })
    t1.revMap i (fun c => { c with unavail := t1.revUnavail0 i || (same && 4 ≤ c.tries) })) h1
  let back := trkCfg0Reversible h2.trk.cfg0
  let h3 := (h2.trkMap (fun t => { t with
    stopTime := hi.stopTime, src := TUnit.seek none, held := none, dir := if back then t.dir else { t.dir with cmd := false, read := false } })).restartSec h2.acqInp
  -- a cylinder keeps its count (log 24), and its last good entry and m, which stand since power-up (R391)
  let was (cyl : Nat) : CylSt := match (idxs 24).find? (fun k => schCylValid (old.cyls.get k).cfg && schCylCyl (old.cyls.get k).cfg = cyl) with
    | some k => old.cyls.get k
    | none => CylSt.reset
  let h4 : Half := { h3 with cyls := h3.cyls.map (fun c => if !schCylValid c.cfg then c else
    { c with count := (was (schCylCyl c.cfg)).count, lastGood := (was (schCylCyl c.cfg)).lastGood, miss := (was (schCylCyl c.cfg)).miss, lastSrc := (was (schCylCyl c.cfg)).lastSrc }) }
  let h5 := eachOf hi.progs (fun p t => t.setProgram p.1 p.2) h4
  -- engines: OFF without a VALID entry, else HALTED; one that was OFF is cleared (R358)
  let h6 := eachIdx 8 (fun e t => t.sleMap e (fun x =>
    if !sleCfg0Valid x.cfg0 then { x with st := 0 } else if x.st = 0 then x.cleared else { x with st := 1 })) (eachOf im.libs Half.libSetup h5)
  { h6 with slu := { h6.slu with libs := im.libs.map (fun _ => LibVal.zero) } }

/-! ### The module -/

/-- The FLT_CFG of every counting place (R464, R465). -/
def Image.fltCfg (im : Image) : Vector Word 192 :=
  im.regs.foldl (fun v x => match x.reg with
    | .fltCfg _ c => upd v c (fun o => writeRw o x.val fltCfgRw)
    | _ => v) (Vector.ofFn (fun c => fltDefault c.1))

/-- Shares start at SPLIT_A; a reservoir is shared when it serves pairs in both halves (R240, R254). -/
def State.shareStart (s : State) : State :=
  let setup (id : HalfId) (h o : Half) : Half := { h with led := { h.led with res := Vector.ofFn (fun r : Fin 8 =>
    let x := h.led.res.get r
    let sh := h.drawsOn r && o.drawsOn r
    let fa : Rat := (resCfg0SplitA x.c0 : Rat) / 100
    { x with shared := sh, frac := if id = .A then fa else 1 - fa }) } }
  { s with a := setup .A s.a s.b, b := setup .B s.b s.a }

/-- The hub's LASTING_LEAVE entries at CONFIG_COMMIT (R460). -/
def State.hubLeaves (l : List (Nat × Word × Nat)) (s : State) : State :=
  eachOf l (fun x t => t.log 0x12 0 x.1 t.hub.frame (evData x.2.1 x.2.2)) s

/-- The module with an image applied (R428, R429), and the first refusal of a slot (R162). -/
def State.configure (im : Image) (s : State) : State × Option Nat :=
  let s1 : State := { s with a := s.a.deconfig, b := s.b.deconfig, hub := { s.hub with
    fg := { s.hub.fg with cfg := fgCfgReset }, pwr := { s.hub.pwr with cfg := pwrCfgReset }
    cl := Vector.replicate 24 ClSt.reset, corr := corrCfgReset, corrs := Vector.replicate 24 ⟨0, 0, 0, 0, [], none⟩
    res := Vector.replicate 8 ⟨0, false, false, 1 / 2, false, false, false⟩
    link := { s.hub.link with cfg := im.link } } }
  let s2 := im.regs.foldl (fun t x => eachOf (regTwins x.reg) (fun r t => t.putReg r x.val) t) s1
  let flt := im.fltCfg
  let fix (old h : Half) : Half :=
    eachOf (old.flt.leaves flt) (fun x h => h.emit (.log 0x12 x.1 h.frame (evData x.2.1 x.2.2)))
      { (Half.takeImage im old h) with flt := old.flt.commit flt }
  let s3 : State := { s2 with a := fix s.a s2.a, b := fix s.b s2.b, hub := { s2.hub with flt := s.hub.flt.commit flt } }.hubLeaves (s.hub.flt.leaves flt)
  let s4 := s3.shareStart
  let (a, ra) := s4.a.allocate im.cyls im.a.trig
  let (b, rb) := s4.b.allocate im.cyls im.b.trig
  let s5 : State := { s4 with a := a.settle, b := b.settle, hub := { s4.hub with
    res := Vector.ofFn (fun r : Fin 8 => { s4.hub.res.get r with fA := (resCfg0SplitA (a.led.res.get r).c0 : Rat) / 100 }) } }
  (s5, ra.or rb)

end Sys2Proof.Machine
end

