-- ==== Sys2Proof/Machine/ConfigCheck.lean ====
section
/-! DEFINITION. What CONFIG_COMMIT refuses: field ranges, conflicts, combinations (R52, R56 to R64, R89, R138, R145, R166, R174,
R199 to R218, R231, R240, R243, R272, R277, R280, R310, R311, R318, R345 to R353, R464 to R468). -/

namespace Sys2Proof.Machine

open Sys2Proof

/-- A field of the image that a check names: a register's, or that of another item by kind and number with the place it
concerns (0 half A, 1 half B, 2 hub, 3 both halves). -/
inductive ImgField where
  | reg (r : Reg) (lsb width : Nat)
  | item (kind num : Nat) (where_ : Nat)
deriving DecidableEq, Repr

/-- The place a register's error concerns (R430). -/
def regWhere (r : Reg) : Nat :=
  match r, regHalf r with
  | .fltCfg .., _ => 3
  | _, some .A => 0
  | _, some .B => 1
  | _, none => 2

/-- A CONFIG_RANGE entry (R430), with the offset it is sorted by. -/
def ImgField.entry (b : List Byte) (f : ImgField) : Nat × List Byte :=
  let (o, l, w, p) := match f with
    | .reg r l w => (Config.imgReg b r, l, w, regWhere r)
    | .item k n p => let (o, l, w) := Config.imgItem b k n; (o, l, w, p)
  (o, le 4 o ++ le 1 l ++ le 1 w ++ le 1 p ++ le 1 0)

/-- Insert by the first field, after equal ones (R430). -/
def insKey (x : Nat × List Byte) : List (Nat × List Byte) → List (Nat × List Byte)
  | [] => [x]
  | y :: t => if y.1 ≤ x.1 then y :: insKey x t else x :: y :: t

/-- A list payload in ascending order of the first field (R430). -/
def sortedPayload (xs : List (Nat × List Byte)) : List Byte := listPayload ((xs.foldl (fun l x => insKey x l) []).map (·.2))

/-! ### The ranges of the field maps -/

/-- A value outside its range names its field. -/
def outside (v lo hi lsb w : Nat) : List (Nat × Nat) := if lo ≤ v && v ≤ hi then [] else [(lsb, w)]

/-- The fields of a register's word that lie outside the range its field map gives, as (LSB, width). -/
def fieldBad : Reg → Word → List (Nat × Nat)
  | .wrxCfg0 .., w => outside (wrxCfg0EdgeSel w) 0 2 28 2 ++ outside (wrxCfg0ThFrac w) 10 70 17 7 ++ outside (wrxCfg0Hys w) 4 127 10 7 ++
      outside (wrxCfg0VrInit w) 20 1000 0 10
  | .wrxCfg1 .., w => outside (wrxCfg1HallTh w) 5 200 24 8 ++ outside (wrxCfg1BlankFrac w) 10 45 17 7 ++ outside (wrxCfg1BlankMin w) 0 400 8 9
  | .trkCfg0 _, w => outside (trkCfg0Cycle w) 0 1 30 2 ++ outside (trkCfg0PhaseSrc w) 0 2 25 2 ++ outside (trkCfg0DirSrc w) 0 2 23 2 ++
      outside (trkCfg0DirSpan w) 0 4 20 3 ++ outside (trkCfg0PredDepth w) 2 4 15 3 ++ outside (trkCfg0GateLo w) 30 90 8 7
  | .trkCfg1 _, w => outside (trkCfg1CamWin w) 10 450 22 10 ++ outside (trkCfg1SecWin w) 5 100 12 10 ++ outside (trkCfg1LimpDelay w) 1 8 8 4
  | .twsCfg0 _, w => outside (twsCfg0TwistMax w) 10 500 22 9 ++ outside (twsCfg0TwRamp w) 1 100 15 7 ++ outside (twsCfg0Ncyl w) 0 24 10 5
  | .twsW .., w => (if -8192 ≤ twsWW w && twsWW w ≤ 24576 then [] else [(16, 16)]) ++ (if twsWValid w then outside (twsWCyl w) 1 24 0 5 else [])
  | .twsS .., w => if w.toInt.natAbs ≤ 131072 then [] else [(0, 32)]
  | .schCfg _, w => outside (schCfgStepTol w) 0 100 24 8
  | .schCh .., w => outside (schChLatePol w) 0 2 30 2 ++ outside (schChMinW w) 1 511 8 9 ++ outside (schChCyl w) 0 24 0 5
  | .schCyl .., w => if schCylValid w then outside (schCylCyl w) 1 24 17 5 else []
  | .poolCfg .., w => outside (poolCfgFloor w) 0 208 22 10 ++ outside (poolCfgCap w) 32 832 12 10
  | .outCfg .., w => outside (outCfgSrc w) 0 4 29 3 ++ outside (outCfgSafe w) 0 2 26 2
  | .drvPair .., w => outside (drvPairGain w) 1 2000 21 11
  | .fgCfg, w => outside (fgCfgFgSettle w) 10 1000 22 10
  | .osCfg _, w => outside (osCfgOsT w) 1 (2 ^ 24) 8 24 ++ outside (osCfgOsK w) 2 31 3 5
  | .resCfg0 _, w => if !resCfg0Valid w then [] else
      outside (resCfg0Gpin w) 0 23 26 5 ++ outside (resCfg0Policy w) 0 2 24 2 ++ outside (resCfg0Cap w) 1 65535 8 16 ++ outside (resCfg0SplitA w) 10 90 0 8
  | .resCfg1 _, w => outside (resCfg1PR w) 1 4095 0 12
  | .pwrCfg, w => outside (pwrCfgScrubDefer w) 1 60 0 8
  | .ainCfg _ i, w => outside (ainCfgRange w) 0 (if i.1 < 12 then 1 else if i.1 < 36 then 0 else 2) 30 2 ++
      (if ainCfgRef w = 3 || (ainCfgRef w = 2 && !(i.1 < 12 && ainCfgRange w = 0)) || (ainCfgRef w ≠ 0 && 12 ≤ i.1 && i.1 < 36) then [(28, 2)] else [])
  | .seqCfg _ q, w => outside (seqCfgMask w) 0 (if q.1 = 0 then 4095 else if q.1 ≤ 6 then 15 else 63) 20 12 ++
      (if q.1 = 0 && seqCfgPolicy w then [(19, 1)] else [])
  | .trgCfg0 .., w => outside (trgCfg0Src w) 0 4 28 3 ++ (if trgCfg0Src w = 3 then outside (trgCfg0Edge w) 0 2 25 2 else []) ++
      (match trgCfg0Src w with
       | 2 => outside (trgCfg0Sel w) 0 3 19 6
       | 3 => outside (trgCfg0Sel w) 0 47 19 6
       | 4 => outside (trgCfg0Sel w) 0 11 19 6
       | _ => [])
  | .aclkCfg _, w => outside (aclkCfgStep w) 0 4 28 3
  | .acqTmr .., w => if (acqTmrEn w && acqTmrPeriod w < 400) || (acqTmrFsync w && 8000 % acqTmrPeriod w ≠ 0) then [(0, 24)] else []
  | .tdacCfg _, w => outside (tdacCfgTest w) 0 2 29 2 ++ outside (tdacCfgInput w) 0 47 23 6
  | .xcCfg .., w => outside (xcCfgEdge w) 0 2 29 2 ++ outside (xcCfgHys w) 4 255 8 8
  | .calCfg _, w => outside (calCfgCalInt w) 10 2000 20 11
  | .anaCfg _ _ n, w => match n.1 with
      | 0 => (if anaCfg0En w then outside (anaCfg0Cyl w) 1 24 26 5 else []) ++ outside (anaCfg0Res w) 0 4 23 3 ++ outside (anaCfg0ImepMode w) 0 2 21 2 ++
          outside (anaCfg0PegGp w) 0 23 14 5
      | 4 => outside (anaCfg4Gamma w) 1000 1600 21 11 ++ outside (anaCfg4PolyN w) 1000 1600 10 11
      | 5 => outside (anaCfg5MisfFrac w) 5 90 24 8 ++ outside (anaCfg5KiThr w) 1 8191 0 13
      | _ => []
  | .trcCfg _, w => outside (trcCfgTrcRes w) 0 4 28 3
  | .clCfg0 _, w => outside (clCfg0Mode w) 0 2 30 2 ++ outside (clCfg0K w) 1 100 19 7 ++ outside (clCfg0StepMax w) 1 255 11 8
  | .slpCfg .., w => outside (slpCfgOwner w) 0 2 29 3
  | .splitCfg _, w => outside (splitCfgIslHold w) 1 4 29 3
  | _, _ => []

/-- The fields of a register's word out of range, as (LSB, width): of the odd channel of a drive-mode pair SCH_CH and OUT_CFG but for SRC are
ignored (R199). -/
def State.fieldOut (s : State) (r : Reg) (w : Word) : List (Nat × Nat) :=
  let odd (h : HalfId) (m : Fin 48) : Bool := m.1 % 2 = 1 && (s.half h).isDrive m
  match r with
  | .schCh h m => if odd h m then [] else fieldBad r w
  | .outCfg h m => if odd h m then (fieldBad r w).filter (· = (29, 3)) else fieldBad r w
  | _ => fieldBad r w

/-- An error named where a condition holds. -/
def errIf (c : Bool) (f : ImgField) : List ImgField := if c then [f] else []

/-! ### Wheel inputs and tracker -/

/-- The receiver's blanking keeps R64 under a gate bound; BLANK_MIN against 25 % of the wheel's shortest interval at a speed in
rpm. -/
def blankOk (w1 : Word) (gateLo : Nat) : Bool := wrxCfg1BlankFrac w1 ≤ 45 && wrxCfg1BlankFrac w1 + 5 ≤ gateLo

/-- BLANK_MIN exceeds 25 % of the shortest interval of a wheel at a speed (R64). -/
def blankLong (w : Wheel) (rpm : Rat) (w1 : Word) : Bool :=
  match w.spans with
  | [] => false
  | s :: t => rpm > 0 && w.present &&
      (wrxCfg1BlankMin w1 : Rat) * 20 > (t.foldl min s) / (max 1 w.teeth : Nat) * 60 / rpm * etPerSec / 4

/-- BLANK_MIN exceeds 25 % of the shortest interval between the features of a phase input at a speed (R64). -/
def Half.blankLongFeat (h : Half) (i : Inp) (rpm : Rat) (w1 : Word) : Bool :=
  let d : Option PhaseDesc := match i with | .cma => some h.cfg.cma | .cmb => some h.cfg.cmb | _ => none
  rpm > 0 && d.any (fun d => [false, true].any (fun a =>
    let fs := d.feats a
    (List.range fs.length).any (fun j =>
      (wrxCfg1BlankMin w1 : Rat) * 20 > (featSpan h.cycLen fs j : Rat) / 65536 / (6 * rpm) * etPerSec / 4)))

/-- The registers a receiver is refused for (R56, R59, R60, R64). -/
def Half.rcvErrs (h : Half) (rpm : Rat) (i : Inp) : List ImgField :=
  let r := h.rcvOf i
  errIf (!wrxCfg0Mode r.cfg0 && wrxCfg0EdgeSel r.cfg0 ≠ 0) (.reg (.wrxCfg0 h.id i) 28 2) ++
  errIf (wrxCfg0Mode r.cfg0 && wrxCfg1HallTh r.cfg1 * 100 < wrxCfg0Hys r.cfg0 * 10 + 200) (.reg (.wrxCfg1 h.id i) 24 8) ++
  errIf (!blankOk r.cfg1 (trkCfg0GateLo h.trk.cfg0)) (.reg (.wrxCfg1 h.id i) 17 7) ++
  errIf (blankLong (h.wheel i) rpm r.cfg1 || h.blankLongFeat i rpm r.cfg1) (.reg (.wrxCfg1 h.id i) 8 9)

/-- The gaps of a wheel as (count, positions since the gap before it on the wheel); the only gap of a wheel comes a revolution after itself. -/
def Wheel.gapKeys (w : Wheel) : List (Nat × Nat) :=
  let n := w.gaps.length
  (List.range n).map (fun g =>
    let (f, m) := w.gaps.getD g (0, 0)
    (m, (((List.range n).filter (· ≠ g)).map (fun j =>
      let (pf, pm) := w.gaps.getD j (0, 0)
      (f + 2 * w.teeth - (pf + pm)) % max 1 w.teeth)).foldl min (w.teeth - m)))

/-- A list with a repeated element. -/
def repeats {α : Type} [BEq α] : List α → Bool
  | [] => false
  | x :: t => t.contains x || repeats t

/-- A wheel description lies within the ranges of R87; `len` is the cycle length. -/
def Wheel.inRange (len : Int) (w : Wheel) : Bool :=
  0 ≤ w.cycOfs && w.cycOfs ≤ len &&
  8 ≤ w.teeth && w.teeth ≤ 720 && w.gaps.length ≤ 4 && w.marks.length ≤ 4 &&
    w.gaps.all (fun g => 1 ≤ g.1 && g.1 < w.teeth && 1 ≤ g.2 && g.2 ≤ 4) && w.marks.all (fun m => m.1 < w.teeth && 64 ≤ m.2 && m.2 ≤ 192) &&
    w.trim.all (fun t => t.1 < w.teeth && t.2.natAbs ≤ 32768) && w.astOfs.natAbs * (2 * w.teeth) ≤ (360 * deg).natAbs && w.mkT < max 1 w.teeth

/-- A marker nearer than a quarter pitch to the edge of a primary tooth (R89), exactly: in Q16 degrees times 256 TEETH, the marker stands
(fraction - 256 d) · 360 from position p + d before that position's TRIM, and AST_OFS moves both alike (log 106). -/
def Wheel.markNear (w : Wheel) : Bool :=
  let n := max 1 w.teeth
  let rev : Int := 360 * deg
  w.marks.any (fun m => [0, 1].any (fun (d : Nat) =>
    let p := (m.1 + d) % n
    !w.missing p && (((m.2 : Int) - 256 * d) * rev - (w.trim.lookup p).getD 0 * (256 * n : Nat)).natAbs < (64 * rev).natAbs))

/-- What R87 and R89 refuse of a crank wheel; `cam` says whether a phase input marks it. -/
def Wheel.bad (len : Int) (w : Wheel) (cam : Bool) : Bool :=
  w.present && (!w.inRange len || repeats w.gapKeys || (w.gaps.isEmpty && !cam) || w.markNear || w.longest * 2 > 161)

/-- The shortest run of consecutive tooth intervals between gaps (R231); none on a wheel without gaps. -/
def Wheel.shortRun (w : Wheel) : Option Nat :=
  match w.gapKeys with
  | [] => none
  | k :: t => some ((t.map (·.2)).foldl min k.2 - 1)

/-- The wheels and the tracker of a half (R87, R89, R231). -/
def Half.wheelErrs (h : Half) (rpm : Rat) : List ImgField :=
  let n := h.id.num
  let cam := h.trk.phaseInp.isSome && !(h.phaseDesc).feat.isEmpty
  let osW := if osCfgOsWheel h.fg.osCfg then h.cfg.ckf else h.cfg.ckd
  errIf (h.cfg.ckd.bad h.cycLen cam) (.item 1 0 n) ++ errIf (h.cfg.ckf.bad h.cycLen cam) (.item 1 1 n) ++
  errIf (16 < h.cfg.cma.feat.length || 16 < h.cfg.cma.featAst.length) (.item 1 2 n) ++
  errIf (16 < h.cfg.cmb.feat.length || 16 < h.cfg.cmb.featAst.length) (.item 1 3 n) ++
  errIf (trkCfg0Reversible h.trk.cfg0 && trkCfg0Cycle h.trk.cfg0 = 0) (.reg (.trkCfg0 h.id) 29 1) ++
  errIf (osCfgOsT h.fg.osCfg = 0) (.reg (.osCfg h.id) 8 24) ++
  errIf (osW.present && osW.shortRun.any (· < osCfgOsK h.fg.osCfg)) (.reg (.osCfg h.id) 3 5) ++
  errIf (3300 < rpm) (.item 1 4 2)

/-! ### Twist (R138, R145, R146) -/

/-- Strictly increasing, within a limit. -/
def rising (lim : Nat) : List Nat → Bool
  | a :: b :: t => a < b && rising lim (b :: t)
  | [a] => a ≤ lim
  | [] => true

/-- The twist configuration of a half. -/
def Half.twistErrs (h : Half) : List ImgField :=
  let t := h.cfg.table
  let cyls := ((idxs 24).filter (fun k => (h.tws.cyl.get k).valid)).map (fun k => (h.tws.cyl.get k).cyl)
  errIf (trkCfg1SecWin h.trk.cfg1 * 10 ≤ twsCfg0TwistMax h.tws.cfg0) (.reg (.twsCfg0 h.id) 22 9) ++
  errIf (t.spd.length ≠ 8 || t.ld.length ≠ 8 || t.tau.length ≠ 8 || t.tau.any (·.length ≠ 8) || !rising 3000 t.spd || !rising 1200 t.ld ||
    t.tau.any (fun r => r.any (fun x => h.tws.max100 < x.natAbs * 100))) (.item 2 0 h.id.num) ++
  (if repeats cyls then (idxs 24).flatMap (fun k => errIf (cyls.count (h.tws.cyl.get k).cyl > 1 && (h.tws.cyl.get k).valid) (.reg (.twsW h.id k) 0 5)) else [])

/-! ### Scheduling (R160, R166, R174, R199, R202, R204, R217, R277) -/

/-- The action fits the channel's owner (R202). -/
def actFits (src act : Nat) : Bool :=
  match act with
  | 1 => src = 1
  | 2 => src = 1
  | 3 => src = 1
  | 4 => src = 2
  | 5 => src = 2
  | _ => true

/-- The odd channel of a drive-mode pair, which no slot and no request may name (R199). -/
def Half.oddDrive (h : Half) (m : Fin 48) : Bool := m.1 % 2 = 1 && h.isDrive m

/-- A profile is in use (R217). -/
def Half.profValid (h : Half) (i : Nat) : Bool := i ≤ 31 && profHdrValid ((h.prof i).get 0)

/-- A trigger line takes TRIG slots (R277). -/
def Half.trigLine (h : Half) (a : Nat) : Bool :=
  match fin? 32 a with
  | some t => trgCfg0Src (h.acq.lines.get t).cfg0 = 0
  | none => false

/-- A Basic event that the configuration is refused for. Its slot has ARG 0, so a TRIG event asserts line 0 (R277). -/
def Half.evtBad (h : Half) (x : EvtCfg) : Bool :=
  match fin? 48 x.ch with
  | none => true
  | some m =>
    7 ≤ x.action || !actFits (outCfgSrc (h.chans.get m).out) x.action || h.oddDrive m || 3 < x.evt || 255 < x.prio ||
    (x.action = 6 && !h.trigLine 0) ||
    (x.action = 4 && (x.profs.isEmpty || 4 < x.profs.length || !rising 65535 (x.profs.map (·.2)) || x.profs.any (fun p => !h.profValid p.1)))

/-- TRIG content of the acquisition configuration that the configuration is refused for. -/
def Half.trigBad (h : Half) (c : SlotC) : Bool :=
  7 ≤ c.action || c.ch / 48 ≠ h.id.num || h.oddDrive c.chan || !actFits (outCfgSrc (h.chans.get c.chan).out) c.action ||
    (c.action = 3 && c.w2.toNat < 8) || (c.action = 4 && !h.profValid c.prof) || (c.action = 6 && !h.trigLine c.arg)

/-- The earliest start that the configuration allows for any event of a cylinder. -/
def CylCfg.earliest (c : CylCfg) : Option Int :=
  match (c.evts.filter (fun e => e.action ≠ 0)).map (·.earliest) with
  | [] => none
  | a :: t => some (t.foldl min a)

/-- The start throw angles of the acquisition configuration's content of a cylinder (R173, R174). -/
def Half.trigStarts (h : Half) (trig : List SlotC) (k : Fin 24) : List Int :=
  (trig.filter (fun c => c.action ≠ 0 && c.cyl = schCylCyl (h.cyls.get k).cfg)).map (fun c =>
    if c.kind then wrapS h.cycLen (c.angle - h.tdcNow k) else c.angle)

/-- A cylinder entry breaks R174: CD against its range, LA and the earliest start of any event, those of the acquisition configuration among
them. -/
def Half.cylBad (h : Half) (trig : List SlotC) (k : Fin 24) : Bool :=
  let w := (h.cyls.get k).cfg
  let cd : Int := schCylCd w * deg
  schCylValid w && (cd < 24 * deg || (if h.cycLen = 720 * deg then 300 * deg < cd else 150 * deg < cd) || cd < h.lookahead + 8 * deg ||
    (((h.cfg.cyls.find? (fun c => c.cyl = schCylCyl w)).bind CylCfg.earliest).toList ++ h.trigStarts trig k).any (fun e =>
      e - cd < -(h.cycLen / 2)))

/-- The scheduling configuration of a half. -/
def Half.schedErrs (im : Image) (h : Half) : List ImgField :=
  let n := h.id.num
  (idxs 24).flatMap (fun k => errIf (h.cylBad (im.ofHalf h.id).trig k) (.reg (.schCyl h.id k) 23 9)) ++
  (idxs 4).flatMap (fun b => errIf (poolCfgCap (h.banks.get b).pool < poolCfgFloor (h.banks.get b).pool) (.reg (.poolCfg h.id b) 22 10)) ++
  errIf (832 < (idxs 4).foldl (fun s b => s + poolCfgFloor (h.banks.get b).pool) 0) (.reg (.poolCfg h.id 0) 22 10) ++
  im.cyls.zipIdx.flatMap (fun c => c.1.evts.zipIdx.flatMap (fun e => errIf (e.1.half = h.id && h.evtBad e.1) (.item 5 (4 * c.2 + e.2) n))) ++
  im.cyls.zipIdx.flatMap (fun c => errIf (n = 0 && (c.1.cyl < 1 || 24 < c.1.cyl)) (.item 4 c.2 3)) ++
  (im.ofHalf h.id).trig.zipIdx.flatMap (fun c => errIf (h.trigBad c.1) (.item 6 c.2 n))

/-! ### Outputs and profiles (R199, R205, R209, R211, R213, R217, R218) -/

/-- A phase's EXIT and CHOP are allowed (R209). -/
def phAllowed (n : Nat) (b : Word) : Bool :=
  let e := phBExit b
  let c := phBChop b
  match n with
  | 0 => e = 1 && !c
  | 1 => e = 0 || e = 1
  | 2 => e = 0
  | 3 => e = 3
  | 4 => (e = 0 || e = 2) && !c
  | _ => e = 2 && !c

/-- A profile in use keeps R209, R211 and R218 in each of its phases, a skipped one too; `valid` says which profiles are in use. -/
def profOk (i : Nat) (valid : Nat → Bool) (pw : Vector Word 16) : Bool :=
  let h := pw.get 0
  let ph (n : Nat) : Bool :=
    let a := phWordA pw n
    let b := phWordB pw n
    (n ≠ 5 || phBTLim b ≠ 0) && phAllowed n b &&
    (!(phBChop b || phBExit b = 1) || phAILo a < phAIHi a) && phAIHi a < profHdrIMax h && (!phBChop b || phBChopMin b ≠ 0)
  !profHdrValid h || ((List.range 6).all ph && (!profHdrShortEn h || (profHdrShortProf h ≠ i && valid (profHdrShortProf h))))

/-- A pair's GAIN keeps every threshold of a profile within 4095 mV (R213): code = round(I * GAIN * 0.1). -/
def gainOk (gain : Nat) (pw : Vector Word 16) : Bool :=
  let mv (v : Nat) : Bool := roundDiv ((v * gain : Nat) : Int) 1000 ≤ 4095
  mv (profHdrIMax (pw.get 0)) && (List.range 6).all (fun n => mv (phAIHi (phWordA pw n)) && mv (phAILo (phWordA pw n)))

/-- The words of a profile: those in the store, and those a PROFILE_WRITE has staged for it (R219). -/
def Half.profsOf (h : Half) (i : Nat) : List (Vector Word 16) :=
  h.prof i :: (match fin? 32 i with
    | some n => ((h.profNew.get n).map (·.1)).toList
    | none => [])

/-- The profiles that SHORTEN may put in the place of one (R217, R259). -/
def shortOf (pw : Vector Word 16) : List Nat := if profHdrShortEn (pw.get 0) then [profHdrShortProf (pw.get 0)] else []

/-- The profiles assigned to a pair: those of its Basic events, those of its Expert or acquisition content, staged or in force, and those
that may take their place by SHORTEN. -/
def Half.pairProfiles (h : Half) (p : Fin 24) : List Nat :=
  let basic := h.cfg.cyls.flatMap (fun c => (c.evts.filter (fun e => e.half = h.id && e.action = 4 && e.ch = 2 * p.1)).flatMap (fun e => e.profs.map (·.1)))
  let slots := (h.slots.toList.filter (fun s => s.holder ≠ .nobody)).flatMap (fun s =>
    (([s.base] ++ s.staged.toList).filter (fun c => c.action = 4 && c.chan.1 = 2 * p.1)).map (·.prof))
  let l := basic ++ slots
  l ++ l.flatMap (fun i => (h.profsOf i).flatMap shortOf)

/-- The output configuration of a half. -/
def Half.outErrs (h : Half) : List ImgField :=
  (idxs 48).flatMap (fun m =>
    let other : Fin 48 := if m.1 % 2 = 0 then oddCh (pairOf m) else evenCh (pairOf m)
    errIf (h.isDrive m && !h.isDrive other) (.reg (.outCfg h.id m) 29 3) ++
    errIf (h.isDrive m && m.1 % 2 = 0 && outCfgSafe (h.chans.get m).out ≠ 0) (.reg (.outCfg h.id m) 26 2)) ++
  (idxs 32).flatMap (fun i => errIf (!profOk i.1 h.profValid (h.profs.get i)) (.reg (.profile h.id i 0) 0 32)) ++
  (idxs 24).flatMap (fun p => errIf ((h.pairProfiles p).any (fun i => !gainOk (drvPairGain (h.pairs.get p).pair) (h.prof i))) (.reg (.drvPair h.id p) 21 11)) ++
  (idxs 24).flatMap (fun p => if !resMapDraw (h.led.map.get p) then [] else
    (idxs 32).flatMap (fun i => errIf ((h.pairProfiles p).contains i.1 && resCost0Cost0 (h.led.cost0.get i) = 0) (.reg (.resCost0 h.id i) 16 16)))

/-! ### Acquisition and analysis (R272, R310, R311, R318) -/

/-- The acquisition configuration of a half: targets with an empty MASK (R272). -/
def Half.acqErrs (h : Half) : List ImgField :=
  (idxs 32).flatMap (fun t =>
    let w := (h.acq.lines.get t).cfg0
    errIf ((targets (trgCfg0Target w)).any (fun q => seqCfgMask (h.acq.seqs.get q).cfg = 0)) (.reg (.trgCfg0 h.id t) 10 9))

/-- A lane resolution is a multiple of STEP (R311); both as codes. -/
def resFits (res step : Nat) : Bool := (res20 res) % (res20 step) = 0

/-- What R311 and R318 refuse of a lane. -/
def Half.laneBad (h : Half) (j : Fin 12) : List (Fin 6 × Nat × Nat) :=
  let l := h.ana.lanes.get j
  if !l.en then [] else
  let half20 : Int := if h.cycLen = 720 * deg then 720 else 360
  let c0 := l.cfg.get 0
  let s := anaCfg1CmbStart (l.cfg.get 1)
  let e := anaCfg1CmbEnd (l.cfg.get 1)
  let k1 := anaCfg2KwStart (l.cfg.get 2)
  let k2 := anaCfg2KwEnd (l.cfg.get 2)
  let a1 := anaCfg3PegA1 (l.cfg.get 3)
  let a2 := anaCfg3PegA2 (l.cfg.get 3)
  let lb := anaCfg5LbAngle (l.cfg.get 5)
  let peg := anaCfg0PegMode c0
  let no (c : Bool) (x : Fin 6 × Nat × Nat) : List (Fin 6 × Nat × Nat) := if c then [x] else []
  no (!resFits (anaCfg0Res c0) (aclkCfgStep h.acq.aclk)) (0, 23, 3) ++
  no (s < -half20 || e ≤ s) (1, 21, 11) ++ no (half20 - 2 < e) (1, 10, 11) ++
  no (anaCfg0KnEn c0 && k1 < s) (2, 21, 11) ++ no (anaCfg0KnEn c0 && e * 10 < k2 * 10 + 4 * (res20 (anaCfg0Res c0) : Nat)) (2, 10, 11) ++
  no ((peg = 1 || peg = 2) && a2 ≤ a1) (3, 21, 11) ++ no ((peg = 1 || peg = 2) && s < a2) (3, 10, 11) ++
  no (peg = 2 && (a1 < -300 || -40 < a1)) (3, 21, 11) ++ no (peg = 2 && (a2 < -300 || -40 < a2)) (3, 10, 11) ++
  no (anaCfg0ImepMode c0 = 1 && h.cycLen = 360 * deg) (0, 21, 2) ++ no (lb < s || e < lb) (5, 13, 11) ++
  no (peg = 1 && anaCfg0PegGp c0 / 12 ≠ h.id.num) (0, 14, 5)

/-- The analysis configuration of a half. -/
def Half.anaErrs (h : Half) : List ImgField :=
  (idxs 12).flatMap (fun j => (h.laneBad j).map (fun x => ImgField.reg (.anaCfg h.id j x.1) x.2.1 x.2.2)) ++
  errIf (trcCfgEn h.ana.trc && !resFits (trcCfgTrcRes h.ana.trc) (aclkCfgStep h.acq.aclk)) (.reg (.trcCfg h.id) 28 3)

/-- The cylinders of enabled lanes, by half and lane. -/
def State.laneCyls (s : State) : List (HalfId × Fin 12 × Nat) :=
  bothHalves.flatMap (fun id => ((idxs 12).filter (fun j => ((s.half id).ana.lanes.get j).en)).map (fun j => (id, j, ((s.half id).ana.lanes.get j).cyl)))

/-! ### Sluice engines (R348, R351, R353) -/

/-- The words of a group's active program. -/
def Half.progWords (h : Half) (g : Fin 2) : List (BitVec 24) := (h.slg g).active.toList

/-- The sluice configuration of a half. -/
def Half.slErrs (h : Half) : List ImgField :=
  (idxs 2).flatMap (fun g => (h.progWords g).zipIdx.flatMap (fun w => errIf (!slWordOk w.1) (.item 9 (48 * g.1 + w.2) h.id.num))) ++
  (idxs 8).flatMap (fun e =>
    let x := h.eng e
    errIf (!slEngOk (h.progWords (grpOf e)) x.cfg0 x.cfg1 x.cfg2 x.clk) (.reg (.sleCfg0 h.id e) 0 32))

/-- How many SL pins a library program takes (R364, R432). -/
def LibCfg.pinsOk (l : LibCfg) : Bool :=
  l.pins.all (· < 16) && !repeats l.pins &&
    (match l.prog with
     | 1 => l.pins.length = 4
     | 3 => l.pins.length = 1 || l.pins.length = 2
     | _ => l.pins.length = 1)

/-- A library entry out of the ranges of R432. -/
def LibCfg.bad (l : LibCfg) : Bool :=
  !l.pinsOk ||
    (match l.prog with
     | 0 => l.tNom < 300 || 9000 < l.tNom || l.dataN < 1 || 6 < l.dataN || 2 < l.serial
     | 1 => l.sclk < 10 || 10000 < l.sclk || 255 < l.addr || l.bits < 8 || 32 < l.bits || l.period < 1 || 1000 < l.period
     | 2 => false
     | 3 => l.period < 1 || 65535 < l.period
     | _ => true)

/-! ### The hub (R240, R386, R464, R467) -/

/-- The GP input is sampled by a G scan at intervals of 5 us or less (R240). -/
def Half.scanned (h : Half) (i : Fin 48) : Bool :=
  (idxs 32).any (fun t =>
    let w := (h.acq.lines.get t).cfg0
    let q : Fin 9 := if i.1 < 42 then 7 else 8
    trgCfg0En w && trgCfg0Src w = 2 && (targets (trgCfg0Target w)).contains q && (seqCfgMask (h.acq.seqs.get q).cfg).testBit ((i.1 - 36) % 6) &&
      (match fin? 4 (trgCfg0Sel w) with
       | some n => acqTmrEn (h.acq.tmr.get n) && acqTmrPeriod (h.acq.tmr.get n) ≤ 4000
       | none => false))

/-- The reservoirs (R240). -/
def State.resErrs (s : State) : List ImgField :=
  (idxs 8).flatMap (fun r =>
    let x := s.a.led.res.get r
    if !resCfg0Valid x.c0 then [] else
    let (id, i) := resInput x.c0
    errIf ((s.half id.other).drawsOn r && !(s.half id).drawsOn r) (.reg (.resCfg0 r) 26 5) ++
    errIf (resCfg1VMax x.c1 ≤ resCfg1VMin x.c1) (.reg (.resCfg1 r) 22 10) ++
    errIf (x.uMax > 32767 / 10000) (.reg (.resCfg0 r) 8 16) ++
    errIf (!(s.half id).scanned i) (.reg (.resCfg0 r) 26 5))

/-- The link configuration lies in its ranges (R386, R391, R395, R398). -/
def LinkCfg.ok (l : LinkCfg) : Bool :=
  10 ≤ l.chkWin && l.chkWin ≤ 1000 && 2 ≤ l.chkThr && l.chkThr ≤ 15 && 1 ≤ l.holdCyc && l.holdCyc ≤ 8 && 1 ≤ l.statPer && l.statPer ≤ 1000 &&
    1 ≤ l.modCnt && l.modCnt ≤ 32 && 50 ≤ l.modTime && l.modTime ≤ 2000 && l.notify ≤ 2 && l.backupPort ≤ 1

/-- Every field error of a candidate (R428 step 6). -/
def State.rangeErrs (im : Image) (s : State) : List ImgField :=
  let cyls := s.laneCyls
  im.regs.flatMap (fun x => (s.fieldOut x.reg x.val).map (fun f => ImgField.reg x.reg f.1 f.2)) ++
  [s.a, s.b].flatMap (fun h => allInps.flatMap (h.rcvErrs im.osRpm) ++ h.wheelErrs im.osRpm ++ h.twistErrs ++ h.schedErrs im ++ h.outErrs ++
    h.acqErrs ++ h.anaErrs ++ h.slErrs) ++
  (if repeats (cyls.map (·.2.2)) then (cyls.filter (fun x => 1 < (cyls.map (·.2.2)).count x.2.2)).map (fun x => ImgField.reg (.anaCfg x.1 x.2.1 0) 26 5) else []) ++
  s.resErrs ++
  (idxs 192).flatMap (fun c => errIf (fltCfgLatch (im.fltCfg.get c) && fltThr c.1 (im.fltCfg.get c) = 0) (.reg (.fltCfg none c) 10 1)) ++
  im.libs.zipIdx.flatMap (fun l => errIf l.1.bad (.item 10 l.2 l.1.half.num)) ++
  errIf (!im.link.ok) (.item 11 0 2) ++
  im.approved.zipIdx.flatMap (fun p => errIf (p.1.2 < p.1.1 || 0x0100 ≤ p.1.2) (.item 8 p.2 2)) ++
  errIf (64 < im.approved.length) (.item 8 64 2)

/-! ### Conflicts (R200, R345) -/

/-- A claim on a resource: (RES_TYPE, RES_IDX), rank, index of the claimant. -/
abbrev ClaimKey : Type := (Nat × Nat) × Nat × Nat

/-- Who owns a pin index of a half by the configuration, as (rank, index); none for nobody. -/
def Half.pinOwner (h : Half) (i : Nat) : Option (Nat × Nat) :=
  match fin? 16 i, fin? 48 (i - 16) with
  | some n, _ =>
    let w := (h.slu.pins.get n).cfg
    if slpCfgOwner w = 1 then some (4, 8 * h.id.num + slpCfgEng w) else if slpCfgOwner w = 2 then some (5, 0xFF) else none
  | none, some m =>
    let w := (h.chans.get m).out
    match outCfgSrc w with
    | 1 => some (3, chanNum h.id m.1)
    | 2 => some (2, chanNum h.id (evenCh (pairOf m)).1)
    | 3 => some (4, 8 * h.id.num + outCfgSlEng w)
    | 4 => some (5, 0xFF)
    | _ => none
  | none, none => none

/-- The pins of an engine's windows that are not its own (R345): the owner, or the engine itself where nobody owns the pin
(log 26), against the engine. -/
def Half.windowClashes (h : Half) : List (ClaimKey × ClaimKey) :=
  (idxs 8).flatMap (fun e =>
    let me : Nat × Nat := (4, 8 * h.id.num + e.1)
    if !sleCfg0Valid (h.eng e).cfg0 then [] else
    ((slWindow (h.eng e).cfg1).filter (fun i => h.pinOwner i ≠ some me)).map (fun i =>
      let res : Nat × Nat := if i < 16 then (2, 16 * h.id.num + i) else (0, chanNum h.id (i - 16))
      ((res, (h.pinOwner i).getD me), (res, me))))

/-- Two claims of the image on one resource by different claimants (R200). -/
def claimClashes : List ClaimItem → List (ClaimKey × ClaimKey)
  | [] => []
  | x :: t =>
    let key (c : ClaimItem) : ClaimKey := ((c.res, c.idx), c.rank, c.who)
    ((t.filter (fun y => y.res = x.res && y.idx = x.idx && (y.rank, y.who) ≠ (x.rank, x.who))).map (fun y => (key x, key y))) ++ claimClashes t

/-- A conflict's entry (R430): the claimant of higher rank first. -/
def clashEntry (c : ClaimKey × ClaimKey) : Nat × List Byte :=
  let (x, y) := if c.2.2.1 < c.1.2.1 then (c.2, c.1) else c
  (x.1.1, le 1 x.1.1 ++ le 1 0 ++ le 2 x.1.2 ++ le 1 x.2.1 ++ le 1 x.2.2 ++ le 1 y.2.1 ++ le 1 y.2.2)

/-- Every conflict of a candidate. -/
def State.clashes (im : Image) (s : State) : List (ClaimKey × ClaimKey) := claimClashes im.claims ++ s.a.windowClashes ++ s.b.windowClashes

/-! ### Combinations (R52, R466 to R468) -/

/-- The modes a half's configuration makes active (R466). -/
def Half.modes (h : Half) : List Nat :=
  let t := h.trk.cfg0
  let on (c : Bool) (m : Nat) : List Nat := if c then [m] else []
  let anyCh (p : Chan → Bool) : Bool := (idxs 48).any (fun m => !h.oddDrive m && p (h.chans.get m))
  on (trkCfg0Cycle t = 0) 0x01 ++ on (trkCfg0Cycle t = 1) 0x02 ++ on (trkCfg0Reversible t) 0x03 ++
  on (trkCfg0SecondEn t && twsCfg0TwEn h.tws.cfg0) 0x04 ++ on (trkCfg0LimpEn t) 0x05 ++ on (trkCfg0DirSrc t ≤ 2) (0x06 + trkCfg0DirSrc t) ++
  on (anyCh (fun c => schChSplit c.sch)) 0x20 ++ on (anyCh (fun c => schChLatePol c.sch = 0)) 0x21 ++ on (anyCh (fun c => schChLatePol c.sch = 1)) 0x22 ++
  on (anyCh (fun c => schChLatePol c.sch = 2)) 0x23 ++ on (anyCh (fun c => schChLossPol c.sch)) 0x24 ++ on (anyCh (fun c => c.owner = 2)) 0x25 ++
  on (anyCh (fun c => c.owner = 3)) 0x26 ++ on (anyCh (fun c => c.owner = 4)) 0x27 ++ on (trcCfgEn h.ana.trc) 0x42 ++
  on (h.ana.lanes.toList.any (fun l => l.en && anaCfg0Res (l.cfg.get 0) = 4)) 0x43 ++
  on (h.ana.lanes.toList.any (fun l => l.en && anaCfg0PegMode (l.cfg.get 0) = 1)) 0x44

/-- The modes of the hub's configuration (R466); `expert` says which functions stand at Expert level. -/
def State.hubModes (expert : List Bool) (s : State) : List Nat :=
  let on (c : Bool) (m : Nat) : List Nat := if c then [m] else []
  let pol (n : Nat) : Bool := (idxs 8).any (fun r => let w := (s.a.led.res.get r).c0; resCfg0Valid w && resCfg0Policy w = n)
  (List.range 7).map (fun f => if expert.getD f false then 0x11 + 2 * f else 0x10 + 2 * f) ++
  on (pol 0) 0x30 ++ on (pol 1) 0x31 ++ on (pol 2) 0x32 ++
  on ((idxs 8).any (fun r => resCfg0Valid (s.a.led.res.get r).c0 && s.a.drawsOn r && s.b.drawsOn r)) 0x33 ++
  on s.hub.link.cfg.backupEn 0x50 ++ on s.hub.link.cfg.ptpEn 0x51 ++ on s.hub.link.cfg.ppsIn 0x52 ++ on s.hub.link.cfg.redundant 0x53

/-- The cylinders in a closed-loop mode: 0x40 TARGET, 0x41 BALANCE. -/
def State.clCyls (m : Nat) (s : State) : List Nat :=
  if m = 0x40 || m = 0x41 then ((idxs 24).filter (fun k => clCfg0Mode (s.hub.cl.get k).cfg0 = m - 0x3F)).map (fun k => k.1 + 1) else []

/-- Every mode active (R466), ascending. -/
def State.modes (expert : List Bool) (s : State) : List Nat :=
  let all := s.a.modes ++ s.b.modes ++ s.hubModes expert
  (List.range 0x54).filter (fun m => all.contains m || !(s.clCyls m).isEmpty)

/-- The scope of a mode (R430): cylinders for a closed-loop mode, one half where only it is in the mode, else the module. -/
def State.scopes (expert : List Bool) (m : Nat) (s : State) : List (Nat × Nat) :=
  let cs := s.clCyls m
  if !cs.isEmpty then cs.map (fun c => (3, c))
  else if (s.hubModes expert).contains m then [(0, 0)]
  else match s.a.modes.contains m, s.b.modes.contains m with
    | true, false => [(1, 0)]
    | false, true => [(2, 0)]
    | _, _ => [(0, 0)]

/-- The pairs of R468 whose codes lie below 0x0100, the lower code first. -/
def listedPairs : List (Nat × Nat) := [(0x03, 0x06), (0x03, 0x07), (0x11, 0x25), (0x11, 0x40), (0x11, 0x41)]

/-- The combinations outside an approved set (R467); a pair stands in the scope of its cylinders, of the half both modes
share, else of the module (log 27). -/
def State.unapproved (approved : List (Nat × Nat)) (expert : List Bool) (s : State) : List Combo :=
  let ms := s.modes expert
  let alone := (ms.filter (fun m => !approved.contains (m, m))).flatMap (fun m => (s.scopes expert m).map (fun x => Combo.mk m m x.1 x.2))
  let pairs := (listedPairs.filter (fun p => ms.contains p.1 && ms.contains p.2 && !approved.contains p)).flatMap (fun p =>
    let x := s.scopes expert p.1
    let y := s.scopes expert p.2
    let z := if (s.clCyls p.2).isEmpty then (if x = y then x else [(0, 0)]) else y
    z.map (fun q => Combo.mk p.1 p.2 q.1 q.2))
  alone ++ pairs

/-- COMBINE at run time (R52): the combinations outside the set of the image in force that a change would bring. -/
def State.combineBad (s : State) : List Combo :=
  if s.hub.cfg.guard then s.unapproved s.hub.cfg.img.approved s.hub.cfg.img.expert else []

end Sys2Proof.Machine
end

