-- ==== Sys2Proof/Machine/Mb2.lean ====
section
/-! DEFINITION. Mailbox 2: image transfer, CONFIG_COMMIT and what it applies, LINK_SET (R50 to R52, R425 to R431, R497). -/

namespace Sys2Proof.Machine

open Sys2Proof

/-! ### Transfers (R427, R450) -/

/-- A transfer as bytes: of two chunks that overlap the later one wins (R427). -/
def Xfer.bytes (x : Xfer) : List Byte := x.chunks.reverse.foldl (fun b c => overlay b c.1 c.2) (zeros x.len)

/-- How many of a transfer's bytes have been received. -/
def Xfer.got (x : Xfer) : Nat := (x.chunks.foldl (fun b c => overlay b c.1 (List.replicate c.2.length 1#8)) (zeros x.len)).countP (· = 1#8)

/-- Every byte of a transfer has been received. -/
def Xfer.full (x : Xfer) : Bool := x.got = x.len

/-- One more chunk. -/
def Xfer.add (ofs : Nat) (d : List Byte) (x : Xfer) : Xfer := { x with chunks := (ofs, d) :: x.chunks }

/-- A transfer of a length opens (R427). -/
def Xfer.open_ (len : Nat) : Xfer := ⟨len, []⟩

/-- The checks of a chunk of N bytes at OFS for a transfer (R416, R427). -/
def Ask.chunkChecks (x : Option Xfer) (a : Ask) : List (Bool × Nat) :=
  let o := a.w 16
  let n := a.h 20
  [(o % 4 ≠ 0 || n % 4 ≠ 0 || n < 4 || 992 < n || a.dirty 22 2, 0x0104), (x.isNone, 0x0117), (x.any (fun t => t.len < o + n), 0x0104)]

/-- IMAGE_BEGIN (R427). -/
def State.serveImageBegin (a : Ask) (s : State) : State :=
  s.checked a [(a.w 16 < 128 || 2097152 < a.w 16 || a.dirty 20 4, 0x0104)] (fun s =>
    (s.cfgMap (fun c => { c with stage := some (Xfer.open_ (a.w 16)) })).done a 0 [])

/-- IMAGE_BEGIN arrives. -/
def execImageBegin (m : Msg) (s : State) : Host.Outcome State Fault Refusal := .next (s.request 2 1 (fun _ => 28) State.serveImageBegin m)

/-- IMAGE_CHUNK (R427). -/
def State.serveImageChunk (a : Ask) (s : State) : State :=
  s.checked a (a.chunkChecks s.hub.cfg.stage) (fun s =>
    (s.cfgMap (fun c => { c with stage := c.stage.map (Xfer.add (a.w 16) (a.bytes 24 (a.h 20))) })).done a 0 [])

/-- IMAGE_CHUNK arrives. -/
def execImageChunk (m : Msg) (s : State) : Host.Outcome State Fault Refusal :=
  .next (s.request 2 2 (fun a => 28 + a.h 20) State.serveImageChunk m)

/-- IMAGE_ABORT (R427). -/
def State.serveImageAbort (a : Ask) (s : State) : State := (s.cfgMap (fun c => { c with stage := none })).done a 0 []

/-- IMAGE_ABORT arrives. -/
def execImageAbort (m : Msg) (s : State) : Host.Outcome State Fault Refusal := .next (s.request 2 4 (fun _ => 20) State.serveImageAbort m)

/-! ### Images (R425, R496, R497) -/

/-- The header of a configuration image is recognised (R425); its LENGTH is that of the bytes. -/
def cfgHeaderOk (b : List Byte) : Bool :=
  u32 b 0 = 0x43465450 && u16 b 4 = 1 && byteAt b 6 ≤ 1 && (byteAt b 7 = 1 || byteAt b 7 = 2) && u32 b 8 = b.length &&
    128 ≤ b.length && b.length ≤ 2097152

/-- The signature of an image: identifier and signature n of its signature area (R425). -/
def cfgSig (b : List Byte) (n : Nat) : List Byte × List Byte :=
  let o := b.length - 96 * byteAt b 7 + 96 * n
  (slice b o 8, slice b (o + 8) 64)

/-- A key identifier (R496). -/
def keyId (k : List Byte) : List Byte := (Config.sha512 k).take 8

/-- A signature of a digest by a key, under the key's identifier. -/
def sigBy (digest key : List Byte) (s : List Byte × List Byte) : Bool := s.1 = keyId key && Config.ed25519Ok key digest s.2

/-- A configuration image verifies (R497). -/
def State.cfgVerify (b : List Byte) (s : State) : Bool :=
  let d := cfgDigest b
  (Config.issuingKeys s.fwImg).any (fun k => sigBy d k (cfgSig b 0)) &&
    (match s.hub.flash.owner with
     | some k => byteAt b 7 = 2 && sigBy d k (cfgSig b 1)
     | none => byteAt b 7 = 1)

/-- COMBINE of an image is GUARDED (R50, R425). -/
def guarded (b : List Byte) : Bool := byteAt b 6 = 1

/-! ### CONFIG_COMMIT (R428) -/

/-- The first check of R428 that a staged image fails: status and payload. -/
def State.commitRefusal (dry : Bool) (tag : List Byte) (s : State) : Option (Nat × List Byte) :=
  match s.hub.cfg.stage with
  | none => some (0x0117, [])
  | some x =>
    let b := x.bytes
    if !x.full then some (0x0110, [])
    else if !cfgHeaderOk b then some (0x0111, [])
    else if !s.cfgVerify b then some (0x0112, [])
    else if tag.any (· ≠ 0#8) && tag ≠ (cfgDigest b).take 8 then some (0x0113, [])
    else if !dry && !s.stopped then some (0x0102, [])
    else if !dry && !s.reaches bothHalves then some (0x0103, [])
    else
      let im := Image.ofBytes b
      let (c, pool) := s.configure im
      let errs := c.rangeErrs im
      let hits := c.clashes im
      let off := if guarded b then c.unapproved im.approved im.expert else []
      if !errs.isEmpty then some (0x0114, sortedPayload (errs.map (·.entry b)))
      else if !hits.isEmpty then some (0x0115, sortedPayload (hits.map clashEntry))
      else if !off.isEmpty then some (0x0101, comboPayload off)
      else pool.map (fun p => (p, []))

/-- FLAGS and reserved bytes of CONFIG_COMMIT lie in range (R426). -/
def Ask.commitOk (a : Ask) : Bool := a.b 16 ≤ 1 && !a.dirty 17 7

/-- CONFIG_COMMIT without DRY_RUN (R428): checked here, applied at the next frame tick. -/
def State.serveCommit (a : Ask) (s : State) : State :=
  s.checked a [(!a.commitOk, 0x0104)] (fun s =>
    match s.commitRefusal false (a.bytes 24 8) with
    | some (st, p) => s.done a st p
    | none => s.cfgMap (fun c => { c with apply := c.apply ++ [((c.stage.map Xfer.bytes).getD [], a.seq)] }))

/-- CONFIG_COMMIT with DRY_RUN (R428): ends after the checks. -/
def State.serveDryRun (a : Ask) (s : State) : State :=
  s.checked a [(!a.commitOk, 0x0104)] (fun s =>
    match s.commitRefusal true (a.bytes 24 8) with
    | some (st, p) => s.done a st p
    | none => s.done a 0 [])

/-- CONFIG_COMMIT with DRY_RUN clear arrives; a message with bit 0 of FLAGS set is the other row's. -/
def execConfigCommit (m : Msg) (s : State) : Host.Outcome State Fault Refusal :=
  if byteAt m.payload 0 % 2 = 1 then .next s else .next (s.request 2 3 (fun _ => 36) State.serveCommit m)

/-- CONFIG_COMMIT with DRY_RUN set arrives. -/
def execConfigDryRun (m : Msg) (s : State) : Host.Outcome State Fault Refusal :=
  if byteAt m.payload 0 % 2 = 0 then .next s else .next (s.request 2 3 (fun _ => 36) State.serveDryRun m)

/-- Every MB3 and MB4 request that is outstanding completes with CANCELLED; their work ends (R429). -/
def State.cancelExpert (s : State) : State :=
  let mine := s.hub.link.reqs.filter (fun r => r.mb = 3 || r.mb = 4)
  let s1 := s.hubMap (fun u => { u with
    jobs := u.jobs.filter (fun j => j.mb ≠ 3), cal := { u.cal with align := none, twist := none, diags := [], res := [] } })
  eachOf mine (fun r t => t.finish r.mb r.seq 0x0105 []) s1

/-- An image is in force from this tick (R428, R429): the hub's and the halves' configuration, and its event log entry. -/
def State.putInForce (b : List Byte) (s : State) : State :=
  let im := Image.ofBytes b
  let d := cfgDigest b
  let s1 := (s.configure im).1
  let mark (h : Half) : Half := { h with cfg := { h.cfg with dig := some d } }
  let s2 : State := { s1 with a := mark s1.a, b := mark s1.b }
  (s2.cfgMap (fun c => { c with bytes := some b, img := im, guard := guarded b, frame := s2.hub.frame })).flush

/-- The wheel sensor supplies switch on; SS00 to SS23 start in ascending order (R489). -/
def State.bringUp (s : State) : State := s.pwrMap (fun p => { p with wheel := true, queue := idxs 24, stepAt := s.now })

/-- A commit's image stands in the hub and in both halves: no fallback, no mismatch; out of NO_CONFIG the module goes to READY
(log 32). -/
def State.afterCommit (s : State) : State :=
  let s1 := s.bootMap (fun b => { b with cfgFall := false, cfgMis := false })
  if s.hub.boot.stage = 5 then (s1.bootMap (fun b => { b with stage := 4 })).bringUp else s1

/-- The commits that wait for the tick are applied; their flash writes begin (R428, R429). The kept backup entries are
staged content too and go with it. -/
def State.applyCommits (s : State) : State :=
  eachOf s.hub.cfg.apply (fun x t =>
    let t1 := ((t.cancelExpert).linkMap (fun l => { l with backup := [] })).putInForce x.1
    let t2 := (t1.log 0x20 0 0 t1.hub.frame ((cfgDigest x.1).take 12)).afterCommit
    t2.cfgMap (fun c => { c with write := c.write ++ [x] })) (s.cfgMap (fun c => { c with apply := [] }))

/-- The flash write of an applied image ends (R428): the store keeps the newest two images (R504). -/
def execConfigFlashWriteDone (ok : Bool) (s : State) : Host.Outcome State Fault Refusal :=
  match s.hub.cfg.write with
  | [] => .next s
  | (b, seq) :: t =>
    if !s.hubOn then .next s else
    let s1 := s.cfgMap (fun c => { c with write := t })
    let s2 := if ok then s1.flashMap (Flash.putImage b) else s1
    .next (s2.finish 2 seq (if ok then 0 else 0x0116) [])

/-! ### Reads and LINK_SET -/

/-- CONFIG_READ: NO_IMAGE without a committed image; PARAM_RANGE beyond its end. -/
def State.serveConfigRead (a : Ask) (s : State) : State :=
  let o := a.w 16
  let n := a.h 20
  let b := (s.hub.cfg.bytes).getD []
  s.checked a [(n < 4 || 992 < n || a.dirty 22 2, 0x0104), (s.hub.cfg.bytes.isNone, 0x0117), (b.length < o + n, 0x0104)] (fun s =>
    s.done a 0 (le 4 o ++ le 2 n ++ zeros 2 ++ slice b o n))

/-- CONFIG_READ arrives. -/
def execConfigRead (m : Msg) (s : State) : Host.Outcome State Fault Refusal := .next (s.request 2 5 (fun _ => 28) State.serveConfigRead m)

/-- The payload of CONFIG_INFO (R426). -/
def State.configInfo (s : State) : List Byte :=
  let c := s.hub.cfg
  let (st, n) := match c.stage with
    | none => (0, 0)
    | some x => (if x.full then 2 else 1, x.got)
  ((s.cfgDig.getD []) ++ zeros 64).take 64 ++ le 1 (bit c.guard) ++ le 1 st ++ zeros 2 ++ leW c.frame ++ le 4 (c.bytes.getD []).length ++ le 4 n

/-- CONFIG_INFO arrives. -/
def execConfigInfo (m : Msg) (s : State) : Host.Outcome State Fault Refusal :=
  .next (s.request 2 6 (fun _ => 20) (fun a s => s.done a 0 s.configInfo) m)

/-- LINK_SET (R431): work for the next frame tick; COMBINE checks BACKUP_EN alone. -/
def State.serveLinkSet (a : Ask) (s : State) : State :=
  let cnt := a.b 16
  let t := a.h 18
  let back := a.b 20 = 1
  let off := (s.linkMap (fun l => { l with cfg := { l.cfg with backupEn := back } })).combineBad
  s.checked a [(cnt < 1 || 32 < cnt || 2 < a.b 17 || t < 50 || 2000 < t || 1 < a.b 20 || a.dirty 21 3, 0x0104)] (fun s =>
    if !off.isEmpty then s.done a 0x0101 (comboPayload off)
    else s.hubMap (fun u => { u with jobs := u.jobs ++ [⟨2, a.seq, [], [.link cnt (a.b 17) t back]⟩] }))

/-- LINK_SET arrives. -/
def execLinkSet (m : Msg) (s : State) : Host.Outcome State Fault Refusal := .next (s.request 2 7 (fun _ => 28) State.serveLinkSet m)

end Sys2Proof.Machine
end

