-- ==== Sys2Proof/Machine/Expert.lean ====
section
/-! DEFINITION. Mailbox 3: Expert access (R46 to R48, R52, R139, R162 to R165, R178, R201, R219, R289, R334, R361, R433 to R440). -/

namespace Sys2Proof.Machine

open Sys2Proof

/-! ### Shared checks -/

/-- The half of a HALF byte needs to be reached; a byte that names no half fails later, as a range (R416). -/
def State.noHalf (v : Nat) (s : State) : Bool := v ≤ 1 && !s.reach (halfOf v)

/-- LEVEL_REFUSED for a function at Basic level (R47, R433). -/
def State.levelCheck (f : Nat) (s : State) : Bool × Nat := (s.basic f, 0x0100)

/-- A change refused by COMBINE (R52), else carried out. -/
def State.combined (a : Ask) (cand : State) (ok : State → State) (s : State) : State :=
  let off := cand.combineBad
  if off.isEmpty then ok s else s.done a 0x0101 (comboPayload off)

/-! ### Slots (R434) -/

/-- A slot held at Expert level: the channel that armed it. -/
def Slot.armed (x : Slot) : Option Nat := match x.holder with | .expert ch => some ch | _ => none

/-- SLOT_ARM (R163, R164, R199). -/
def State.serveSlotArm (a : Ask) (s : State) : State :=
  let ch := a.b 16
  let id : HalfId := if ch < 48 then .A else .B
  match fin? 48 (ch % 48) with
  | none => s
  | some m =>
    s.checked a [s.levelCheck 0, (ch < 96 && !s.reach id, 0x0103), (96 ≤ ch || 1 < a.b 17 || a.dirty 18 2, 0x0104),
      ((s.half id).oddDrive m, 0x0124)] (fun s =>
      let (h, r) := (s.half id).grant m (.expert m.1)
      match r with
      | .inl st =>
        let b := bankOf m
        let h1 : Half := { h with banks := upd h.banks b (fun x => { x with refused := sat 12 (x.refused + 1) }) }
        ((s.setHalf (h1.raise 0x1C (locChan id m.1)) id).flush).done a st []
      | .inr k =>
        let w4 := put ch 7 25 ||| put (a.b 17) 1 24
        let h1 := h.slotMap k (fun x => { x with c := { x.c with w4 := w4 }, base := { x.base with w4 := w4 } })
        (s.setHalf h1 id).done a 0 (le 1 id.num ++ zeros 1 ++ le 2 k.1))

/-- SLOT_ARM arrives. -/
def execSlotArm (m : Msg) (s : State) : Host.Outcome State Fault Refusal := .next (s.request 3 1 (fun _ => 24) State.serveSlotArm m)

/-- A slot command names a slot held at Expert level in a half (R434): the checks, then what it does. -/
def State.slotCmd (a : Ask) (range : List (Bool × Nat)) (ok : HalfId → Fin 1024 → Nat → State → State) (s : State) : State :=
  let k := a.h 18
  let id := halfOf (a.b 16)
  s.checked a ([s.levelCheck 0, (s.noHalf (a.b 16), 0x0103), (1 < a.b 16 || a.dirty 17 1 || 1024 ≤ k, 0x0104)] ++ range) (fun s =>
    match fin? 1024 k with
    | none => s
    | some k =>
      match ((s.half id).slots.get k).armed with
      | none => s.done a 0x0123 []
      | some ch => ok id k ch s)

/-- The five words of content at byte 20. -/
def Ask.content (a : Ask) : SlotC := ⟨a.reg 20, a.reg 24, a.reg 28, a.reg 32, a.reg 36⟩

/-- The ranges of SLOT_WRITE's content (R159, R160, R204, R277, R434): reserved bits, action, CYL, PULSE WIDTH, TRIG line. -/
def Half.contentBad (h : Half) (c : SlotC) : Bool :=
  c.mask ≠ c || 7 ≤ c.action || 96 ≤ c.ch || (c.action ≠ 0 && (c.cyl < 1 || 24 < c.cyl)) || (c.action = 3 && c.w2.toNat < 8) ||
    (c.action = 6 && !h.trigLine c.arg)

/-- A pair's GAIN would take a threshold of a profile, or of the one SHORTEN puts in its place, above 4095 mV (R213): as it stands in the
store or as it is staged. -/
def Half.gainBad (h : Half) (p : Fin 24) (i : Nat) : Bool :=
  let g := drvPairGain (h.pairs.get p).pair
  (h.profsOf i).any (fun pw => !gainOk g pw || (shortOf pw).any (fun j => (h.profsOf j).any (fun q => !gainOk g q)))

/-- SLOT_WRITE (R178, R202, R213, R217, R434): staged for the next commit of the cylinder. -/
def State.serveSlotWrite (a : Ask) (s : State) : State :=
  let c := a.content
  let h := s.half (halfOf (a.b 16))
  s.slotCmd a [(h.contentBad c, 0x0104)] (fun id k ch s =>
    s.checked a [(c.ch ≠ chanNum id ch || !actFits (outCfgSrc (h.chans.get c.chan).out) c.action, 0x0124),
      (c.action = 4 && (!h.profValid c.prof || h.gainBad c.pair c.prof), 0x0125)] (fun s =>
      (s.setHalf ((s.half id).slotMap k (fun x => { x with staged := some c })) id).done a 0 []))

/-- SLOT_WRITE arrives. -/
def execSlotWrite (m : Msg) (s : State) : Host.Outcome State Fault Refusal := .next (s.request 3 2 (fun _ => 44) State.serveSlotWrite m)

/-- SLOT_FREE (R165, R434): at once when EMPTY or DONE, else at the slot's release. -/
def State.serveSlotFree (a : Ask) (s : State) : State :=
  s.slotCmd a [] (fun id k _ s =>
    let x := (s.half id).slots.get k
    if x.st = 1 || x.st = 7 then (s.onHalf id (Half.release k)).done a 0 []
    else s.setHalf ((s.half id).slotMap k (fun x => { x with freeSeq := x.freeSeq ++ [a.seq] })) id)

/-- SLOT_FREE arrives. -/
def execSlotFree (m : Msg) (s : State) : Host.Outcome State Fault Refusal := .next (s.request 3 3 (fun _ => 24) State.serveSlotFree m)

/-- The words of content as bytes. -/
def SlotC.bytes (c : SlotC) : List Byte := leW c.w0 ++ leW c.w1 ++ leW c.w2 ++ leW c.w3 ++ leW c.w4

/-- SLOT_READ (R433). -/
def State.serveSlotRead (a : Ask) (s : State) : State :=
  s.slotCmd a [] (fun id k _ s =>
    let x := (s.half id).slots.get k
    s.done a 0 (x.c.bytes ++ leW x.w5 ++ leW x.edgeTs ++ leW x.w7 ++ le 1 (bit x.staged.isSome) ++ zeros 3 ++
      ((x.staged.map SlotC.bytes).getD (zeros 20))))

/-- SLOT_READ arrives. -/
def execSlotRead (m : Msg) (s : State) : Host.Outcome State Fault Refusal := .next (s.request 3 4 (fun _ => 24) State.serveSlotRead m)

/-! ### Profiles (R217 to R219, R435) -/

/-- The profile at byte 20. -/
def Ask.profile (a : Ask) : Vector Word 16 := Vector.ofFn (fun w => a.reg (20 + 4 * w.1) &&& profRw w.1)

/-- Bits of the profile that are reserved and not 0. -/
def Ask.profDirty (a : Ask) : Bool := (idxs 16).any (fun w => a.reg (20 + 4 * w.1) &&& ~~~(profRw w.1) ≠ 0#32)

/-- A half refuses a profile (R209, R211, R213, R218): its thresholds, and those of the profile its SHORT_PROF names, at every pair it is
assigned to. -/
def Half.profRefused (h : Half) (i : Nat) (pw : Vector Word 16) : Bool :=
  !profOk i h.profValid pw ||
    (idxs 24).any (fun p => (h.pairProfiles p).contains i &&
      (pw :: (shortOf pw).flatMap h.profsOf).any (fun q => !gainOk (drvPairGain (h.pairs.get p).pair) q))

/-- PROFILE_WRITE (R219, R435): staged in both halves; an earlier write not copied everywhere is SUPERSEDED. -/
def State.serveProfileWrite (a : Ask) (s : State) : State :=
  s.checked a [s.levelCheck 3, (!s.reaches bothHalves, 0x0103), (31 < a.b 16 || a.dirty 17 3 || a.profDirty, 0x0104),
    (s.a.profRefused (a.b 16) a.profile || s.b.profRefused (a.b 16) a.profile, 0x0125)] (fun s =>
    match fin? 32 (a.b 16) with
    | none => s
    | some i =>
      let old := ((s.a.profNew.get i).map (·.2)).or ((s.b.profNew.get i).map (·.2))
      let s1 := match old with
        | some q => s.finish 3 q 0x0106 []
        | none => s
      let set (h : Half) : Half := { h with profNew := put1 h.profNew i (some (a.profile, a.seq)) }
      { s1 with a := set s1.a, b := set s1.b })

/-- PROFILE_WRITE arrives. -/
def execProfileWrite (m : Msg) (s : State) : Host.Outcome State Fault Refusal :=
  .next (s.request 3 0x10 (fun _ => 88) State.serveProfileWrite m)

/-- No pair of the half is in a phase other than IDLE under a profile (R219). -/
def Half.profIdle (h : Half) (i : Fin 32) : Bool := h.pairs.toList.all (fun p => p.phase = 7 || p.prof ≠ i.1)

/-- A half copies its staged profile into its store (R219); the write completes when both halves have (R433). -/
def State.profileCopy (id : HalfId) (i : Fin 32) (s : State) : State :=
  let h := s.half id
  match h.profNew.get i with
  | none => s
  | some (pw, q) =>
    if !s.live id || !h.profIdle i then s else
    let s1 := s.setHalf { h with profs := put1 h.profs i pw, profNew := put1 h.profNew i none } id
    if (((s1.half id.other).profNew.get i).map (·.2)) = some q then s1 else s1.finish 3 q 0 []

/-- PROFILE_COPY (R219): a copy falls at a frame tick. -/
def execProfileCopy (id : HalfId) (i : Fin 32) (s : State) : Host.Outcome State Fault Refusal :=
  .next (if s.now = s.hub.tick then s.profileCopy id i else s)

/-- PROFILE_READ (R433). -/
def State.serveProfileRead (a : Ask) (s : State) : State :=
  s.checked a [s.levelCheck 3, (s.noHalf (a.b 17), 0x0103), (31 < a.b 16 || 1 < a.b 17 || a.dirty 18 2, 0x0104)] (fun s =>
    s.done a 0 (((s.half (halfOf (a.b 17))).prof (a.b 16)).toList.flatMap leW))

/-- PROFILE_READ arrives. -/
def execProfileRead (m : Msg) (s : State) : Host.Outcome State Fault Refusal :=
  .next (s.request 3 0x11 (fun _ => 24) State.serveProfileRead m)

/-! ### Tracker and twist (R436, R437) -/

/-- BLANK_FRAC of a receiver with a new value for one input; 0 leaves it. -/
def blankWith (h : Half) (inp blank : Nat) (i : Inp) : Word :=
  let w := (h.rcvOf i).cfg1
  if i.ix.1 = inp && blank ≠ 0 then (w &&& ~~~(put 127 7 17)) ||| put blank 7 17 else w

/-- TRACKER_SET would break R64 for some input of a half. -/
def Half.blankBreaks (h : Half) (inp lo blank : Nat) : Bool :=
  let gate := if lo = 0 then trkCfg0GateLo h.trk.cfg0 else lo
  allInps.any (fun i => !blankOk (blankWith h inp blank i) gate)

/-- What TRACKER_SET sets, zeros leaving a value as it is; the tracker uses the values from its next accepted edge (R436). -/
def Half.setTracker (i : Inp) (d lo bl : Nat) (h : Half) : Half :=
  let h1 := h.trkMap (fun t => { t with
    held := some (t.held.getD (trkCfg0PredDepth t.cfg0, trkCfg0GateLo t.cfg0))
    cfg0 :=
      let w := if d = 0 then t.cfg0 else (t.cfg0 &&& ~~~(put 7 3 15)) ||| put d 3 15
      if lo = 0 then w else (w &&& ~~~(put 127 7 8)) ||| put lo 7 8 })
  h1.rcvMap i (fun r => { r with cfg1 := if bl = 0 then r.cfg1 else (r.cfg1 &&& ~~~(put 127 7 17)) ||| put bl 7 17 })

/-- A half as the TRACKER_SETs that wait for the next tick leave it: R64 is held against all of them together. -/
def State.trackerAhead (id : HalfId) (s : State) : Half :=
  (s.hub.jobs.flatMap (·.todo)).foldl (fun h j => match j with
    | .tracker x i d lo bl => if x = id then h.setTracker i d lo bl else h
    | _ => h) (s.half id)

/-- TRACKER_SET (R436): work for the next frame tick of both halves. -/
def State.serveTrackerSet (a : Ask) (s : State) : State :=
  let (inp, d, lo, bl) := (a.b 16, a.b 17, a.b 18, a.b 19)
  let bad := 5 < inp || (d ≠ 0 && (d < 2 || 4 < d)) || (lo ≠ 0 && (lo < 30 || 90 < lo)) || (bl ≠ 0 && bl < 10) || 127 < bl ||
    (s.trackerAhead .A).blankBreaks inp lo bl || (s.trackerAhead .B).blankBreaks inp lo bl
  s.checked a [s.levelCheck 1, (!s.reaches bothHalves, 0x0103), (bad, 0x0104)] (fun s =>
    s.hubMap (fun u => { u with jobs := u.jobs ++ [⟨3, a.seq, [],
      [.tracker .A (Inp.ofCode inp) d lo bl, .tracker .B (Inp.ofCode inp) d lo bl]⟩] }))

/-- TRACKER_SET arrives. -/
def execTrackerSet (m : Msg) (s : State) : Host.Outcome State Fault Refusal :=
  .next (s.request 3 0x20 (fun _ => 24) State.serveTrackerSet m)

/-- A half keeps a weight and an offset until the cylinder's next commit (R140). -/
def Half.twistPend (cyl : Nat) (w : Int) (sOfs : Int) (h : Half) : Half :=
  h.twsMap (fun t => { t with cyl := t.cyl.map (fun c =>
    if c.valid && c.cyl = cyl then { c with pend := some ((c.w &&& 0x0000FFFF#32) ||| putI w 16 16, BitVec.ofInt 32 sOfs) } else c) })

/-- The halves that hold an entry for a cylinder. -/
def State.twistHalves (cyl : Nat) (s : State) : List HalfId := bothHalves.filter (fun id => ((s.half id).entry cyl).isSome)

/-- TWIST_SET (R138 to R140). -/
def State.serveTwistSet (a : Ask) (s : State) : State :=
  let cyl := a.b 16
  let w := signed 16 (a.h 18)
  let v := signed 32 (a.w 20)
  let ids := s.twistHalves cyl
  s.checked a [s.levelCheck 2, (!s.reaches ids, 0x0103), (ids.isEmpty || a.dirty 17 1, 0x0104),
    (w < -8192 || 24576 < w || 131072 < v.natAbs, 0x0126)] (fun s =>
    (eachOf ids (fun id t => t.setHalf ((t.half id).twistPend cyl w v) id) s).done a 0 [])

/-- TWIST_SET arrives. -/
def execTwistSet (m : Msg) (s : State) : Host.Outcome State Fault Refusal := .next (s.request 3 0x21 (fun _ => 28) State.serveTwistSet m)

/-! ### Acquisition (R272, R289, R311, R437) -/

/-- ACQ_SET's item: which of its four rows a message is; an item beyond the last is refused by the first. -/
def acqItem (m : Msg) : Nat := if byteAt m.payload 1 ≤ 3 then byteAt m.payload 1 else 0

/-- What every ACQ_SET checks; `bad` are the ranges of its item, `own` its further conditions. -/
def State.acqSet (a : Ask) (bad : Bool) (own : List (Bool × Nat)) (ok : HalfId → State → State) (s : State) : State :=
  s.checked a ([s.levelCheck 4, (s.noHalf (a.b 16), 0x0103), (1 < a.b 16 || 3 < a.b 17 || a.dirty 19 1 || bad, 0x0104)] ++ own)
    (ok (halfOf (a.b 16)))

/-- Some line of a half names a sequencer in TARGET (R272). -/
def Half.targeted (h : Half) (q : Fin 9) : Bool :=
  h.acq.lines.toList.any (fun l => (targets (trgCfg0Target l.cfg0)).contains q)

/-- ACQ_SET, MASK (R272, R289). -/
def State.serveAcqMask (a : Ask) (s : State) : State :=
  match fin? 9 (a.b 18) with
  | none => s.acqSet a true [] (fun _ s => s)
  | some q =>
    let v := a.w 20
    let top := if q.1 = 0 then 4095 else if q.1 ≤ 6 then 15 else 63
    s.acqSet a (top < v) [(v = 0 && (s.half (halfOf (a.b 16))).targeted q, 0x0127)] (fun id s =>
      let s1 := match ((s.half id).acq.seqs.get q).mask with
        | some (_, old, _) => s.finish 3 old 0x0106 []
        | none => s
      s1.onHalf id (fun h => (h.seqMap q (fun x => { x with mask := some (v, a.seq, a.silent) })).maskApply q))

/-- ACQ_SET with ITEM MASK, or with an item that does not exist, arrives. -/
def execAcqSetMask (m : Msg) (s : State) : Host.Outcome State Fault Refusal :=
  if acqItem m ≠ 0 then .next s else .next (s.request 3 0x30 (fun _ => 28) State.serveAcqMask m)

/-- ACQ_SET, DELAY (R289). -/
def State.serveAcqDelay (a : Ask) (s : State) : State :=
  match fin? 32 (a.b 18) with
  | none => s.acqSet a true [] (fun _ s => s)
  | some t => s.acqSet a (65535 < a.w 20) [] (fun id s =>
      (s.putReg (.trgCfg1 id t) (put (a.w 20) 16 16)).done a 0 [])

/-- ACQ_SET with ITEM DELAY arrives. -/
def execAcqSetDelay (m : Msg) (s : State) : Host.Outcome State Fault Refusal :=
  if acqItem m ≠ 1 then .next s else .next (s.request 3 0x30 (fun _ => 28) State.serveAcqDelay m)

/-- A STEP fits every enabled lane's RES (R311, R437). -/
def Half.stepFits (h : Half) (step : Nat) : Bool := h.ana.lanes.toList.all (fun l => !l.en || resFits (anaCfg0Res (l.cfg.get 0)) step)

/-- ACQ_SET, STEP (R289, R437): in force at the next frame tick. -/
def State.serveAcqStep (a : Ask) (s : State) : State :=
  let id := halfOf (a.b 16)
  s.acqSet a (4 < a.w 20 || !(s.half id).stepFits (a.w 20)) [] (fun id s =>
    (s.halfMap id (Half.acqMap (fun x => { x with aclkNew := some ((x.aclkNew.getD x.aclk &&& 0x8FFFFFFF#32) ||| put (a.w 20) 3 28) }))).done a 0 [])

/-- ACQ_SET with ITEM STEP arrives. -/
def execAcqSetStep (m : Msg) (s : State) : Host.Outcome State Fault Refusal :=
  if acqItem m ≠ 2 then .next s else .next (s.request 3 0x30 (fun _ => 28) State.serveAcqStep m)

/-- ACQ_SET, PERIOD (R289, R303): in force at the next frame tick. -/
def State.serveAcqPeriod (a : Ask) (s : State) : State :=
  match fin? 4 (a.b 18) with
  | none => s.acqSet a true [] (fun _ s => s)
  | some n =>
    let v := a.w 20
    let w := (s.half (halfOf (a.b 16))).acq.tmr.get n
    s.acqSet a (v < 400 || 16777215 < v || (acqTmrFsync w && 8000 % v ≠ 0)) [] (fun id s =>
      (s.halfMap id (Half.acqMap (fun x => { x with
        tmrNew := put1 x.tmrNew n (some ((x.tmr.get n &&& 0xC0000000#32) ||| put v 24 0)) }))).done a 0 [])

/-- ACQ_SET with ITEM PERIOD arrives. -/
def execAcqSetPeriod (m : Msg) (s : State) : Host.Outcome State Fault Refusal :=
  if acqItem m ≠ 3 then .next s else .next (s.request 3 0x30 (fun _ => 28) State.serveAcqPeriod m)

/-! ### Closed loop (R330, R334, R437) -/

/-- CL_REFUSED (R334): the earliest start less LIM_ADV breaks R174, or CMB_END + 6 degrees exceeds the earliest commit angle plus
L; the earliest commit angle is that start less CD (log 33). The lanes are those of both halves. -/
def Half.clRefused (h : Half) (lanes : List Lane) (cyl : Nat) (w1 : Word) : Bool :=
  let adv : Rat := (clCfg1LimAdv w1 : Rat) * 65536 / 100
  let ks := (idxs 24).filter (fun k => schCylValid (h.cyls.get k).cfg && schCylCyl (h.cyls.get k).cfg = cyl)
  let early := (h.cfg.cyls.find? (fun c => c.cyl = cyl)).bind CylCfg.earliest
  ks.any (fun k =>
    let cd : Int := schCylCd (h.cyls.get k).cfg * deg
    match early with
    | none => false
    | some e =>
      ((e - cd : Int) : Rat) - adv < ((-(h.cycLen / 2) : Int) : Rat) ||
      lanes.any (fun l => l.en && l.cyl = cyl &&
        ((anaCfg1CmbEnd (l.cfg.get 1) * 32768 + 6 * deg : Int) : Rat) > ((e - cd + h.cycLen : Int) : Rat) - adv))

/-- The CL_CFG words carry values out of range or reserved bits. -/
def clWordsBad (k : Fin 24) (w0 w1 : Word) : Bool :=
  w0 &&& ~~~clCfg0Rw ≠ 0#32 || w1 &&& ~~~clCfg1Rw ≠ 0#32 || !(fieldBad (.clCfg0 k) w0).isEmpty

/-- A cylinder's loop with new settings (R334): OFF makes the correction zero, a lowered limit clamps it at once. -/
def ClSt.set (w0 w1 : Word) (c : ClSt) : ClSt :=
  let c1 : ClSt := { c with cfg0 := writeRw c.cfg0 w0 clCfg0Rw, cfg1 := writeRw c.cfg1 w1 clCfg1Rw }
  if clCfg0Mode w0 = 0 then { c1 with delta := 0, limit := false, hold := false, frozen := false, last := none }
  else { c1 with delta := c1.clamp c1.delta, limit := { c1 with delta := c1.clamp c1.delta }.atLimit }

/-- CL_SET (R330, R334, R437). -/
def State.serveClSet (a : Ask) (s : State) : State :=
  let cyl := a.b 16
  match fin? 24 (cyl - 1) with
  | none => s.checked a [s.levelCheck 5, (true, 0x0104)] (fun s => s)
  | some k =>
    let (w0, w1) := (a.reg 20, a.reg 24)
    let go (s : State) : State :=
      let lim := (s.hub.cl.get k).limit
      let s1 := (s.hubMap (fun u => { u with cl := upd u.cl k (ClSt.set w0 w1) })).publish k
      if (s1.hub.cl.get k).limit && !lim then s1.raiseHub 0x74 locHub else s1
    s.checked a [s.levelCheck 5, (cyl = 0 || a.dirty 17 3 || clWordsBad k w0 w1, 0x0104),
      (bothHalves.any (fun id => (s.half id).clRefused (s.a.ana.lanes.toList ++ s.b.ana.lanes.toList) cyl w1), 0x0128)] (fun s => State.combined a (go s) (fun s => (go s).done a 0 []) s)

/-- CL_SET arrives. -/
def execClSet (m : Msg) (s : State) : Host.Outcome State Fault Refusal := .next (s.request 3 0x40 (fun _ => 32) State.serveClSet m)

/-! ### Sluice (R359 to R363, R438, R439) -/

/-- The 48 words of a program load. -/
def Ask.program (a : Ask) : List (BitVec 24) := (List.range 48).map (fun i => BitVec.ofNat 24 (u24 a.p (8 + 3 * i)))

/-- The block of an engine of the group: SLE_CFG0, CFG1, CFG2, CLK, TLIM. -/
def Ask.engBlock (a : Ask) (e : Nat) : List Word := (List.range 5).map (fun w => a.reg (168 + 20 * e + 4 * w))

/-- The configurations a load brings, by half-local engine. -/
def Ask.engCfgs (a : Ask) (g : Fin 2) : List (Nat × List Word) :=
  (maskEngs g (a.b 18 % 16)).map (fun e => (e.1, a.engBlock (e.1 % 4)))

/-- Ranges of PROG_LOAD (R363, R433). -/
def Ask.loadBad (a : Ask) : Bool :=
  let force := 128 ≤ a.b 18
  let w := a.h 20
  1 < a.b 16 || 1 < a.b 17 || a.b 18 / 16 % 8 ≠ 0 || a.dirty 19 1 || a.dirty 22 2 || (force && (w < 1 || 1000 < w)) ||
    (List.range 4).any (fun e => !(a.b 18).testBit e && a.dirty (168 + 20 * e) 20)

/-- PROGRAM_REFUSED (R351, R353, R361). -/
def Half.loadRefused (h : Half) (g : Fin 2) (mask : Nat) (img : List (BitVec 24)) (cfgs : List (Nat × List Word)) : Bool :=
  img.any (fun w => !slWordOk w) || !h.slKeeps g mask img ||
    cfgs.any (fun c => !slEngOk img (c.2.getD 0 0#32) (c.2.getD 1 0#32) (c.2.getD 2 0#32) (c.2.getD 3 0#32))

/-- The window pins of the engines a load names. -/
def loadPins (cfgs : List (Nat × List Word)) : List (Fin 8 × Nat) :=
  cfgs.flatMap (fun c => match fin? 8 c.1 with
    | some e => if sleCfg0Valid (c.2.getD 0 0#32) then (slWindow (c.2.getD 1 0#32)).map (fun i => (e, i)) else []
    | none => [])

/-- The half with the pins of a load claimed (R201, R345). -/
def Half.claimAll (pins : List (Fin 8 × Nat)) (h : Half) : Half := eachOf pins (fun x h => h.slClaim x.1 x.2) h

/-- Every pin of a load can be claimed, in order, a pin that two of its engines name not twice. -/
def Half.claimable (pins : List (Fin 8 × Nat)) (h : Half) : Bool :=
  (pins.foldl (fun (st : Half × Bool) x => (st.1.slClaim x.1 x.2, st.2 && st.1.slClaimable x.1 x.2)) (h, true)).2

/-- An earlier PIN_CLAIM of equal rank for another engine waits for the tick with a pin of a load (R201): both are taken in one frame,
and the earlier one is granted. -/
def State.claimWaits (id : HalfId) (pins : List (Fin 8 × Nat)) (s : State) : Bool :=
  s.hub.jobs.any (fun j => match j.todo with
    | [.claim x i 4 e] => x = id && pins.any (fun p => p.2 = i && p.1.1 ≠ e)
    | _ => false)

/-- PROG_LOAD (R361 to R363, R438). -/
def State.serveProgLoad (a : Ask) (s : State) : State :=
  let id := halfOf (a.b 16)
  match fin? 2 (a.b 17) with
  | none => s.checked a [s.levelCheck 6, (s.noHalf (a.b 16), 0x0103), (true, 0x0104)] (fun s => s)
  | some g =>
    let cfgs := a.engCfgs g
    let pins := loadPins cfgs
    let mask := a.b 18 % 16
    let force := 128 ≤ a.b 18
    s.checked a [s.levelCheck 6, (s.noHalf (a.b 16), 0x0103), (a.loadBad, 0x0104),
      ((s.half id).loadRefused g mask a.program cfgs, 0x0129)] (fun s =>
      if !(s.half id).claimable pins || s.claimWaits id pins then
        (s.onHalf id (fun h => h.raise 0x20 (locInp id 7))).done a 0x0124 []
      else
        let go (s : State) : State := s.onHalf id (fun h => (h.claimAll pins).loadShadow g a.program
          ⟨mask, cfgs, force, if force then some (s.now + a.h 20 * etPerMs) else none, (a.seq, a.silent)⟩)
        State.combined a (go s) go s)

/-- PROG_LOAD arrives. -/
def execProgLoad (m : Msg) (s : State) : Host.Outcome State Fault Refusal := .next (s.request 3 0x50 (fun _ => 252) State.serveProgLoad m)

/-- SLUICE_CTL (R359, R438): now, or at the next frame tick under FRAME_ALIGN. -/
def State.serveSluiceCtl (a : Ask) (s : State) : State :=
  let id := halfOf (a.b 16)
  match fin? 2 (a.b 17) with
  | none => s.checked a [s.levelCheck 6, (s.noHalf (a.b 16), 0x0103), (true, 0x0104)] (fun s => s)
  | some g =>
    let align := a.b 19 % 2 = 1
    let w := put (a.b 18) 8 24 ||| put (a.b 19 / 16) 4 20 ||| putB align 19
    s.checked a [s.levelCheck 6, (s.noHalf (a.b 16), 0x0103), (1 < a.b 16 || a.b 19 / 2 % 8 ≠ 0, 0x0104)] (fun s =>
      let s1 := s.onHalf id (fun h => h.slgCtl g w (a.seq, true))
      if align then s1 else s1.done a 0 [])

/-- START_MASK, HALT_MASK and CLKRST_MASK of a SLUICE_CTL message. -/
def ctlMasks (m : Msg) : Nat × Nat × Nat := (byteAt m.payload 2 / 16, byteAt m.payload 2 % 16, byteAt m.payload 3 / 16)

/-- SLUICE_CTL with a START_MASK, or with no mask at all, arrives; the whole message acts. -/
def execSluiceStart (m : Msg) (s : State) : Host.Outcome State Fault Refusal :=
  let (st, ha, cl) := ctlMasks m
  if st = 0 && !(ha = 0 && cl = 0) then .next s else .next (s.request 3 0x51 (fun _ => 24) State.serveSluiceCtl m)

/-- SLUICE_CTL with a HALT_MASK arrives; the whole message acts. -/
def execSluiceHalt (m : Msg) (s : State) : Host.Outcome State Fault Refusal :=
  if (ctlMasks m).2.1 = 0 then .next s else .next (s.request 3 0x51 (fun _ => 24) State.serveSluiceCtl m)

/-- SLUICE_CTL with a CLKRST_MASK arrives; the whole message acts. -/
def execSluiceClockRestart (m : Msg) (s : State) : Host.Outcome State Fault Refusal :=
  if (ctlMasks m).2.2 = 0 then .next s else .next (s.request 3 0x51 (fun _ => 24) State.serveSluiceCtl m)

/-- SLUICE_XFER (R439). -/
def State.serveSluiceXfer (a : Ask) (s : State) : State :=
  let id := halfOf (a.b 16)
  match fin? 8 (a.b 17) with
  | none => s.checked a [s.levelCheck 6, (s.noHalf (a.b 16), 0x0103), (true, 0x0104)] (fun s => s)
  | some e =>
    s.checked a [s.levelCheck 6, (s.noHalf (a.b 16), 0x0103), (1 < a.b 16 || 64 < a.b 18 || 64 < a.b 19, 0x0104)] (fun s =>
      let x := (s.half id).eng e
      let n := min (a.b 18) (64 - x.txb.length)
      let got := x.rxb.take (a.b 19)
      let ws := (List.range n).map (fun i => a.reg (20 + 4 * i))
      (s.halfMap id (Half.sleMap e (fun x => { x with txb := x.txb ++ ws, rxb := x.rxb.drop got.length }))).done a 0
        (le 1 n ++ le 1 got.length ++ zeros 2 ++ got.flatMap leW))

/-- SLUICE_XFER arrives. -/
def execSluiceXfer (m : Msg) (s : State) : Host.Outcome State Fault Refusal :=
  .next (s.request 3 0x52 (fun a => 24 + 4 * a.b 18) State.serveSluiceXfer m)

/-! ### Pins (R201, R440) -/

/-- A pin of KIND and INDEX: its half and pin index (R345). -/
def pinOf (kind idx : Nat) : HalfId × Nat :=
  if kind = 0 then (if idx < 48 then .A else .B, 16 + idx % 48) else (if idx < 16 then .A else .B, idx % 16)

/-- KIND and INDEX lie in range. -/
def pinBad (kind idx : Nat) : Bool := 1 < kind || (if kind = 0 then 96 else 32) ≤ idx

/-- The run-time claim of a pin index. -/
def Half.pinClaim (h : Half) (i : Nat) : Option (Nat × Nat) :=
  match fin? 16 i, fin? 48 (i - 16) with
  | some n, _ => (h.slu.pins.get n).claim
  | none, some m => (h.chans.get m).claim
  | none, none => none

/-- Set the run-time claim of a pin index. -/
def Half.setClaim (i : Nat) (c : Option (Nat × Nat)) (h : Half) : Half :=
  match fin? 16 i, fin? 48 (i - 16) with
  | some n, _ => { h with slu := { h.slu with pins := upd h.slu.pins n (SlPin.claimBy c) } }
  | none, some m => (h.chanMap m (fun x => { x with claim := c })).settle1 m
  | none, none => h

/-- PIN_CLAIM (R201, R440): decided with the others of its frame at the next tick. -/
def State.servePinClaim (a : Ask) (s : State) : State :=
  let (kind, idx, rank, eng) := (a.b 16, a.b 17, a.b 18, a.b 19)
  let (id, i) := pinOf kind idx
  s.checked a [(rank = 4 && s.basic 6, 0x0100), (!pinBad kind idx && !s.reach id, 0x0103),
    (pinBad kind idx || (rank ≠ 4 && rank ≠ 5) || (rank = 4 && eng / 8 ≠ id.num) || (rank = 5 && eng ≠ 0), 0x0104)] (fun s =>
    s.hubMap (fun u => { u with jobs := u.jobs ++ [⟨3, a.seq, [], [.claim id i rank (eng % 8)]⟩] }))

/-- PIN_CLAIM arrives. -/
def execPinClaim (m : Msg) (s : State) : Host.Outcome State Fault Refusal := .next (s.request 3 0x60 (fun _ => 24) State.servePinClaim m)

/-- A pin lies in a window of a RUNNING engine (R440). -/
def Half.inWindow (h : Half) (i : Nat) : Bool := (idxs 8).any (fun e => (h.eng e).st = 2 && (slWindow (h.eng e).cfg1).contains i)

/-- PIN_RELEASE (R201, R440). -/
def State.servePinRelease (a : Ask) (s : State) : State :=
  let (id, i) := pinOf (a.b 16) (a.b 17)
  let bad := pinBad (a.b 16) (a.b 17)
  s.checked a [(!bad && !s.reach id, 0x0103), (bad || a.dirty 18 2, 0x0104), ((s.half id).inWindow i, 0x0124)] (fun s =>
    (s.onHalf id (Half.setClaim i none)).done a 0 [])

/-- PIN_RELEASE arrives. -/
def execPinRelease (m : Msg) (s : State) : Host.Outcome State Fault Refusal :=
  .next (s.request 3 0x61 (fun _ => 24) State.servePinRelease m)

/-- Rank 5 holds a pin: by the configuration or by a claim (R201, R440). -/
def Half.isGpio (h : Half) (i : Nat) : Bool :=
  (h.pinOwner i).any (fun o => o.1 = 5) || ((h.pinOwner i).isNone && (h.pinClaim i).any (fun c => c.1 = 5))

/-- GPIO_SET (R440): work for the next frame tick. -/
def State.serveGpioSet (a : Ask) (s : State) : State :=
  let (kind, idx, lvl, oe) := (a.b 16, a.b 17, a.b 18, a.b 19)
  let (id, i) := pinOf kind idx
  let bad := pinBad kind idx
  s.checked a [(!bad && !s.reach id, 0x0103), (bad || 1 < lvl || 1 < oe || (kind = 0 && oe ≠ 0), 0x0104),
    (!(s.half id).isGpio i, 0x0124)] (fun s =>
    let job : List Job := match fin? 16 i, fin? 48 (i - 16) with
      | some n, _ => [.gpioSl id n (lvl = 1) (oe = 1)]
      | none, some m => [.gpioEv id m (lvl = 1)]
      | none, none => []
    s.hubMap (fun u => { u with jobs := u.jobs ++ [⟨3, a.seq, [], job⟩] }))

/-- GPIO_SET arrives. -/
def execGpioSet (m : Msg) (s : State) : Host.Outcome State Fault Refusal := .next (s.request 3 0x62 (fun _ => 24) State.serveGpioSet m)

/-! ### The work of a frame tick (R421, R431, R436, R440) -/

/-- A pin index is free for a run-time claim (R201). -/
def Half.pinFree (h : Half) (i : Nat) : Bool := (h.pinOwner i).isNone && (h.pinClaim i).isNone

/-- A pin claim at the tick: the claim taken, or the status of its refusal (R201, R440). A claim of the engine that already holds the pin
at run time, as through a program load taken after it in the same frame, is granted. -/
def State.takeClaim (id : HalfId) (i rank eng : Nat) (s : State) : State × Nat × List Byte :=
  if rank = 4 && (s.half id).pinClaim i = some (4, eng) && ((s.half id).pinOwner i).isNone then (s, 0, []) else
  if !(s.half id).pinFree i then (s.onHalf id (fun h => h.raise 0x20 (if i < 16 then locInp id 7 else locChan id (i - 16))), 0x0124, []) else
  let s1 := s.onHalf id (Half.setClaim i (some (rank, if rank = 4 then eng else 0)))
  let off := s1.combineBad
  if off.isEmpty then (s1, 0, []) else (s, 0x0101, comboPayload off)

/-- One piece of work. -/
def State.doJob (j : Job) (s : State) : State :=
  match j with
  | .dir id ast => s.onHalf id (Half.commandDir ast)
  | .tracker id i d lo bl => s.onHalf id (Half.setTracker i d lo bl)
  | .gpioEv id m lvl => s.onHalf id (fun h =>
      (h.chanMap m (fun c => { c with out := (c.out &&& ~~~(putB true 25)) ||| putB lvl 25 })).settle1 m)
  | .gpioSl id n lvl oe => s.onHalf id (fun h => { h with slu := { h.slu with pins := upd h.slu.pins n (fun p =>
      { p with cfg := (p.cfg &&& ~~~(put 3 2 19)) ||| putB lvl 20 ||| putB oe 19 }) } })
  | .claim .. => s
  | .link cnt note t back => s.linkMap (fun l => { l with cfg := { l.cfg with modCnt := cnt, notify := note, modTime := t, backupEn := back } })

/-- The rank of a run-time claim's work; other work comes first. -/
def JobRun.rank (j : JobRun) : Nat := match j.todo with | [.claim _ _ r _] => r | _ => 0

/-- The work of one request, and its completion. -/
def State.runJob (j : JobRun) (s : State) : State :=
  match j.todo with
  | [.claim id i r e] =>
    let (s1, st, p) := s.takeClaim id i r e
    s1.finish j.mb j.seq st p
  | _ => (eachOf j.todo State.doJob s).finish j.mb j.seq 0 j.ans

/-- All work that waited for the tick; of the frame's claims those of higher rank first (R201). -/
def State.runJobs (s : State) : State :=
  let js := s.hub.jobs
  eachOf (js.filter (fun j => j.rank = 0) ++ js.filter (fun j => j.rank = 4) ++ js.filter (fun j => j.rank = 5)) State.runJob
    (s.hubMap (fun u => { u with jobs := [] }))

end Sys2Proof.Machine
end

