-- ==== Sys2Proof/Machine/Sense.lean ====
section
/-! DEFINITION. The commands of analog acquisition and the analysis lanes (R268 to R323), with the costs and calibration
samples that their records give (R149, R244, R245). -/

namespace Sys2Proof.Machine

open Sys2Proof

/-- The angle clock reaches a multiple of STEP (R278). -/
def execAngleClockTrigger (id : HalfId) (s : State) : Host.Outcome State Fault Refusal :=
  .next (s.due id Half.aclkNext Half.aclkFire)

/-- An acquisition timer expires (R280). -/
def execAcqTimerExpire (id : HalfId) (n : Fin 4) (s : State) : Host.Outcome State Fault Refusal :=
  .next (s.due id (fun h => if acqTmrEn (h.acq.tmr.get n) then some (h.acq.tmrAt.get n) else none) (Half.timerExpire n))

/-- A sample of PROBE (R149): e, the conditions and tau_app at the midpoint in time of the crossings, as the last recomputation at or before it
left them; e lies within the revolution of TDC (log 22). -/
def State.probeSample (id : HalfId) (t : TwistRun) (t1 : Nat) (s : State) : State :=
  let h := s.half id
  let tm : Rat := ((t1 + h.now : Nat) : Rat) / 2
  let done (keep : Bool) (x : List CalSmp) : State :=
    (s.calMap (fun c => { c with twist := some { t with rise := none, smps := if keep then t.smps ++ x else t.smps } })).setHalf
      (h.twsMap (fun t => { t with trail := [] })) id
  match t.cyls.head?.bind (fun c => (h.entry c).map (fun k => (c, k))), h.tws.trail.find? (fun p => ((p.at_ : Nat) : Rat) ≤ tm) with
  | some (cyl, k), some p =>
    let mid : Rat := (p.pres.get k : Rat) + (p.inc : Rat) * (tm - (p.at_ : Nat)) / 2 ^ 24
    let rev : Rat := 360 * 65536
    let e := mid - rev * ((mid + rev / 2) / rev).floor
    done p.keep [⟨cyl, if p.ast then -e else e, p.tau⟩]
  | _, _ => done false []

/-- A crossing on the probe's input (R149). -/
def State.probe (id : HalfId) (g : Fin 12) (rising : Bool) (s : State) : State :=
  match s.hub.cal.twist with
  | none => s
  | some t =>
    if !t.probe || t.gp ≠ 12 * id.num + g.1 then s
    else if rising then
      let h := s.half id
      (s.calMap (fun c => { c with twist := some { t with rise := some h.now } })).setHalf
        (h.twsMap (fun t => { t with trail := [h.twsPt] })) id
    else match t.rise with
      | some t1 => s.probeSample id t t1
      | none => s

/-- A crossing comparator records a crossing (R297). -/
def execCrossing (id : HalfId) (g : Fin 12) (rising : Bool) (dt : Nat) (s : State) : Host.Outcome State Fault Refusal :=
  let s1 := (s.advance dt).act id (Half.crossing g rising)
  .next (if s1.live id && xcCfgEn ((s1.half id).acq.xc.get g).cfg then s1.probe id g rising else s1)

/-- A trigger's DELAY runs out (R279). -/
def execTriggerDelayExpire (id : HalfId) (t : Fin 32) (s : State) : Host.Outcome State Fault Refusal :=
  .next (s.due id (fun h => (firstDue (h.acq.lines.get t).stage).map (·.req)) (Half.delayEnds t))

/-- A sequence time runs out (R285). -/
def execSequenceEnd (id : HalfId) (q : Fin 9) (s : State) : Host.Outcome State Fault Refusal :=
  .next (s.due id (fun h => (h.acq.seqs.get q).run.map (·.endAt)) (Half.seqEnd q))

/-- V_IN of the frame tick at or before an instant as a half has it (R244). -/
def Led.vInAt (l : Led) (t : Nat) : Nat := ((l.vIns.find? (fun x => x.1 ≤ t)).map (·.2)).getD l.vIn

/-- Another pair on the reservoir, or the pair in a later opening, was in BOOST between two instants (R245). -/
def State.boostIn (id : HalfId) (m : Meas) (tb ta : Nat) (s : State) : Bool :=
  bothHalves.any (fun j => (s.half j).led.meas.any (fun x =>
    x.res = m.res && (j ≠ id || x.pair ≠ m.pair || m.bst < x.bst) && x.bst ≤ ta && x.bstEnd.all (tb ≤ ·)))

/-- A measured cost (R243 to R245): what becomes of it. `lv` is the sample after the opening in V, `ta` its instant; the kill latch
counts between the two samples. COST_OVERLAP and COST_IMPLAUSIBLE reach the hub as the half's path allows (R460). -/
def State.costDone (id : HalfId) (m : Meas) (lv : Rat) (ta : Nat) (s : State) : State :=
  let h := s.half id
  let r := h.led.res.get (resIx m.res)
  match m.vb with
  | none => s
  | some (vb, tb) =>
    let e : Rat := (resCfg0Cap r.c0 : Rat) / 1000000 / 2 * (vb * vb - lv * lv) +
      r.power (h.led.vInAt tb) * ((ta - tb : Nat) : Rat) / 800000000
    let cost := h.learned m.pair m.prof
    let latched := tb < m.freeAt || m.latchAt.any (· ≤ ta)
    if m.drop || latched then s
    else if s.boostIn id m tb ta then s.setHalf (h.raise 0x6D (locChan id (2 * m.pair))) id
    else if e < cost / 4 || e > 4 * cost then s.setHalf (h.raise 0x6E (locChan id (2 * m.pair))) id
    else s.setHalf (h.learn m.pair m.prof e) id

/-- A sample of a half's input reaches a half (R255): its own, or by relay over the Leat or the hub. -/
def State.relays (src id : HalfId) (s : State) : Bool := src = id || (s.half id).links.leat.up || (s.reach src && s.reach id)

/-- A new sample of a reservoir's input (R244): a later V_b, or the end of the measurements that waited for it. A BOOST that is over
stays as long as a measurement's t_b may still lie in it. -/
def State.costs (src : HalfId) (id : HalfId) (s : State) : State :=
  if !s.relays src id then s else
  let last (m : Meas) : Option (Rat × Nat) :=
    let (sh, i) := resInput ((s.half id).led.res.get (resIx m.res)).c0
    let l := (s.half src).acq.last.get i
    if sh ≠ src then none else l.hold.map (fun t => (voltsOf i.1 ((s.half src).acq.ain.get i) l.code, t))
  let ready (m : Meas) : Option (Rat × Nat) :=
    let r := (s.half id).led.res.get (resIx m.res)
    match m.bstEnd, last m with
    | some e, some (v, t) => if !m.done && t ≥ e + resCfg2ResSettle r.c2 * etPerUs then some (v, t) else none
    | _, _ => none
  let ms := (s.half id).led.meas.map (fun m => if m.done || (last m).isNone then m else { m with vb := s.vbOf id m })
  let kept := (ms.map (fun m => { m with done := m.done || (ready m).isSome })).filter (fun m =>
    !m.done || (match last m, m.bstEnd with | some x, some e => decide (x.2 ≤ e) | _, _ => true) ||
      ms.any (fun y => y.res = m.res && !y.done && (ready y).isNone && y.bst ≠ m.bst) ||
      (s.half id.other).led.meas.any (fun y => y.res = m.res && !y.done))
  let s0 := s.setHalf { (s.half id) with led := { (s.half id).led with meas := ms } } id
  let s1 := ms.foldl (fun s m => match ready m with
    | some (v, t) => s.costDone id m v t
    | none => s) s0
  s1.setHalf { (s1.half id) with led := { (s1.half id).led with meas := kept } } id

/-- A conversion record is written (R290), with the voltages at the converted inputs and the sensor supplies of those that convert by
RATIO in microvolts, in order of position. -/
def execConversionRecordWrite (id : HalfId) (q : Fin 9) (v : ConvIn) (s : State) : Host.Outcome State Fault Refusal :=
  let due (h : Half) : Option Nat := (h.acq.seqs.get q).toWrite.head?.map (Run.doneAt q.1)
  if !s.live id || (due (s.half id)).isNone then .next s
  else .next ((((s.due id due (Half.writeRecord q v.volts v.vss)).costs id .A).costs id .B).flush)

/-- A result stage is complete and is filed (R322, R323, R325). -/
def State.fileStage (id : HalfId) (j : Fin 12) (r : ResOut) (s : State) : State :=
  s.act id (fun h => if r.imep then h.fileImep j r else h.fileCmb j r)

/-- The result of a stage that a lane has and has not filed. -/
def Lane.result (l : Lane) (stage : Stage) : Option ResOut := l.results.find? (fun r => r.imep = decide (stage = .imep))

/-- A result stage of a lane becomes complete (R323) and is filed (R325); a window that still waits for a valid neighbour waits no longer
(R314, log 114). -/
def execResultsComplete (id : HalfId) (j : Fin 12) (stage : Stage) (s : State) : Host.Outcome State Fault Refusal :=
  if !s.live id then .next s else
  match ((s.half id).ana.lanes.get j).result stage with
  | some r => .next (s.fileStage id j r)
  | none =>
    let s1 := s.act id (Half.closeNow j)
    match ((s1.half id).ana.lanes.get j).result stage with
    | some r => .next (s1.fileStage id j r)
    | none => .next s1

/-- At a frame tick the results whose 200 us end before the next tick are complete (R323). -/
def State.stagesDue (s : State) : State :=
  let soon (t : State) (at_ : Nat) : Bool := at_ + 160000 < t.now + 8000
  eachOf bothHalves (fun id t => eachIdx 12 (fun j t =>
    let t1 := if (((t.half id).ana.lanes.get j).waitsSince t.now).any (soon t) then t.act id (Half.closeNow j) else t
    eachOf (((t1.half id).ana.lanes.get j).results.filter (fun r => soon t1 r.at_)) (State.fileStage id j) t1) t) s

/-- A reference stays within its window long enough (R275). -/
def execRefOkSet (id : HalfId) (r : RefId) (mv : Nat) (s : State) : Host.Outcome State Fault Refusal :=
  .next (s.act id (Half.refSet r mv))

/-- A reference has left its window for 10 us (R275). -/
def execRefOkClear (id : HalfId) (r : RefId) (mv : Nat) (s : State) : Host.Outcome State Fault Refusal :=
  .next (s.act id (Half.refClear r mv))

/-- A calibration step begins (R294), CAL_INT after the one before: background of the half's steward, so none in a frame in which it runs none (R39, R40). -/
def execCalStepStart (id : HalfId) (g : Grp) (s : State) : Host.Outcome State Fault Refusal :=
  .next (if s.hub.noBg.get id.stew then s else s.due id (Half.calNextAt (grpIx g)) (Half.calStart (grpIx g)))

/-- The spare takes over (R295), no earlier than 200 ns after the step began. -/
def execCalTakeover (id : HalfId) (g : Grp) (s : State) : Host.Outcome State Fault Refusal :=
  .next (s.due id (fun h => if (h.acq.grps.get (grpIx g)).stage = 1 then some ((h.acq.grps.get (grpIx g)).start + 160) else none)
    (Half.calTakeover (grpIx g)))

/-- Takeover has not happened within 64 frames (R295). -/
def execCalStepLate (id : HalfId) (g : Grp) (s : State) : Host.Outcome State Fault Refusal :=
  .next (s.due id (fun h => (h.acq.grps.get (grpIx g)).lateAt) (Half.calLate (grpIx g)))

/-- The conversions of a calibration step finish (R296). -/
def execSliceCalDone (id : HalfId) (g : Grp) (ofsPpm gainPpm : Int) (s : State) : Host.Outcome State Fault Refusal :=
  .next (s.act id (Half.calResult (grpIx g) ofsPpm gainPpm))

/-- Handback (R295). -/
def execCalHandback (id : HalfId) (g : Grp) (s : State) : Host.Outcome State Fault Refusal :=
  .next (s.due id (fun h => if (h.acq.grps.get (grpIx g)).stage = 3 then some ((h.acq.grps.get (grpIx g)).endAt + 160) else none)
    (Half.calHandback (grpIx g)))

/-- A test of the test DAC finishes (R298). -/
def execTdacVerdict (id : HalfId) (m : TdacMeas) (s : State) : Host.Outcome State Fault Refusal :=
  .next (s.act id (Half.tdacVerdict m))

/-- A MASK takes effect (R289). -/
def execAcqMaskApply (id : HalfId) (q : Fin 9) (s : State) : Host.Outcome State Fault Refusal :=
  .next (s.act id (fun h => if h.seqIdle q then h.maskApply q else h))

end Sys2Proof.Machine
end

