-- ==== Sys2Proof/Machine/Diag.lean ====
section
/-! DEFINITION. Mailbox 4: status and faults, calibrations of wheels and weights, sessions, slice calibration, the test DAC, library
values (R148 to R151, R441 to R445). -/

namespace Sys2Proof.Machine

open Sys2Proof

/-! ### WHEEL_DIAG, STATUS_READ, FAULT_READ (R441, R442, R465) -/

/-- WHEEL_DIAG (R441): waits for NEDGE edges or 1 s. -/
def State.serveWheelDiag (a : Ask) (s : State) : State :=
  s.checked a [(s.noHalf (a.b 16), 0x0103), (1 < a.b 16 || 5 < a.b 17 || 32 < a.b 18 || a.dirty 19 1, 0x0104)] (fun s =>
    (s.calMap (fun c => { c with
      diags := c.diags ++ [⟨(a.seq, a.silent), halfOf (a.b 16), Inp.ofCode (a.b 17), a.b 18, [], s.now + etPerSec⟩] })).diagsDone)

/-- WHEEL_DIAG arrives. -/
def execWheelDiag (m : Msg) (s : State) : Host.Outcome State Fault Refusal := .next (s.request 4 1 (fun _ => 24) State.serveWheelDiag m)

/-- The registers of a block in index order (R442). -/
def blockRegs (h : HalfId) (b : Nat) : List Reg :=
  match b with
  | 0 => [.trkStat h, .trkAngle h, .trkSpeed h, .trkInc h, .twsStat h, .twsTauA h, .twsTauM h, .twsTauS h]
  | 1 => (idxs 48).map (.outStat h ·)
  | 2 => (idxs 24).map (.drvStat h ·)
  | 3 => (idxs 4).map (.poolStat h ·) ++ (idxs 4).map (.hopStat h ·) ++ (idxs 24).map (.schCyl h ·)
  | 4 => [.refStat h, .calStat h, .calFail h, .acqStat h] ++ (idxs 48).map (.last h ·)
  | 5 => (idxs 12).map (.anaStat h ·)
  | 6 => (idxs 8).map (.sleStat h ·) ++ (idxs 2).map (.slgStat h ·)
  | 7 => [.fgStat h, .osCfg h]
  | 8 => .pwrStat :: (idxs 8).map .resStat
  | 9 => (idxs 24).map .clStat ++ (idxs 24).map .corrStat
  | _ => []

/-- STATUS_READ (R442): blocks 8 and 9 are the hub's, the others a half's. -/
def State.serveStatusRead (a : Ask) (s : State) : State :=
  let h := a.b 16
  let b := a.b 17
  s.checked a [(s.noHalf h, 0x0103), (2 < h || 9 < b || a.dirty 18 2 || ((h = 2) != (8 ≤ b)), 0x0104)] (fun s =>
    let rs := blockRegs (halfOf h) b
    let ws := rs.flatMap (fun r => leW (s.reg r))
    (eachOf rs State.clearRc s).done a 0 (le 2 rs.length ++ zeros 2 ++ ws))

/-- STATUS_READ arrives. -/
def execStatusRead (m : Msg) (s : State) : Host.Outcome State Fault Refusal := .next (s.request 4 2 (fun _ => 24) State.serveStatusRead m)

/-- The classes of R462. -/
def fltKnown (c : Nat) : Bool :=
  c ≤ 0x06 || (0x08 ≤ c && c ≤ 0x15) || (0x18 ≤ c && c ≤ 0x2B) || (0x30 ≤ c && c ≤ 0x38) || (0x3A ≤ c && c ≤ 0x40) ||
    (0x44 ≤ c && c ≤ 0x4A) || (0x4C ≤ c && c ≤ 0x4E) || (0x50 ≤ c && c ≤ 0x52) || (0x60 ≤ c && c ≤ 0x69) || (0x6C ≤ c && c ≤ 0x76)

/-- The counters in the order of FAULT_READ (R465). -/
def fltOrder : List (Nat × Option HalfId) :=
  ((List.range 192).filter fltKnown).flatMap (fun c =>
    (if cntHalf c then [(c, some .A), (c, some .B)] else []) ++ (if cntHub c then [(c, none)] else []))

/-- One entry of FAULT_READ (R441). -/
def State.fltEntry (x : Nat × Option HalfId) (s : State) : List Byte :=
  let f := s.faults x.2
  let r := f.cntOf x.1
  le 2 x.1 ++ le 2 (sat 16 (f.count x.1)) ++ le 1 (bit r.lasting) ++
    le 1 (match x.2 with | some id => id.num | none => 2) ++ zeros 2 ++ leW r.last

/-- FAULT_READ (R441, R465). -/
def State.serveFaultRead (a : Ask) (s : State) : State :=
  let n := a.h 18
  s.checked a [(!s.reaches bothHalves, 0x0103), (n < 1 || 80 < n, 0x0104)] (fun s =>
    s.done a 0 (((fltOrder.filter (fun x => a.h 16 ≤ x.1)).take n).flatMap (fun x => s.fltEntry x)))

/-- FAULT_READ arrives. -/
def execFaultRead (m : Msg) (s : State) : Host.Outcome State Fault Refusal := .next (s.request 4 3 (fun _ => 24) State.serveFaultRead m)

/-! ### Alignment (R148) -/

/-- CAL_ALIGN (R148, R443). -/
def State.serveCalAlign (a : Ask) (s : State) : State :=
  s.checked a [(!s.reaches bothHalves, 0x0103), (s.hub.cal.align.isSome, 0x0107)] (fun s =>
    s.calMap (fun c => { c with align := some ⟨(a.seq, a.silent), 0, (s.half s.primary).cyc, 0, 0, 0, 0, 0⟩ }))

/-- CAL_ALIGN arrives. -/
def execCalAlign (m : Msg) (s : State) : Host.Outcome State Fault Refusal := .next (s.request 4 0x10 (fun _ => 20) State.serveCalAlign m)

/-- The travel of the average (R148): 64 revolutions. -/
def alignSpan : Int := 64 * 360 * deg

/-- One sample of the running alignment at a frame tick of the primary half (R148); a speed excursion, or a tracker or twist mode
that alignment does not run in, restarts the average. -/
def AlignRun.sample (h : Half) (r : AlignRun) : AlignRun :=
  if alignSpan ≤ r.trav then r else
  let fresh : AlignRun := { r with trav := 0, last := h.cyc, sum := 0, n := 0, spd := 0, lo := 0, hi := 0 }
  if h.trk.st ≠ 4 || h.tws.mode ≠ 1 then fresh else
  let v := h.snap.speed
  let d := (h.cyc - r.last) % h.cycLen
  let r1 : AlignRun := { r with
    trav := r.trav + (if r.n = 0 then 0 else d), last := h.cyc, sum := r.sum + h.tws.tauM, n := r.n + 1, spd := r.spd + v
    lo := if r.n = 0 then v else min r.lo v, hi := max r.hi v }
  if 100 * (r1.hi * r1.n) > 101 * r1.spd || 100 * (r1.lo * r1.n) < 99 * r1.spd then fresh else r1

/-- The running alignment at a frame tick. -/
def State.alignTick (s : State) : State :=
  s.calMap (fun c => { c with align := c.align.map (AlignRun.sample (s.half s.primary)) })

/-- Delta and the mean of the measured twist of a finished average (R148). -/
def AlignRun.result (h : Half) (r : AlignRun) : Int × Int :=
  let m : Rat := (r.sum : Rat) / (max 1 r.n : Nat)
  let rpm : Rat := (r.spd : Rat) / (max 1 r.n : Nat) / 65536
  (roundFreeQ 50 (m - h.cfg.table.eval rpm (h.cfg.table.ld.headD 0 : Nat)), roundFreeQ 51 m)

/-- A result is kept with the next RESULT_ID; the last four stay (R443). -/
def State.keepResult (align : Option (Int × Int × Bool)) (fits : List TwistFit) (s : State) : State :=
  s.calMap (fun c => { c with res := (⟨c.next, align, fits⟩ :: c.res).take 4, next := c.next + 1 })

/-- The alignment has its 64 revolutions (R148): it completes; a rejected one leaves no result. -/
def execCalAlignResult (s : State) : Host.Outcome State Fault Refusal :=
  match s.hub.cal.align with
  | none => .next s
  | some r =>
    if !s.hubOn || r.trav < alignSpan then .next s else
    let (d, m) := r.result (s.half s.primary)
    let id := s.hub.cal.next
    let bad := d.natAbs > 65536
    let s1 := s.calMap (fun c => { c with align := none })
    let s2 := if bad then s1.calMap (fun c => { c with next := c.next + 1 }) else s1.keepResult (some (d, m, false)) []
    .next (s2.finish 4 r.req.1 (if bad then 0x0140 else 0) (leI 4 d ++ leI 4 m ++ le 4 id))

/-! ### Weights and offsets (R149, R150) -/

/-- The cylinders of a mask of 24 bits. -/
def maskCyls (m : Nat) : List Nat := ((List.range 24).filter (fun i => m.testBit i)).map (· + 1)

/-- A cylinder's pressure input is analysed at 0.1 degree or finer (R149). -/
def State.fineLane (cyl : Nat) (s : State) : Bool :=
  bothHalves.any (fun id => (s.half id).ana.lanes.toList.any (fun l => l.en && l.cyl = cyl && 3 ≤ anaCfg0Res (l.cfg.get 0)))

/-- CAL_TWIST (R149, R443): its checks, in the order of R416 and of the text. -/
def State.serveCalTwist (a : Ask) (s : State) : State :=
  let probe := a.b 16 = 1
  let cyls := maskCyls (a.b 20 + 256 * a.b 21 + 65536 * a.b 22)
  let bad := 1 < a.b 16 || 1 < a.b 17 || (!probe && a.b 18 < 8) || (probe && 23 < a.b 19) || cyls.isEmpty || a.dirty 23 1 ||
    2000 < a.h 24 || a.h 26 < 1 || 3600 < a.h 26 || cyls.any (fun c => (s.twistHalves c).isEmpty) || (probe && cyls.length ≠ 1)
  s.checked a [(!s.reaches bothHalves, 0x0103), (bad, 0x0104), (s.hub.cal.twist.isSome, 0x0107),
    (!probe && (a.b 17 = 0 || cyls.any (fun c => !s.fineLane c)), 0x0141)] (fun s =>
    let run : TwistRun := ⟨(a.seq, a.silent), probe, a.b 18, a.b 19, cyls, a.h 24, s.now + a.h 26 * etPerSec, [], [], [], none⟩
    s.calMap (fun c => { c with twist := some run }))

/-- CAL_TWIST arrives. -/
def execCalTwist (m : Msg) (s : State) : Host.Outcome State Fault Refusal := .next (s.request 4 0x11 (fun _ => 32) State.serveCalTwist m)

/-- A square root in whole units; where it does not come out, one of its neighbours (log 10). -/
def rootFree (place : Nat) (q : Rat) : Nat :=
  let m := Nat.sqrt q.floor.toNat
  if ((m * m : Nat) : Rat) = q then m else m + bit (Config.roundUp place q.num q.den)

/-- The fit of R150 over a cylinder's kept samples, for its weight and offset in force. -/
def twistFit (cyl : Nat) (w : Int) (sOfs : Int) (xs : List CalSmp) : TwistFit :=
  let n := xs.length
  let nq : Rat := (max 1 n : Nat)
  let es := xs.map (·.e)
  let ts := xs.map (·.tau)
  let me := es.sum / nq
  let mt := ts.sum / nq
  let span := ts.foldl max (ts.headD 0) - ts.foldl min (ts.headD 0)
  let only := span * 10 < 65536
  let stt := (ts.map (fun t => (t - mt) * (t - mt))).sum
  let set := (xs.map (fun x => (x.e - me) * (x.tau - mt))).sum
  let b := if only then 0 else set / stt
  let k := me - b * mt
  let ms := (xs.map (fun x => (x.e - k - b * x.tau) * (x.e - k - b * x.tau))).sum / nq
  let w1 := roundFreeQ 52 ((w : Rat) - b * 16384)
  let s1 := roundFreeQ 53 ((sOfs : Rat) - k)
  let rms := rootFree 54 (ms * 1000000 / (65536 * 65536))
  let bad := n < 64 || ms * 400 > 65536 * 65536 || b > 1 / 4 || b < -1 / 4 || k > 65536 || k < -65536 ||
    w1 < -8192 || 24576 < w1 || 131072 < s1.natAbs
  ⟨cyl, only, bad, n, w1, s1, rms⟩

/-- A cylinder's weight (Q2.14) and offset (Q16) in force. -/
def State.weightOf (cyl : Nat) (s : State) : Int × Int :=
  match (s.twistHalves cyl).head? with
  | none => (0, 0)
  | some id =>
    match (s.half id).entry cyl with
    | some k => let c := (s.half id).tws.cyl.get k; (twsWW c.w, c.s.toInt)
    | none => (0, 0)

/-- Samples of a cylinder. -/
def TwistRun.of (t : TwistRun) (cyl : Nat) : List CalSmp := t.smps.filter (·.cyl = cyl)

/-- A cylinder's line of the result (R441). -/
def TwistFit.bytes (f : TwistFit) : List Byte :=
  le 1 f.cyl ++ le 1 (bit f.only + 2 * bit f.rej) ++ le 2 (sat 16 f.kept) ++ leI 2 f.w ++ zeros 2 ++ leI 4 f.s ++ le 2 (sat 16 f.rms) ++ zeros 2

/-- No cylinder is cut any more. -/
def State.uncut (s : State) : State :=
  let f (h : Half) : Half := { h with cyls := h.cyls.map (fun c => { c with cut := none }), tws := { h.tws with trail := [] } }
  { s with a := f s.a, b := f s.b }

/-- A weight and offset calibration ends with its result (R150, R443). -/
def State.twistEnd (t : TwistRun) (s : State) : State :=
  let fits := t.cyls.map (fun c => let (w, o) := s.weightOf c; twistFit c w o (t.of c))
  let id := s.hub.cal.next
  let s1 := ((s.calMap (fun c => { c with twist := none })).keepResult none fits).uncut
  s1.finish 4 t.req.1 (if fits.any (·.rej) then 0x0140 else 0) (le 4 id ++ le 1 fits.length ++ zeros 3 ++ fits.flatMap TwistFit.bytes)

/-- Each named cylinder has 64 kept samples (R150). -/
def execCalTwistResult (s : State) : Host.Outcome State Fault Refusal :=
  match s.hub.cal.twist with
  | none => .next s
  | some t => .next (if s.hubOn && t.cyls.all (fun c => 64 ≤ (t.of c).length) then s.twistEnd t else s)

/-- TIMEOUT of a running calibration (R443). -/
def execCalTwistTimeout (s : State) : Host.Outcome State Fault Refusal :=
  match s.hub.cal.twist with
  | none => .next s
  | some t => .next (if s.hubOn then (s.advanceTo t.until_).twistEnd t else s)

/-! ### CAL_APPLY, CAL_ABORT (R140, R151, R443) -/

/-- The entry CAL_APPLIED of the event log (R505): RESULT_ID, W', S'. -/
def State.logCal (id cyl : Nat) (w sOfs : Int) (s : State) : State :=
  s.log 0x21 0 cyl s.hub.frame (le 4 id ++ leI 2 w ++ zeros 2 ++ leI 4 sOfs)

/-- CYC_OFS of the wheel that is not REF_WHEEL moves by a correction (R148). -/
def Half.alignWheel (d : Int) (h : Half) : Half :=
  let move (x : Int) (w : Wheel) : Wheel := { w with cycOfs := (w.cycOfs + x) % h.cycLen }
  { h with cfg := if trkCfg0RefWheel h.trk.cfg0 then { h.cfg with ckd := move (-d) h.cfg.ckd } else { h.cfg with ckf := move d h.cfg.ckf } }

/-- A result is applied (R148, R151): an alignment at once, weights at each cylinder's next commit; both into the log in flash. -/
def State.applyResult (r : CalRes) (cyls : List Nat) (s : State) : State :=
  let dig := s.cfgDig.getD []
  match r.align with
  | some (d, _, _) =>
    let s1 : State := { s with a := s.a.alignWheel d, b := s.b.alignWheel d }
    (s1.flashMap (Flash.calSet dig (fun x => (x.1, x.2 + d)))).logCal r.id 0 0 0
  | none =>
    eachOf (r.fits.filter (fun f => !f.rej && cyls.contains f.cyl)) (fun f t =>
      let t1 := eachOf (t.twistHalves f.cyl) (fun id u => u.setHalf ((u.half id).twistPend f.cyl f.w f.s) id) t
      (t1.flashMap (Flash.calSet dig (fun x => ((f.cyl, f.w, f.s) :: x.1.filter (fun y => y.1 ≠ f.cyl), x.2)))).logCal r.id f.cyl f.w f.s) s

/-- CAL_APPLY (R443). -/
def State.serveCalApply (a : Ask) (s : State) : State :=
  let r := s.hub.cal.res.find? (fun r => r.id = a.w 16)
  s.checked a [(!s.reaches bothHalves, 0x0103), (a.dirty 23 1 || r.isNone, 0x0104),
    (r.any (fun r => r.align.isSome) && !s.stopped, 0x0102)] (fun s =>
    match r with
    | none => s
    | some r => (s.applyResult r (maskCyls (a.b 20 + 256 * a.b 21 + 65536 * a.b 22))).done a 0 [])

/-- CAL_APPLY arrives. -/
def execCalApply (m : Msg) (s : State) : Host.Outcome State Fault Refusal := .next (s.request 4 0x12 (fun _ => 28) State.serveCalApply m)

/-- The running calibrations end with CANCELLED (R443). -/
def State.calCancel (s : State) : State :=
  let c := s.hub.cal
  let s1 := (s.calMap (fun c => { c with align := none, twist := none })).uncut
  let s2 := match c.align with | some r => s1.finish 4 r.req.1 0x0105 [] | none => s1
  match c.twist with | some t => s2.finish 4 t.req.1 0x0105 [] | none => s2

/-- CAL_ABORT (R443). -/
def execCalAbort (m : Msg) (s : State) : Host.Outcome State Fault Refusal :=
  .next (s.request 4 0x13 (fun _ => 20) (fun a s => s.calCancel.done a 0 []) m)

/-! ### Sessions, slices, the test DAC (R283, R295 to R299, R444) -/

/-- The halves of a SESSION's mask. -/
def sessionHalves (v : Nat) : List HalfId := bothHalves.filter (fun id => v.testBit id.num)

/-- SESSION (R283, R444). -/
def State.serveSession (a : Ask) (s : State) : State :=
  let open_ := a.b 17 = 1
  let t := a.h 18
  let ids := sessionHalves (a.b 16)
  s.checked a [(!s.reaches ids, 0x0103), (3 < a.b 16 || 1 < a.b 17 || (open_ && (t < 1 || 600 < t)), 0x0104)] (fun s =>
    (eachOf ids (fun id u => u.halfMap id (Half.acqMap (fun x => { x with session := if open_ then some (s.now + t * etPerSec) else none }))) s).done
      a 0 [])

/-- SESSION that opens, or whose byte 17 is neither, arrives. -/
def execSessionOpen (m : Msg) (s : State) : Host.Outcome State Fault Refusal :=
  if m.payload.length = 4 && byteAt m.payload 1 = 0 then .next s else .next (s.request 4 0x20 (fun _ => 24) State.serveSession m)

/-- SESSION that closes arrives. -/
def execSessionClose (m : Msg) (s : State) : Host.Outcome State Fault Refusal :=
  if m.payload.length = 4 && byteAt m.payload 1 ≠ 0 then .next s else .next (s.request 4 0x20 (fun _ => 24) State.serveSession m)

/-- A session reaches its TIMEOUT (R444). -/
def execSessionTimeout (id : HalfId) (s : State) : Host.Outcome State Fault Refusal :=
  .next (s.due id (fun h => h.acq.session) (Half.acqMap (fun a => { a with session := none })))

/-- SLICE_CAL (R295, R444): waits for its group's next step. -/
def State.serveSliceCal (a : Ask) (s : State) : State :=
  let id := halfOf (a.b 16)
  match fin? 3 (a.b 17) with
  | none => s.checked a [(s.noHalf (a.b 16), 0x0103), (true, 0x0104)] (fun s => s)
  | some g =>
    s.checked a [(s.noHalf (a.b 16), 0x0103), (1 < a.b 16 || (grpN g ≤ a.b 18 && a.b 18 ≠ 15) || a.dirty 19 1, 0x0104)] (fun s =>
      s.halfMap id (Half.calMap g (fun c => { c with
        asked := c.asked ++ [(if a.b 18 = 15 then grpN g else a.b 18, a.seq, a.silent)] })))

/-- SLICE_CAL arrives. -/
def execSliceCal (m : Msg) (s : State) : Host.Outcome State Fault Refusal := .next (s.request 4 0x21 (fun _ => 24) State.serveSliceCal m)

/-- TDAC_TEST (R298, R299, R444): a refused one completes with verdict REFUSED, MANUAL at its start, the others at the verdict. -/
def State.serveTdac (a : Ask) (s : State) : State :=
  let id := halfOf (a.b 16)
  let test := a.b 18
  s.checked a [(s.noHalf (a.b 16), 0x0103), (1 < a.b 16 || 47 < a.b 17 || 2 < test || a.dirty 19 1 || 4095 < a.h 20 || a.dirty 22 2, 0x0104)] (fun s =>
    let (h, no) := (s.half id).tdacStart test (a.b 17) (a.h 20) (if test = 2 then none else some (a.seq, a.silent))
    let s1 := (s.setHalf h id).flush
    if no then s1.done a 0x0144 (le 1 6 ++ zeros 3) else if test = 2 then s1.done a 0 (zeros 4) else s1)

/-- TEST of a TDAC_TEST message; one beyond the last is OPEN_SHORT's row. -/
def tdacTest (m : Msg) : Nat := if byteAt m.payload 2 ≤ 2 then byteAt m.payload 2 else 0

/-- TDAC_TEST with TEST OPEN_SHORT, or with a TEST that does not exist, arrives. -/
def execTdacOpenShort (m : Msg) (s : State) : Host.Outcome State Fault Refusal :=
  if tdacTest m ≠ 0 then .next s else .next (s.request 4 0x22 (fun _ => 28) State.serveTdac m)

/-- TDAC_TEST with TEST GAIN arrives. -/
def execTdacGain (m : Msg) (s : State) : Host.Outcome State Fault Refusal :=
  if tdacTest m ≠ 1 then .next s else .next (s.request 4 0x22 (fun _ => 28) State.serveTdac m)

/-- TDAC_TEST with TEST MANUAL arrives. -/
def execTdacManual (m : Msg) (s : State) : Host.Outcome State Fault Refusal :=
  if tdacTest m ≠ 2 then .next s else .next (s.request 4 0x22 (fun _ => 28) State.serveTdac m)

/-- TDAC_STOP (R444). -/
def State.serveTdacStop (a : Ask) (s : State) : State :=
  s.checked a [(s.noHalf (a.b 16), 0x0103), (1 < a.b 16 || a.dirty 17 3, 0x0104)] (fun s =>
    (s.onHalf (halfOf (a.b 16)) Half.tdacStop).done a 0 [])

/-- TDAC_STOP arrives. -/
def execTdacStop (m : Msg) (s : State) : Host.Outcome State Fault Refusal := .next (s.request 4 0x23 (fun _ => 24) State.serveTdacStop m)

/-! ### Library values (R432, R445) -/

/-- The sources: library entries in image order, a SENT_RX entry with SERIAL followed by its serial messages, as (entry number,
entry, KIND); TBUS_TX delivers none. -/
def State.sources (s : State) : List (Nat × LibCfg × Nat) :=
  s.hub.cfg.img.libs.zipIdx.flatMap (fun x =>
    match x.1.prog with
    | 0 => (x.2, x.1, 0) :: (if x.1.serial = 0 then [] else [(x.2, x.1, 1)])
    | 1 => [(x.2, x.1, 2)]
    | 2 => [(x.2, x.1, 3)]
    | _ => [])

/-- The period of a library entry in frames (R445). -/
def LibCfg.frames (l : LibCfg) : Nat := if l.prog = 0 then Config.sentPeriod l.tNom l.dataN l.pause else 100 * l.period

/-- STATUS of a value whose FRAME is given: 2 error, 1 stale, 0 fresh (R445). -/
def libStatus (l : LibCfg) (err have_ : Bool) (now fr : Word) : Nat :=
  if err then 2 else if l.prog = 2 then 0
  else if !have_ || frameDiff now fr ≥ (3 * l.frames : Nat) then 1 else 0

/-- VALUE, whether it has come, and its FRAME, of a source. -/
def State.libValue (x : Nat × LibCfg × Nat) (s : State) : Nat × Bool × Word × Bool :=
  let v := (s.half x.2.1.half).slu.libs.getD x.1 LibVal.zero
  if x.2.2 = 1 then (match v.serial with | some (n, fr) => (n, true, fr, v.err) | none => (0, false, 0#32, v.err))
  else (v.value, v.have_, v.frame, v.err)

/-- One entry of SENSOR_READ (R441). -/
def State.libEntry (i : Nat) (x : Nat × LibCfg × Nat) (s : State) : List Byte :=
  let (v, got, fr, err) := s.libValue x
  le 1 i ++ le 1 x.2.2 ++ le 1 (libStatus x.2.1 err got (s.half x.2.1.half).frame fr) ++ zeros 1 ++ le 8 v ++ leW fr

/-- SENSOR_READ (R441, R445). -/
def State.serveSensorRead (a : Ask) (s : State) : State :=
  let xs := (s.sources.zipIdx.drop (a.b 16)).take (a.b 17)
  s.checked a [(!s.reaches (xs.map (fun x => x.1.2.1.half)), 0x0103), (a.b 17 < 1 || 60 < a.b 17 || a.dirty 18 2, 0x0104)] (fun s =>
    s.done a 0 (xs.flatMap (fun x => s.libEntry x.2 x.1)))

/-- SENSOR_READ arrives. -/
def execSensorRead (m : Msg) (s : State) : Host.Outcome State Fault Refusal := .next (s.request 4 0x30 (fun _ => 24) State.serveSensorRead m)

end Sys2Proof.Machine
end

