-- ==== Sys2Proof/Machine/Records.lean ====
section
/-! DEFINITION. Cycle records, the Tarn, telemetry and mailbox 5 (R325 to R329, R446 to R448, R503, R506). -/

namespace Sys2Proof.Machine

open Sys2Proof

/-! ### A record's bytes (R326) -/

/-- A figure of the results area: 0x8000_0000 where it is not computed. -/
def figure (x : Option Int) : List Byte :=
  match x with
  | some v => leI 4 v
  | none => leW 0x80000000#32

/-- The results area, bytes 64 to 191 (R326): figures of the combustion stage, IMEP of the other, PMAX_CYC of the cycle window; a
stage that is not filed leaves its figures uncomputed. -/
def CycRec.results (c : CycRec) : List Byte :=
  let cmb := c.cmb.map (·.2)
  let imp := c.imep.map (·.2)
  let one : Option ResOut := match cmb with | some r => some r | none => imp
  let q := (match cmb with | some r => r.qual | none => 0) ||| (match imp with | some r => r.qual | none => 0)
  let f (g : ResOut → Option Int) : List Byte := figure (cmb.bind g)
  let fr (x : Option (Word × ResOut)) : List Byte := leW (match x with | some y => y.1 | none => 0#32)
  le 2 q ++ le 1 (match one with | some r => r.resUsed | none => 0) ++ le 1 (match one with | some r => r.lane | none => 0) ++
    figure (one.bind (·.peg)) ++ figure (imp.bind (·.imepV)) ++ f (·.pmax) ++ f (·.apmax) ++ f (·.dpmax) ++ f (·.qtot) ++
    f (·.mfb10) ++ f (·.mfb50) ++ f (·.mfb90) ++ f (·.ki) ++ f (·.aki) ++ figure c.pmax ++
    le 2 (match cmb with | some r => sat 16 r.ninv | none => 0) ++ le 2 (match imp with | some r => sat 16 r.ninv | none => 0) ++
    fr c.cmb ++ fr c.imep ++ zeros 64

/-- REC_FLAGS of a record (R326): those of its commit and gathered since, UNFUELLED of the combustion stage. -/
def CycRec.recFlags (c : CycRec) : Nat :=
  c.flags ||| (if (c.cmb.map (·.2.fuel)) = some false then 2048 else 0) |||
    (if c.place.isSome then 4096 else 0)

/-- One record or continuation (R326): its number among `n` continuations, its event entries. -/
def CycRec.block (c : CycRec) (close : Word) (n i : Nat) (evs : List (List Byte)) : List Byte :=
  let o := c.o
  let head := le 1 (bit (i ≠ 0)) ++ le 1 o.cyl ++ le 1 o.cyc ++ le 1 i ++ le 4 o.cyc ++ leW o.frame ++ leW close ++ leI 4 o.tdc ++
    figure (c.cmb.map (·.2.ck)) ++ leI 4 o.delta ++ le 2 o.speed ++ le 1 o.states ++ le 1 o.srcCyc ++ le 2 c.load ++
    le 2 c.recFlags ++ le 1 evs.length ++ le 1 (n - i) ++ zeros 2 ++ le 4 (c.trace.getD 0xFFFFFFFF) ++ zeros 20
  let ev := evs.flatMap (fun e => (e ++ zeros 16).take 16)
  head ++ (if i = 0 then c.results else zeros 128) ++ ev ++ zeros (512 - ev.length)

/-- Event entries in runs of 32. -/
def runs32 : Nat → List (List Byte) → List (List (List Byte))
  | 0, _ => []
  | n + 1, es => if es.length ≤ 32 then [es] else es.take 32 :: runs32 n (es.drop 32)

/-- The records a closed cycle record becomes: itself and its continuations (R326). -/
def CycRec.records (c : CycRec) (close : Word) : List (List Byte) :=
  let es := runs32 (c.ents.length + 1) (c.ents.map (·.2))
  es.zipIdx.map (fun x => c.block close (es.length - 1) x.2 x.1)

/-! ### Closing (R325, R327) -/

/-- Lanes of a cylinder that are enabled, in the halves of a record's place. -/
def State.lanesOf (pl : Option HalfId) (cyl : Nat) (s : State) : List Lane :=
  (match pl with | none => bothHalves | some i => [i]).flatMap (fun id =>
    (s.half id).ana.lanes.toList.filter (fun l => anaCfg0En (l.cfg.get 0) && anaCfg0Cyl (l.cfg.get 0) = cyl))

/-- Both stages are filed, those that the cylinder's enabled lane has, and each slot frozen has its entry (R325, R317). -/
def State.recReady (c : CycRec) (s : State) : Bool :=
  let ls := s.lanesOf c.place c.o.cyl
  (ls.isEmpty || c.waive || (c.cmb.isSome && (c.imep.isSome || ls.all (fun l => l.imepWin.isNone)))) && c.wait.isEmpty

/-- Records enter the Tarn's ring of 1,489 (R325, R503). -/
def Tarn.addRecs (fr : Word) (xs : List (List Byte)) (t : Tarn) : Tarn :=
  xs.foldl (fun t b => { t with
    recs := (⟨t.recN, b, false, fr, t.recN, t.writes⟩ :: t.recs).take 1489, recN := t.recN + 1, writes := t.writes + 1 }) t

/-- A half without a hub path keeps its closed records: 64, the oldest overwritten and counted (R327). -/
def Recs.keep (id : HalfId) (xs : List (List Byte)) (r : Recs) : Recs :=
  let mine := r.kept.filter (fun k => k.1 = id)
  let gone := mine.length + 1 - 64
  let old := mine.drop gone
  { r with kept := r.kept.filter (fun k => k.1 ≠ id) ++ old ++ [(id, xs)], lostN := r.lostN + gone }

/-- A record that is ready closes: into the Tarn, or into its half's memory (R325, R327). -/
def State.closeRec (c : CycRec) (s : State) : State :=
  let s1 := s.recsMap (fun r => { r with opens := r.opens.filter (fun d => !CycRec.is c.place c.o.cyl c.o.cyc d) })
  let fr := s.placeFrame c.place
  let xs := c.records fr
  match c.place with
  | none => s1.tarnMap (Tarn.addRecs fr xs)
  | some id => s1.recsMap (Recs.keep id xs)

/-- S1 closes what is ready, step 4; a half without a hub path closes its own (R38, R325, R327). A record open at shed level 3
or 4 takes SHED. -/
def State.closeRecs (s : State) : State :=
  let s1 := if s.hub.pwr.shed < 3 then s else s.openMap (fun _ => true) (fun c => { c with flags := c.flags ||| 256 })
  eachOf (s1.hub.recs.opens.filter (fun c => s1.recReady c)) State.closeRec s1

/-! ### Telemetry (R263, R448, R506) -/

/-- A telemetry datagram leaves on a port (R448): ALIVE advances with each. -/
def State.telOne (cmd : Nat) (pay : List Byte) (udp ip p : Nat) (s : State) : State :=
  let b := le 1 5 ++ le 1 144 ++ le 2 cmd ++ le 2 0 ++ le 2 (20 + pay.length) ++ le 2 s.hub.link.telAlive.toNat ++ le 2 0 ++
    leW s.hub.frame ++ pay
  s.linkMap (fun l => { l with telAlive := l.telAlive + 1, sent := ⟨p, udp, ip, 0, b ++ leW (crc32c b), s.portIp p⟩ :: l.sent })

/-- A telemetry message leaves on the port, or the two ports, that TELEM_SET gave (R448). -/
def State.telSend (cmd : Nat) (pay : List Byte) (s : State) : State :=
  match s.hub.tel.to_ with
  | none => s
  | some (_, port, udp, ip) => eachOf (if port = 0 then [0] else if port = 1 then [1] else [0, 1]) (State.telOne cmd pay udp ip) s

/-- A FRAME range missed grows by a FRAME. -/
def gapAdd (f : Word) (g : Option (Word × Word)) : Option (Word × Word) :=
  match g with
  | some (a, b) => some (if frameDiff a f > 0 then f else a, if frameDiff f b > 0 then f else b)
  | none => some (f, f)

/-- Change the telemetry. -/
def State.telMap (f : Telem → Telem) (s : State) : State := s.hubMap (fun u => { u with tel := f u.tel })

/-- The gap marker precedes what is sent next (R448). -/
def State.telGap (s : State) : State :=
  match s.hub.tel.gap with
  | none => s
  | some (a, b) => (s.telMap (fun t => { t with gap := none })).telSend 0x8003 (leW a ++ leW b)

/-- One cycle record or its gap (R448, R502). -/
def State.telRec (r : TarnRec) (s : State) : State :=
  if r.lost then s.telMap (fun t => { t with gap := gapAdd r.frame t.gap }) else s.telGap.telSend 0x8001 r.bytes

/-- The fragments of a block, each of at most 992 bytes. -/
def fragments (idx : Nat) : Nat → Nat → List Byte → List (List Byte)
  | 0, _, _ => []
  | n + 1, ofs, b =>
    if b.isEmpty then [] else
    (le 4 idx ++ le 4 ofs ++ le 2 (min 992 b.length) ++ zeros 2 ++ b.take 992) :: fragments idx n (ofs + 992) (b.drop 992)

/-- One trace block in fragments, or its gap (R448, R502). -/
def State.telBlock (r : TarnRec) (s : State) : State :=
  if r.lost then s.telMap (fun t => { t with gap := gapAdd r.frame t.gap })
  else eachOf (fragments r.idx (r.bytes.length / 992 + 1) 0 r.bytes) (fun p t => t.telSend 0x8002 p) s.telGap

/-- An entry of the tooth log (R446). -/
def ToothRec.bytes (r : ToothRec) : List Byte := leW r.ts ++ le 1 r.cls ++ zeros 1 ++ le 2 r.pos

/-- The payload of tooth log entries (R446). -/
def toothPay (xs : List ToothRec) : List Byte := le 2 xs.length ++ zeros 6 ++ xs.flatMap ToothRec.bytes

/-- Entries of one input's tooth log that follow one another, at most 124 (R448), or their gap where they are lost (R502). -/
def State.telTeeth (xs : List ToothRec) (s : State) : State :=
  if xs.any (·.lost) then eachOf xs (fun r t => t.telMap (fun x => { x with gap := gapAdd r.frame x.gap })) s
  else s.telGap.telSend 0x8004 (toothPay xs)

/-- What telemetry sends from the Tarn (R448): a cycle record, a trace block, or tooth log entries. -/
inductive TelItem where
  | record (r : TarnRec)
  | block (r : TarnRec)
  | teeth (xs : List ToothRec)
deriving DecidableEq, Repr

/-- The serial number of an item's writing. -/
def TelItem.wr : TelItem → Nat
  | .record r => r.wr
  | .block r => r.wr
  | .teeth xs => (xs.head?.map (·.wr)).getD 0

/-- An item goes to its place in the order of writing. -/
def TelItem.insert (x : TelItem) : List TelItem → List TelItem
  | [] => [x]
  | y :: t => if x.wr ≤ y.wr then x :: y :: t else y :: TelItem.insert x t

/-- Tooth log entries of one input that follow one another go in one message of at most 124 (R446, R448). -/
def TelItem.join : TelItem → List TelItem → List TelItem
  | .teeth (a :: xs), .teeth (b :: ys) :: t =>
    if a.h = b.h && a.inp = b.inp && a.lost = b.lost && xs.length + ys.length + 2 ≤ 124 then .teeth (a :: xs ++ b :: ys) :: t
    else .teeth (a :: xs) :: .teeth (b :: ys) :: t
  | x, l => x :: l

/-- Items in the order of writing (R448, R506). -/
def telOrder (xs : List TelItem) : List TelItem := (xs.foldr TelItem.insert []).foldr TelItem.join []

/-- One item of telemetry. -/
def State.telItem (x : TelItem) (s : State) : State :=
  match x with
  | .record r => s.telRec r
  | .block r => s.telBlock r
  | .teeth xs => s.telTeeth xs

/-- Library values newer than the last sent, 60 to a message (R441, R448). -/
def State.telLibs (last : Word) (s : State) : State :=
  let fresh := s.sources.zipIdx.filter (fun x =>
    let (_, got, fr, _) := s.libValue x.1
    got && frameDiff fr last > 0)
  let ms := (List.range (fresh.length / 60 + 1)).map (fun n => ((fresh.drop (60 * n)).take 60).flatMap (fun x => s.libEntry x.2 x.1))
  eachOf (ms.filter (fun m => !m.isEmpty)) (fun p t => t.telGap.telSend 0x8005 p) s

/-- Telemetry is paused: shed level 1, or a hub event class with TELEM_PAUSE that reacts (R263, R458). -/
def State.telPaused (s : State) : Bool := 1 ≤ s.hub.pwr.shed || s.hub.flt.reacts 0x1F

/-- FRAMEs of what is selected and has been overwritten before it was sent (R448). -/
def State.telMissed (t : Telem) (mask : Nat) (s : State) : Option (Word × Word) :=
  let old (xs : List TarnRec) (n nxt : Nat) : Bool := nxt < n && xs.all (fun r => r.ord ≠ nxt)
  let tarn := s.hub.tarn
  let r := mask.testBit 0 && old tarn.recs tarn.recN t.rec_
  let b := mask.testBit 1 && old tarn.blocks tarn.blockW t.blk
  let k := mask.testBit 2 && tarn.toothN - tarn.teeth.length > t.tooth
  if r || b || k then gapAdd t.from_ t.gap else t.gap

/-- Telemetry at a frame tick (R448, R506): what the Tarn holds and has not been sent; while paused, the FRAMEs missed, and
then from the newest cycle record on (R263). -/
def State.telemetry (s : State) : State :=
  let t := s.hub.tel
  match t.to_ with
  | none => s
  | some (mask, _, _, _) =>
    if s.telPaused then s.telMap (fun t => { t with gap := gapAdd s.hub.frame t.gap, pause := true }) else
    let tarn := s.hub.tarn
    let t1 : Telem := if t.pause then { t with rec_ := tarn.recN - 1, blk := tarn.blockW, tooth := tarn.toothN, pause := false }
      else { t with gap := s.telMissed t mask }
    let s1 := s.telMap (fun _ => { t1 with rec_ := tarn.recN, blk := tarn.blockW, tooth := tarn.toothN, lib := s.hub.frame, from_ := s.hub.frame })
    let rs := if mask.testBit 0 then (tarn.recs.filter (fun r => t1.rec_ ≤ r.idx)).reverse else []
    let bs := if mask.testBit 1 then (tarn.blocks.filter (fun r => t1.blk ≤ r.ord)).reverse else []
    let ks := if mask.testBit 2 then (tarn.teeth.take (tarn.toothN - t1.tooth)).reverse else []
    let s2 := eachOf (telOrder (rs.map .record ++ bs.map .block ++ ks.map (fun k => .teeth [k]))) State.telItem s1
    if mask.testBit 3 then s2.telLibs t.lib else s2

/-! ### MB5 (R446, R447) -/

/-- TELEM_SET (R446, R448, R506): from what is written next; a mask of 0 stops. -/
def State.serveTelemSet (a : Ask) (s : State) : State :=
  s.checked a [(15 < a.b 16 || 2 < a.b 17, 0x0104)] (fun s =>
    let t := s.hub.tarn
    (s.telMap (fun _ => ⟨if a.b 16 = 0 then none else some (a.b 16, a.b 17, a.h 18, a.w 20), t.recN, t.blockW, t.toothN, none,
      s.hub.frame, s.hub.frame, false⟩)).done a 0 [])

/-- TELEM_SET arrives. -/
def execTelemSet (m : Msg) (s : State) : Host.Outcome State Fault Refusal := .next (s.request 5 1 (fun _ => 28) State.serveTelemSet m)

/-- Index and FRAME of the oldest and the newest of a ring, oldest first; 0xFFFF_FFFF and 0 where it is empty. -/
def ends (xs : List TarnRec) : (Nat × Word) × (Nat × Word) :=
  let f (x : Option TarnRec) : Nat × Word := match x with | some r => (r.idx, r.frame) | none => (0xFFFFFFFF, 0#32)
  (f xs.getLast?, f xs.head?)

/-- Bytes that the Tarn's three rings hold. -/
def Tarn.used (t : Tarn) : Nat := 704 * t.recs.length + 8 * t.teeth.length + min 64487424 (t.blocks.map (·.bytes.length)).sum

/-- TARN_INFO arrives (R446). -/
def execTarnInfo (m : Msg) (s : State) : Host.Outcome State Fault Refusal :=
  .next (s.request 5 2 (fun _ => 20) (fun a s =>
    let t := s.hub.tarn
    let (ro, rn) := ends t.recs
    let (bo, bn) := ends t.blocks
    s.done a 0 (le 4 ro.1 ++ le 4 rn.1 ++ leW ro.2 ++ leW rn.2 ++ le 4 bo.1 ++ le 4 bn.1 ++ le 4 t.used)) m)

/-- The record a RECORD_READ names, without its continuations: the newest of any cylinder, the newest of one, or one of its
CYCCNT (R446, R447). -/
def Tarn.named (cyl cyc : Nat) (t : Tarn) : Option TarnRec :=
  t.recs.find? (fun r => byteAt r.bytes 0 = 0 && (cyl = 0 || (byteAt r.bytes 1 = cyl && (cyc = 0xFFFFFFFF || u32 r.bytes 4 = cyc))))

/-- RECORD_READ (R446, R447). -/
def State.serveRecordRead (a : Ask) (s : State) : State :=
  let t := s.hub.tarn
  let base := t.named (a.b 16) (a.w 20)
  let want := base.bind (fun r => t.recs.find? (fun x => x.idx = r.idx + a.b 17))
  s.checked a [(24 < a.b 16 || a.dirty 18 2 || base.any (fun r => byteAt r.bytes 37 < a.b 17), 0x0104),
    (want.all (·.lost), 0x0150)] (fun s => s.done a 0 ((want.map (·.bytes)).getD []))

/-- RECORD_READ arrives. -/
def execRecordRead (m : Msg) (s : State) : Host.Outcome State Fault Refusal := .next (s.request 5 3 (fun _ => 28) State.serveRecordRead m)

/-- TRACE_READ (R446, R447). -/
def State.serveTraceRead (a : Ask) (s : State) : State :=
  let b := s.hub.tarn.blocks.find? (fun r => r.idx = a.w 16)
  let n := a.h 24
  s.checked a [(n < 2 || 992 < n || a.dirty 26 2 || b.any (fun r => r.bytes.length < a.w 20 + n), 0x0104), (b.all (·.lost), 0x0150)] (fun s =>
    s.done a 0 (le 4 (a.w 16) ++ le 4 (a.w 20) ++ le 2 n ++ zeros 2 ++ slice ((b.map (·.bytes)).getD []) (a.w 20) n))

/-- TRACE_READ arrives. -/
def execTraceRead (m : Msg) (s : State) : Host.Outcome State Fault Refusal := .next (s.request 5 4 (fun _ => 32) State.serveTraceRead m)

/-- TOOTHLOG_READ (R446, R447). -/
def State.serveToothRead (a : Ask) (s : State) : State :=
  let t := s.hub.tarn
  let n := a.h 18
  let fr := a.reg 20
  let xs := ((t.teeth.reverse.filter (fun r => r.h = halfOf (a.b 16) && r.inp = (Inp.ofCode (a.b 17)).ix.1 && frameDiff r.frame fr ≥ 0)).take n)
  let gone := t.teeth.length < t.toothN && t.teeth.getLast?.any (fun r => frameDiff r.frame fr > 0)
  s.checked a [(1 < a.b 16 || 5 < a.b 17 || n < 1 || 124 < n, 0x0104), (gone || xs.any (·.lost), 0x0150)] (fun s => s.done a 0 (toothPay xs))

/-- TOOTHLOG_READ arrives. -/
def execToothlogRead (m : Msg) (s : State) : Host.Outcome State Fault Refusal := .next (s.request 5 5 (fun _ => 28) State.serveToothRead m)

end Sys2Proof.Machine
end

