-- ==== Sys2Proof/Machine/Security.lean ====
section
/-! DEFINITION. Mailbox 6: attestation, keys, JTAG and firmware (R449, R450, R491 to R500). -/

namespace Sys2Proof.Machine

open Sys2Proof

/-! ### Firmware images (R491 to R493) -/

/-- The digest of a firmware image: every byte before its signature area (R491). -/
def fwDigest (b : List Byte) : List Byte := Config.sha512 (b.take (u32 b 8 - 96))

/-- A firmware image verifies (R491, R496). -/
def fwVerify (b : List Byte) : Bool :=
  u32 b 0 = 0x57465450 && u16 b 4 = 1 && byteAt b 6 ≤ 63 && u32 b 8 = b.length && 160 ≤ b.length && b.length ≤ 8388608 &&
    sigBy (fwDigest b) Config.rootKey (slice b (b.length - 96) 8, slice b (b.length - 88) 64)

/-- SECVER of a firmware image. -/
def fwSecver (b : List Byte) : Nat := byteAt b 6

/-- RAISE_FLOOR of a firmware image. -/
def fwRaises (b : List Byte) : Bool := byteAt b 7 % 2 = 1

/-- The firmware slot that does not run (R450). -/
def State.idleSlot (s : State) : Fin 2 := if s.hub.boot.slot then 0 else 1

/-- Change a firmware slot. -/
def State.slotFw (i : Fin 2) (f : FwSlot → FwSlot) (s : State) : State := s.flashMap (fun x => { x with fw := upd x.fw i f })

/-! ### ATTEST, IDENTITY (R449, R499) -/

/-- Exactly `n` bytes of a list, zeros behind it. -/
def padTo (n : Nat) (b : List Byte) : List Byte := (b ++ zeros n).take n

/-- Bytes 16 to 191 of an ATTEST completion (R449, R499). -/
def State.attestBody (nonce : List Byte) (s : State) : List Byte :=
  padTo 64 (fwDigest s.fwImg) ++ padTo 64 (s.cfgDig.getD []) ++ le 8 Config.serial ++ leW s.bootState ++ leW s.hub.frame ++ padTo 32 nonce

/-- ATTEST arrives. -/
def execAttest (m : Msg) (s : State) : Host.Outcome State Fault Refusal :=
  .next (s.request 6 1 (fun _ => 52) (fun a s =>
    let b := s.attestBody (a.bytes 16 32)
    s.done a 0 (b ++ padTo 64 (Config.identitySign b))) m)

/-- IDENTITY arrives. -/
def execIdentity (m : Msg) (s : State) : Host.Outcome State Fault Refusal :=
  .next (s.request 6 2 (fun _ => 20) (fun a s => s.done a 0 (padTo 32 Config.identityKey ++ padTo 64 Config.endorsement)) m)

/-! ### OWNER_ENROL (R450, R498) -/

/-- The authorisation of an owner key verifies (R498). -/
def enrolOk (key sig : List Byte) : Bool := Config.ed25519Ok Config.rootKey (le 8 Config.serial ++ key) sig

/-- OWNER_ENROL: KEY_PRESENT, then AUTH_FAILED (R450). -/
def State.serveEnrol (a : Ask) (s : State) : State :=
  let k := a.bytes 16 32
  s.checked a [(s.hub.flash.owner.isSome, 0x0161), (!enrolOk k (a.bytes 48 64), 0x0160)] (fun s =>
    ((s.flashMap (fun f => { f with owner := some k })).log 0x32 0 0 s.hub.frame (keyId k)).done a 0 [])

/-- OWNER_ENROL arrives. -/
def execOwnerEnrol (m : Msg) (s : State) : Host.Outcome State Fault Refusal := .next (s.request 6 3 (fun _ => 116) State.serveEnrol m)

/-! ### CHALLENGE, JTAG (R449, R450, R500) -/

/-- A nonce's 16 bytes by its serial number. -/
def nonceBytes (n : Nat) : List Byte := (List.range 16).map (fun i => Config.nonceByte n i)

/-- Change security. -/
def State.secMap (f : SecSt → SecSt) (s : State) : State := s.hubMap (fun u => { u with sec := f u.sec })

/-- A nonce is good for 60 s. -/
def nonceFresh (now : Nat) (x : List Byte × Nat) : Bool := now ≤ x.2 + 60 * etPerSec

/-- CHALLENGE (R449). -/
def State.serveChallenge (a : Ask) (s : State) : State :=
  let n := nonceBytes s.hub.sec.count
  (s.secMap (fun x => { x with nonces := (n, s.now) :: x.nonces.filter (nonceFresh s.now), count := x.count + 1 })).done a 0 n

/-- CHALLENGE arrives. -/
def execChallenge (m : Msg) (s : State) : Host.Outcome State Fault Refusal := .next (s.request 6 4 (fun _ => 20) State.serveChallenge m)

/-- The owner signature of a JTAG_UNLOCK verifies; not without an owner key (R500). -/
def State.unlockOk (a : Ask) (s : State) : Bool :=
  s.hub.flash.owner.any (fun k => Config.ed25519Ok k (le 8 Config.serial ++ a.bytes 16 16 ++ a.bytes 32 4) (a.bytes 36 64))

/-- JTAG_UNLOCK (R449, R450, R500). -/
def State.serveUnlock (a : Ask) (s : State) : State :=
  let n := a.bytes 16 16
  let d := a.w 32
  s.checked a [(d < 1 || 86400 < d, 0x0104), (!s.hub.sec.nonces.any (fun x => x.1 = n && nonceFresh s.now x), 0x0162),
    (!s.unlockOk a, 0x0160), (!s.stopped, 0x0102)] (fun s =>
    let s1 := s.secMap (fun x => { x with nonces := x.nonces.filter (fun y => y.1 ≠ n), jtag := some (s.now, s.now + d * etPerSec) })
    (s1.log 0x33 0 0 s.hub.frame (le 4 d)).done a 0 [])

/-- JTAG_UNLOCK arrives. -/
def execJtagUnlock (m : Msg) (s : State) : Host.Outcome State Fault Refusal := .next (s.request 6 5 (fun _ => 104) State.serveUnlock m)

/-- JTAG closes, with its entry in the log: how long it was open (R500, R505). -/
def State.jtagShut (s : State) : State :=
  match s.hub.sec.jtag with
  | none => s
  | some (t, _) => (s.secMap (fun x => { x with jtag := none })).log 0x34 0 0 s.hub.frame (le 4 ((s.now - t) / etPerSec))

/-- The level of an EV pin where boundary scan drives pins (R500, log 116): EXTEST and CLAMP, with the levels scanned in, act through the open JTAG
port on the pins of a half whose kill latch is set, and on no other. -/
def State.scanLevel (scan : Option (HalfId → Fin 48 → Bool)) (id : HalfId) (m : Fin 48) (s : State) : Bool :=
  match scan with
  | some f => if s.hub.sec.jtag.isSome && (s.half id).fg.latch then f id m else (s.half id).pinLevel m
  | none => (s.half id).pinLevel m

/-- The duration of an unlock ends (R500): the clock is brought forward to it. -/
def execJtagClose (s : State) : Host.Outcome State Fault Refusal :=
  match s.hub.sec.jtag with
  | none => .next s
  | some (_, t) => .next (if s.clocked then (s.advanceTo t).jtagShut else s)

/-! ### Firmware transfer (R449, R450, R491 to R493) -/

/-- FW_BEGIN: the slot that does not run is erased (R504). -/
def State.serveFwBegin (a : Ask) (s : State) : State :=
  s.checked a [(8388608 < a.w 16, 0x0104)] (fun s =>
    ((s.slotFw s.idleSlot (fun _ => ⟨0, [], 0⟩)).cfgMap (fun c => { c with fw := some (Xfer.open_ (a.w 16)) })).done a 0 [])

/-- FW_BEGIN arrives. -/
def execFwBegin (m : Msg) (s : State) : Host.Outcome State Fault Refusal := .next (s.request 6 0x10 (fun _ => 24) State.serveFwBegin m)

/-- FW_CHUNK (R427, R450): its bytes go into the slot that does not run. -/
def State.serveFwChunk (a : Ask) (s : State) : State :=
  s.checked a (a.chunkChecks s.hub.cfg.fw) (fun s =>
    let x := s.hub.cfg.fw.map (Xfer.add (a.w 16) (a.bytes 24 (a.h 20)))
    let s1 := s.slotFw s.idleSlot (fun f => { f with img := (x.map Xfer.bytes).getD f.img })
    (s1.cfgMap (fun c => { c with fw := x })).done a 0 [])

/-- FW_CHUNK arrives. -/
def execFwChunk (m : Msg) (s : State) : Host.Outcome State Fault Refusal := .next (s.request 6 0x11 (fun a => 28 + a.h 20) State.serveFwChunk m)

/-- The header of a firmware image is recognised: MAGIC and FORMAT (R417, R491). -/
def fwHeader (b : List Byte) : Bool := u32 b 0 = 0x57465450 && u16 b 4 = 1

/-- FW_COMMIT: NO_IMAGE, IMAGE_INCOMPLETE, IMAGE_FORMAT, SIGNATURE_BAD, ROLLBACK_REFUSED; the slot becomes TRIAL for the next reset (R417, R450,
R492, R493). -/
def State.serveFwCommit (a : Ask) (s : State) : State :=
  let b := (s.hub.cfg.fw.map Xfer.bytes).getD []
  let i := s.idleSlot
  s.checked a [(s.hub.cfg.fw.isNone, 0x0117), (!s.hub.cfg.fw.any Xfer.full, 0x0110), (!fwHeader b, 0x0111), (!fwVerify b, 0x0112), (fwSecver b < s.hub.flash.floor, 0x0163)] (fun s =>
    let s1 := (s.slotFw i (fun _ => ⟨2, b, 0⟩)).cfgMap (fun c => { c with fw := none })
    (s1.log 0x31 0 0 s.hub.frame (le 1 i.1 ++ le 1 (fwSecver b))).done a 0 (le 1 i.1))

/-- FW_COMMIT arrives. -/
def execFwCommit (m : Msg) (s : State) : Host.Outcome State Fault Refusal := .next (s.request 6 0x12 (fun _ => 20) State.serveFwCommit m)

end Sys2Proof.Machine
end

