-- ==== Sys2Proof/Machine/Service.lean ====
section
/-! DEFINITION. Mailbox 7: SLEEP_NOTICE, LINK_RESET, RESET, LOG_READ (R401, R451, R452, R505). -/

namespace Sys2Proof.Machine

open Sys2Proof

/-- SLEEP_NOTICE arrives (R401): the host sleeps from its completion on. -/
def execSleepNotice (m : Msg) (s : State) : Host.Outcome State Fault Refusal :=
  .next (s.request 7 1 (fun _ => 20) (fun a s => s.done a 0 []) m)

/-- LINK_RESET (R452): the next frame of each named stream is acceptable. -/
def State.serveLinkReset (a : Ask) (s : State) : State :=
  s.checked a [(1 < a.b 17 || a.dirty 18 2, 0x0104)] (fun s =>
    (s.linkMap (fun l => { l with
      alive := Vector.ofFn (fun i : Fin 8 => if (a.b 16).testBit i.1 then none else l.alive.get i)
      canAlive := if a.b 17 = 1 then Vector.replicate 24 none else l.canAlive })).done a 0 [])

/-- LINK_RESET arrives. -/
def execLinkReset (m : Msg) (s : State) : Host.Outcome State Fault Refusal := .next (s.request 7 2 (fun _ => 24) State.serveLinkReset m)

/-- RESET (R452): its completion is posted and notified, the reset follows 10 ms later. -/
def State.serveReset (a : Ask) (s : State) : State :=
  let t := a.b 16
  s.checked a [(t ≠ 0 && s.noHalf (t - 1), 0x0103), (2 < t || a.dirty 17 3 || a.w 20 ≠ 0x7A5C, 0x0104), (!s.stopped, 0x0102)] (fun s =>
    ((s.done a 0 []).notify).bootMap (fun b => { b with follow := b.follow ++ [(t, s.now + 10 * etPerMs)] }))

/-- RESET arrives. -/
def execReset (m : Msg) (s : State) : Host.Outcome State Fault Refusal := .next (s.request 7 3 (fun _ => 28) State.serveReset m)

/-- The 32 bytes of an event log entry (R505). -/
def LogE.bytes (e : LogE) : List Byte :=
  let b := le 4 e.idx ++ le 1 e.typ ++ le 1 e.place ++ le 2 e.code ++ leW e.frame ++ le 4 e.boot ++ (e.data ++ zeros 12).take 12
  b ++ leW (crc32c b)

/-- LOG_READ (R451, R505): from the first entry asked for, or the oldest that stands. -/
def State.serveLogRead (a : Ask) (s : State) : State :=
  let n := a.h 20
  s.checked a [(n < 1 || 30 < n || a.dirty 22 2, 0x0104)] (fun s =>
    let es := (s.hub.flash.log.reverse.filter (fun e => a.w 16 ≤ e.idx)).take n
    let first := match es with | e :: _ => e.idx | [] => a.w 16
    s.done a 0 (le 4 first ++ le 2 es.length ++ zeros 2 ++ es.flatMap LogE.bytes))

/-- LOG_READ arrives. -/
def execLogRead (m : Msg) (s : State) : Host.Outcome State Fault Refusal := .next (s.request 7 4 (fun _ => 28) State.serveLogRead m)

end Sys2Proof.Machine
end

