-- ==== Sys2Proof/Machine/Tick.lean ====
section
/-! DEFINITION. The control frame tick (R35 to R43, R246, R254, R391, R456 to R460, R469 to R478), heartbeats, overruns. The
stewards work first, then S0, then S1 (log 8). -/

namespace Sys2Proof.Machine

open Sys2Proof

/-- An operation of each half that works, what it hands over taken. -/
def State.liveHalves (f : Half → Half) (s : State) : State := eachOf bothHalves (fun id t => t.act id f) s

/-! ### Links and roles (R29, R30, R469 to R478) -/

/-- A tick passes on a link: three without a valid frame and it is lost (R29). -/
def LinkSt.tick (l : LinkSt) : LinkSt :=
  let m := if l.got then 0 else l.missed + 1
  { l with missed := m, good := if l.got then l.good else 0, up := l.up && m < 3, got := false }

/-- The links of a half at a tick; LEAT_LOST and HUB_LINK_LOST where one is lost (R29, R478). -/
def Half.linkTick (h : Half) : Half :=
  let l := h.links
  let h1 : Half := { h with links := { l with leat := l.leat.tick, hub := l.hub.tick } }
  let h2 := if l.leat.up && !l.leat.tick.up then h1.raise 0x50 (locHalf h.id) else h1
  if l.hub.up && !l.hub.tick.up then h2.raise 0x51 (locHalf h.id) else h2

/-- The role the links give (R469): 0 JOINED, 1 HUB_ONLY, 2 LEAT_ONLY, 3 ISLANDED. -/
def Links.roleNow (l : Links) : Nat := if l.hub.up then (if l.leat.up then 0 else 1) else if l.leat.up then 2 else 3

/-- The hub takes part in the links: it has started the stewards (R489), and no image differs from the halves' (R487). -/
def State.hubLinks (s : State) : Bool := s.clocked && 3 ≤ s.hub.boot.stage && s.hub.boot.stage ≤ 5 && !s.hub.boot.cfgMis

/-- The path to the hub the links give, direct or through the other half (R469). -/
def State.pathNow (id : HalfId) (s : State) : Bool :=
  let l := (s.half id).links
  s.hubLinks && (l.hub.up || (l.leat.up && (s.half id.other).links.hub.up && (s.half id.other).on))

/-- At a rejoin a half that is not a cylinder's home takes the home half's count (R389): that of the throw cycle both are in. -/
def State.takeCounts (id : HalfId) (s : State) : State :=
  s.setHalf (eachIdx 24 (fun k h =>
    let c := h.cyls.get k
    let cyl := schCylCyl c.cfg
    match (s.half id.other).laneCyc cyl with
    | some n =>
      if !schCylValid c.cfg || h.isHome cyl || !(s.half id.other).on then h
      else h.setCount k (BitVec.ofNat 32 (if c.committed then n else n + 2 ^ 32 - 1)) (if c.committed then (c.mine.map (·.2)).getD [] else [])
    | none => h) (s.half id)) id

/-- Role and path of a half follow its links; leaving ISLANDED and regaining the path wait for the rejoin instant (R469, R475). -/
def State.takeRole (rejoin : Bool) (id : HalfId) (s : State) : State :=
  let h := s.half id
  let l := h.links
  let r := l.roleNow
  let p := s.pathNow id
  if ((l.role = 3 && r ≠ 3) || (!l.path && p)) && !rejoin then
    s.setHalf { h with links := { l with rejoin := true, turned := l.rejoin && l.turned } } id
  else
    let h1 : Half := { h with links := { l with
      role := r, path := p, rejoin := false, splits := if l.role = 0 && r ≠ 0 then (l.splits + 1) % 65536 else l.splits } }
    let s1 := s.setHalf (if r = 3 && l.role ≠ 3 then h1.raise 0x52 (locHalf id) else h1) id
    if rejoin then s1.takeCounts id else s1

/-- The two trackers' cycle angles of one FRAME differ by more than 0.1 degree (R30). -/
def Half.disagrees (h : Half) : Bool :=
  match h.links.other with
  | none => false
  | some hb =>
    let own : Bool × Int := if hb.frame = h.frame then (h.snap.valid, h.snap.angle)
      else if hb.frame = h.links.prev.1 then h.links.prev.2 else (false, 0)
    own.1 && hb.valid && 10 * (wrapS h.cycLen (own.2 - hb.angle)).natAbs > 65536

/-- The rejoin instant has come (R475): the cycle angle has wrapped with the trackers in agreement, or one of them has no valid
angle. A tick without a heartbeat of the other half goes by `valid`, and shows no disagreement (log 92). -/
def Half.rejoinNow (valid : Bool) (h : Half) : Bool :=
  h.links.rejoin && (!h.snap.valid || !(h.links.other.map (·.valid)).getD valid || (h.links.turned && !h.disagrees))

/-- TRACKER_DISAGREE (R30); the rejoin span starts again (R475). -/
def Half.agreement (h : Half) : Half :=
  if h.disagrees then ({ h with links := { h.links with turned := false } } : Half).raise 0x13 h.srcLoc else h

/-- What the hub gets of a record kept without a path: posted with the FRAME of the event (R455, R460). -/
def State.forward1 (x : HalfId × Out) (s : State) : State :=
  match x.2 with
  | .unsol mb cmd frame payload wake => s.unsol mb cmd frame payload wake
  | o => s.take x.1 o

/-- A HALF_Q record reaches the hub (R412): appended with its original FRAME and TS; where it is an event of a class the hub counts, the hub
counts it (R460, R461). -/
def State.forwardRec (id : HalfId) (r : WeirRec) (s : State) : State :=
  let c := r.src - (id.weirBase + 0x080)
  s.hubMap (fun u =>
    let u1 := u.weirWrite s.ts r.src r.kind r.level true r.frame r.ts r.payload
    if id.weirBase + 0x080 ≤ r.src && cntHub c && !cntHalf c then
      { u1 with flt := { u1.flt with queue := u1.flt.queue ++ [⟨c, r.frame, r.payload⟩] } }
    else u1)

/-- An open record of a half becomes the hub's: it joins the one the hub has of the same cycle, or stands alone (R325, R327). -/
def Recs.adopt (c : CycRec) (r : Recs) : Recs :=
  let c1 : CycRec := { c with place := none, flags := c.flags ||| 4096 }
  if r.opens.any (CycRec.is none c.o.cyl c.o.cyc) then
    { r with opens := r.opens.map (fun d => if CycRec.is none c.o.cyl c.o.cyc d then
        { d with wait := d.wait ++ c1.wait, ents := d.ents ++ c1.ents, flags := d.flags ||| c1.flags,
                 cmb := if d.cmb.isSome then d.cmb else c1.cmb, imep := if d.imep.isSome then d.imep else c1.imep } else d) }
  else { r with opens := r.opens ++ [c1] }

/-- A half regains its path (R412, R327, R476): its HALF_Q records and what was kept go to the hub, its closed cycle records to
the Tarn; the hub builds on those that are open. A HALF_Q record the steward has not consumed stays for it. -/
def State.forward (id : HalfId) (s : State) : State :=
  let h := s.half id
  let s1 := s.setHalf { h with evq := (h.evq.filter (fun r => !(r.halfQ && r.taken))).map (fun r => { r with halfQ := false }) } id
  let s2 := eachOf (h.evq.filter (·.halfQ)) (State.forwardRec id) s1
  let mine := s2.kept.filter (fun x => x.1 = id)
  let s3 := eachOf mine State.forward1 { s2 with kept := s2.kept.filter (fun x => x.1 ≠ id) }
  let recs := s3.hub.recs.kept.filter (fun x => x.1 = id)
  let s4 := eachOf recs (fun x t => t.tarnMap (Tarn.addRecs t.hub.frame x.2)) s3
  let s5 := s4.recsMap (fun r => eachOf (r.opens.filter (fun c => c.place = some id)) Recs.adopt
    { r with kept := r.kept.filter (fun x => x.1 ≠ id), opens := r.opens.filter (fun c => c.place ≠ some id) })
  -- results that found no record without the path may have one at the hub (R325)
  let own (r : ResOut) : Bool := r.lane / 12 = id.num
  eachOf (s5.hub.recs.early.filter own) (State.fileResult id) (s5.recsMap (fun r => { r with early := r.early.filter (fun x => !own x) }))

/-- The other half's heartbeat has been taken up. -/
def Half.otherDone (h : Half) : Half := { h with links := { h.links with other := none } }

/-- Link supervision at a tick: losses, agreement, roles, rejoin (R29, R30, R469, R475, R476). -/
def State.linksTick (s : State) : State :=
  let on (id : HalfId) : Bool := s.live id
  let s1 := eachOf (bothHalves.filter on) (fun id t => t.setHalf (t.half id).linkTick id) s
  let back := (bothHalves.filter on).filter (fun id => (s1.half id).rejoinNow (on id.other && (s1.half id.other).snap.valid))
  let s2 := eachOf (bothHalves.filter (fun id => on id && s1.runs id.stew)) (fun id t => t.setHalf (t.half id).agreement id) s1
  let s3 := eachOf (bothHalves.filter on) (fun id t => t.takeRole (back.contains id) id) s2
  -- what a steward without foreground for this tick has not compared waits for its late one (`State.lateAgreement`)
  let s4 := eachOf (bothHalves.filter (fun id => on id && s1.runs id.stew)) (fun id t => t.setHalf (t.half id).otherDone id) s3
  let s5 := s4.flush.disCheck
  eachOf ((bothHalves.filter on).filter (fun id => !(s2.half id).links.path && (s5.half id).links.path)) State.forward s5

/-- A heartbeat counts as valid on a link (R29): its CRC matches and its alive counter does not repeat. -/
def LinkSt.valid (l : LinkSt) (hb : Heartbeat) : Bool := hb.crcOk && l.alive ≠ some hb.alive

/-- A frame on a link (R29): sixteen consecutive valid heartbeats restore it. -/
def LinkSt.hear (l : LinkSt) (hb : Heartbeat) : LinkSt :=
  if l.valid hb then { l with alive := some hb.alive, got := true, missed := 0, good := l.good + 1, up := l.up || 16 ≤ l.good + 1 }
  else { l with good := 0 }

/-- The check units snoop the Leat (R27) with the rules of host frames (R383, R384) on a counter of their own for each direction:
the first frame is accepted, one in sequence or with one lost advances the counter, a stale one leaves it, a jump sets it. -/
def State.leatCheck (id : HalfId) (hb : Heartbeat) (s : State) : State :=
  if !s.hubOn then s
  else if !hb.crcOk then s.checkFail none
  else
    let set (s : State) : State := s.hubMap (fun u => { u with leat := put1 u.leat id.toward (some hb.alive) })
    match s.hub.leat.get id.toward with
    | none => set s
    | some a =>
      let d := (hb.alive - a).toNat
      if d = 1 then set s
      else if d = 2 then (set s).raiseHub 0x61 locHub
      else if d = 0 || 32768 ≤ d then s.checkFail none
      else (set s).checkFail none

/-- A heartbeat arrives at a half (R28, R29, R389, R475, R539). -/
def State.heartbeat (id : HalfId) (link : Link) (hb : Heartbeat) (s : State) : State :=
  if !s.live id || (link = .hub && !s.hubLinks) then s else
  let h := s.half id
  let l := match link with | .leat => h.links.leat | .hub => h.links.hub
  let s0 := if link = .leat then s.leatCheck id hb else s
  let set (k : Links) : Links := match link with
    | .leat => { k with leat := l.hear hb }
    | .hub => { k with hub := l.hear hb }
  let h1 : Half := { (s0.half id) with links := set (s0.half id).links }
  if !l.valid hb then s0.setHalf h1 id else
  let h2 := eachOf hb.counts (fun c h => h.countReport c.1 hb.frame c.2) { h1 with links := { h1.links with other := some hb } }
  let s1 := (s0.setHalf h2 id).flush.disCheck
  if l.up then s1 else ((s1.takeRole false id).takeRole false id.other).flush

/-- A heartbeat arrives on the Leat or a hub link (R28): the frame as the link brings it. An undisturbed link brings the other
half's `links.tx` (log 105). -/
def execHeartbeatReceive (h : HalfId) (link : Link) (hb : Heartbeat) (s : State) : Host.Outcome State Fault Refusal :=
  .next (s.heartbeat h link hb)

/-! ### Fault counting (R456 to R460) -/

/-- FAULT_LASTING's payload (R454); the place is 0 half A, 1 half B, 2 the hub. -/
def lastingPay (cls place : Nat) (loc : Word) (n : Nat) : List Byte := le 2 cls ++ le 1 place ++ zeros 1 ++ evData loc n

/-- A half counts one of its events (R456, R458, R460). -/
def Half.countEv (e : Ev) (h : Half) : Half :=
  let (f, now, quiet) := h.flt.count1 h.frame e
  let n := f.count e.cls
  let h1 : Half := { h with flt := f }
  let h2 := if quiet then h1.emit (.log 0x10 e.cls e.frame (evData e.loc n)) else h1
  if now then (h2.emit (.log 0x11 e.cls e.frame (evData e.loc n))).emit (.unsol 4 0x8001 e.frame (lastingPay e.cls h.id.num e.loc n) true) else h2

/-- Classes that return to transient in a half (R459, R460). -/
def Half.classEnds (h : Half) : Half :=
  eachIdx 192 (fun c h =>
    if h.flt.ends c then
      let r := h.flt.cnt.get c
      ({ h with flt := { h.flt with cnt := put1 h.flt.cnt c { r with lasting := false } } } : Half).emit
        (.log 0x12 c.1 h.frame (evData r.loc (h.flt.count c.1)))
    else h) h

/-- Fault counting of a half, steward foreground step 5 (R458). -/
def Half.countAll (h : Half) : Half :=
  (eachOf h.flt.queue Half.countEv { h with flt := { h.flt with queue := [] } }).classEnds

/-- The hub counts one of its events; one already older than its window is only logged (R456, R458, R460). -/
def State.countEv (e : Ev) (s : State) : State :=
  let fr := s.hub.frame
  let (f, now, quiet) := s.hub.flt.count1 fr e
  let n := f.count e.cls
  let s1 := s.hubMap (fun u => { u with flt := f })
  let s2 := if quiet then s1.log 0x10 0 e.cls e.frame (evData e.loc n) else s1
  if now then (s2.log 0x11 0 e.cls e.frame (evData e.loc n)).unsol 4 0x8001 fr (lastingPay e.cls 2 e.loc n) true else s2

/-- The hub classes S0 counts: host link, Weir, PTP, clock, floodgate, power (R458). -/
def s0Class (c : Nat) : Bool := [0x1F, 0x2A, 0x2B, 0x60, 0x61, 0x62, 0x63, 0x66, 0x67, 0x68, 0x69, 0x70, 0x71, 0x72].contains c

/-- The hub's revolutions and wraps are those of the primary half (R457), each at the hub's frame tick of the same FRAME; without a path to it
those it had. -/
def State.hubTurns (s : State) : State :=
  let p := s.half s.primary
  if !s.reach p.id then s else
  s.hubMap (fun u =>
    let shift : Int := u.flt.tickOf u.frame p.frame - p.flt.ticks
    { u with flt := { u.flt with revs := p.flt.revs.map (· + shift), wraps := p.flt.wraps.map (· + shift) } })

/-- Fault counting of a hub core, foreground step 5 (R458); rev and cyc windows as the primary half has them (R457). -/
def State.countHub (mine : Nat → Bool) (s : State) : State :=
  let q := s.hub.flt.queue
  let s1 := s.hubTurns.hubMap (fun u => { u with flt := { u.flt with queue := q.filter (fun e => !mine e.cls) } })
  let s2 := eachOf (q.filter (fun e => mine e.cls)) State.countEv s1
  eachIdx 192 (fun c t =>
    if mine c.1 && t.hub.flt.ends c then
      let r := t.hub.flt.cnt.get c
      (t.hubMap (fun u => { u with flt := { u.flt with cnt := put1 u.flt.cnt c { r with lasting := false } } })).log 0x12 0 c.1 t.hub.frame
        (evData r.loc (t.hub.flt.count c.1))
    else t) s2

/-! ### The stewards (R38) -/

/-- The half event queue is consumed (R412): HALF_Q records stay for forwarding. -/
def Half.takeQueue (h : Half) : Half :=
  let psf := h.evq.filter (fun r => !r.taken && r.level && h.id.weirBase ≤ r.src && r.src < h.id.weirBase + 4)
  eachOf psf (fun _ h => h.raise 0x23 (locInp h.id 7)) { h with evq := (h.evq.filter (·.halfQ)).map (fun r => { r with taken := true }) }

/-- The fraction of a frozen share (R255): SPLIT_A. -/
def ResSt.split (id : HalfId) (x : ResSt) : Rat :=
  let a : Rat := (resCfg0SplitA x.c0 : Rat) / 100
  match id with | .A => a | .B => 1 - a

/-- A reservoir at a tick. A half that measures it has its U_MEAS (R241). A share while shares are frozen (R255): a half out of JOINED
freezes it, it recharges, and the half corrects it where it measures the reservoir itself. -/
def Half.shareTick (r : Fin 8) (h0 : Half) : Half :=
  let x0 := h0.led.res.get r
  let x : ResSt := if (resInput x0.c0).1 = h0.id then { x0 with uMeas := h0.lastEnergy x0 } else x0
  let h := h0.resMap r (fun _ => x)
  if !resCfg0Valid x.c0 || !x.shared then h else
  let f := x.split h.id
  let x1 : ResSt := if h.links.role ≠ 0 && !x.frozen then
      { x with frozen := true, share := if x.frac = 0 then x.share else x.share * f / x.frac, frac := f } else x
  if !x1.frozen then h else
  let e := recharge (x1.frac * x1.power h.led.vIn) (x1.frac * x1.uMax) x1.share 8000
  let own := (resInput x1.c0).1 = h.id
  let lim : Rat := match h.lastEnergy x1 with
    | some u => if own then min e (x1.frac * u) else e
    | none => e
  h.resMap r (fun _ => { x1 with share := lim })

/-- Foreground step 4 (R38, R43, R246, R247): projection, then commits. -/
def Half.step4 (h : Half) : Half :=
  let h1 := eachIdx 8 Half.shareTick h
  (eachIdx 8 (fun r h => Half.shortfalls h.claimDue r h) h1).commits

/-- The cylinders committed at this frame with their counts (R389, R539). -/
def Half.countsNow (h : Half) : List (Nat × Word) :=
  h.cyls.toList.filterMap (fun s => match s.mine with
    | some (fr, _) => if schCylValid s.cfg && fr = h.frame then some (schCylCyl s.cfg, s.count) else none
    | none => none)

/-- The half's heartbeat of this frame (R28, R389): the snapshot of the tick, and the counts of the cylinders committed in the
frame. It leaves on the Leat and on the hub link with the next alive counter (R27). -/
def Half.sendHeartbeat (h : Half) : Half :=
  let p := h.snap
  { h with links := { h.links with
      tx := some ⟨true, h.links.hbOut, h.frame, p.st, p.valid, p.angle, p.speed, p.astern, h.countsNow⟩, hbOut := h.links.hbOut + 1 } }

/-- Foreground step 5 (R28, R38, R463): the heartbeats, counting, the switch by class. -/
def Half.step5 (h : Half) : Half := h.sendHeartbeat.countAll.switchByClass

/-- What a half latches and takes up at a tick, before foreground (R36, R253, R280, R289, R358, R463); a wrap of the cycle angle
since the last tick counts on the ledger. -/
def Half.atTick (rb : BitVec 48) (ref : Nat) (h : Half) : Half :=
  let h1 : Half := { h with links := { h.links with prev := (h.frame, h.snap.valid, h.snap.angle) }, frame := h.frame + 1,
                             flt := h.flt.tick }
  let h2 := h1.takeSnap
  let h3 : Half := { h2 with chans := Vector.ofFn (fun m : Fin 48 => { h2.chans.get m with rb := rb.getLsbD m.1 }),
                             acq := { h2.acq with vRef := sat 13 ref } }
  let h4 := eachOf ((List.range 6).map Inp.ofCode) Half.holdTick h3.acqTick.calEnableTick.slTick
  if h4.links.wrapped then h4.ledWrap else h4

/-- The foreground of some stewards (R38): at the tick, with the switch between the setpoint streams, or late (R41). -/
def State.stewards (late : Bool) (on : HalfId → Bool) (s : State) : State :=
  let s1 := s.fore on Half.tableTwist
  let s2 := s1.fore on (fun h => h.takeQueue.slService)
  let s3 := if !s2.hubOn then s2 else if late then s2.staging late on else (s2.staging late on).sourceTick
  (s3.fore on Half.step4).fore on Half.step5

/-! ### S0 and S1 (R38) -/

/-- P_IN in 0.1 W from V_IN in 0.1 V and the input current in mA (R262). -/
def TickIn.pIn (i : TickIn) : Nat := (roundFree 56 ((i.vIn * i.iIn : Nat) : Int) 1000).toNat

/-- V_IN and P_IN of the tick (R262, R265, R266): the halves the hub reaches get V_IN. -/
def State.powerTick (i : TickIn) (s : State) : State :=
  let high := 600000 < i.vIn * i.iIn
  let s1 := s.pwrMap (fun p => { p with
    vIn := i.vIn, pIn := TickIn.pIn i, overAt := if high then some (p.overAt.getD s.now) else none, raised := high && p.raised })
  let s2 := s1.bootMap (fun b => { b with v := i.vIn })
  eachOf bothHalves (fun id t =>
    if t.reach id then t.setHalf (({ t.half id with
      led := { (t.half id).led with vIn := i.vIn, vIns := ((t.now, i.vIn) :: (t.half id).led.vIns).take 16 } } : Half).setShed t.hub.pwr.shed) id else t) s2

/-- S0's foreground (R38): queue 0 and mailbox 0, host intake, queues 1 to 3 (R409), notification, counting. -/
def State.s0 (s : State) : State :=
  let s1 := (s.fgCheck).weirMap (fun w => { w with queues := put1 w.queues 0 [] })
  let s2 := s1.serveMb0.intake
  let s3 := s2.weirMap (fun w => { w with queues := put1 (Vector.replicate 4 []) 0 (w.queues.get 0) })
  let s4 := if s3.hub.link.wants s3.now then s3.notify else s3
  s4.countHub s0Class

/-- The measured energy of a reservoir (R241, R254); none where the half that samples it cannot be reached or has no sample. -/
def State.measured (r : Fin 8) (s : State) : Option Rat :=
  let x := s.a.led.res.get r
  let id := (resInput x.c0).1
  if s.reach id then (s.half id).lastEnergy x else none

/-- f_A after a wrap (R254): the share of the reserved costs, within 0.10 to 0.90. -/
def shareOf (a b old : Rat) : Rat := if a + b = 0 then old else max (1 / 10) (min (9 / 10) (a / (a + b)))

/-- S1's ledger work on one reservoir (R241, R254 to R256, R267): the shares of the cycle just ended at a wrap; frozen in a split, from the
value of the last tick before it, and taken up at the first wrap after the tick at which the links have rejoined. -/
def State.resTick (split wrap : Bool) (r : Fin 8) (s : State) : State :=
  let x := s.a.led.res.get r
  if !resCfg0Valid x.c0 then s else
  let p := s.hub.res.get r
  let m := s.measured r
  let u := m.getD p.u
  let below := match m with | some v => decide (v ≤ 0) | none => p.below
  let f0 := x.split .A
  let ba := (s.a.led.res.get r).prev
  let bb := (s.b.led.res.get r).prev
  let cycled := p.cycled || (wrap && !split && ba + bb ≠ 0)
  let frozen := x.shared && (split || (p.frozen && (!wrap || p.split)))
  let f := if frozen || !cycled then f0 else if wrap then shareOf ba bb p.fA else p.fA
  let s1 := s.hubMap (fun h => { h with res := put1 h.res r ⟨u, p.known || m.isSome, below, f, cycled, frozen, split⟩ })
  let s2 := if below && !p.below then
      let (id, i) := resInput x.c0
      s1.raiseHub 0x6F (locAin id i.1) else s1
  eachOf bothHalves (fun id t =>
    if !t.reach id then t else
    let y := (t.half id).led.res.get r
    let fh : Rat := match id with | .A => f | .B => 1 - f
    let y1 : ResSt := if m.isSome then { y with uMeas := m } else y
    let model : Rat := if y.frozen then y.share else fh * p.u
    let y2 : ResSt := if !y.shared then y1
      else { y1 with frac := fh, frozen := frozen, share :=
        if !frozen then fh * u else match m with | some v => min model (fh * v) | none => model }
    t.setHalf ((t.half id).resMap r (fun _ => y2)) id) s2

/-- S1's foreground (R38): ledger, links are supervised already, results, cycle records, counting. -/
def State.s1 (s : State) : State :=
  let split := s.a.links.role ≠ 0 || s.b.links.role ≠ 0
  let wrap := (s.half s.primary).links.wrapped || s.hub.wrapOwed
  let s1 := eachIdx 8 (State.resTick split wrap) s
  (((s1.resultIntake).closeRecs).countHub (fun c => !s0Class c)).hubMap (fun u => { u with wrapOwed := false })

/-- The wrap that ends a cycle of the reserved costs (R254): the primary half's for every half the hub reaches, its own for another. -/
def State.bookTick (s : State) : State :=
  eachOf bothHalves (fun id t =>
    if (s.half (if s.reach id then s.primary else id)).links.wrapped then t.setHalf (t.half id).bookWrap id else t) s

/-- Staged profiles copied by each half at a frame tick, where no pair runs under them (R219). -/
def State.profileCopies (s : State) : State := eachOf bothHalves (fun id t => eachIdx 32 (State.profileCopy id) t) s

/-- S1 has no foreground for this tick (R41): a wrap at it waits for the next. -/
def State.s1Passed (s : State) : State :=
  s.hubMap (fun u => { u with wrapOwed := u.wrapOwed || (s.half s.primary).links.wrapped })

/-! ### The tick -/

/-- KEY is low: the wait of 2 s begins at the first tick with both trackers in STOP (R484). -/
def State.keyTick (s : State) : State :=
  let b := s.hub.boot
  if b.key || b.keyAt.isSome || !s.stopped then s else s.bootMap (fun b => { b with keyAt := some s.now })

/-- Level sources whose record was not appended are recorded where their queue has room (R410). -/
def State.levelsTick (s : State) : State :=
  eachOf (s.hub.weir.levels.map (·.src)) (fun n t => if t.hasRoom n then t.levelTry n else t) s

/-- A stored image that can be applied (R425, R494, R497). -/
def State.storedOk (b : List Byte) (s : State) : Bool := cfgHeaderOk b && s.cfgVerify b

/-- CFG_MISMATCH ends once both trackers are in STOP (R487): the stored image is applied as a CONFIG_COMMIT would. -/
def State.mismatchTick (s : State) : State :=
  if !s.hub.boot.cfgMis || s.hub.boot.stage ≠ 4 || !s.stopped then s else
  match s.hub.flash.store.find? (fun b => s.storedOk b) with
  | none => s
  | some b =>
    let s1 := ((s.cancelExpert).linkMap (fun l => { l with backup := [] })).putInForce b
    (s1.log 0x20 0 0 s1.hub.frame ((cfgDigest b).take 12)).bootMap (fun x => { x with cfgMis := false })

/-- What the hub does at a tick before any core's foreground: commits applied (R428), latches released (R232), work requested (R421,
R431, R436, R440), level sources tried again. -/
def State.hubFirst (i : TickIn) (s : State) : State :=
  if !s.hubOn then s else ((s.powerTick i).mismatchTick.applyCommits.fgRelease.runJobs).levelsTick

/-- A core works: S0 and S1 with the hub, a steward with its half. -/
def State.coreOn (n : Fin 4) (s : State) : Bool := if n.1 < 2 then s.hubOn else s.live (if n.1 = 2 then .A else .B)

/-- The watchdogs are serviced at the end of each foreground (R486); a core whose foreground runs on past the next tick has
neither foreground nor background in this frame (R40, R41). -/
def State.dogs (s : State) : State :=
  s.hubMap (fun u => { u with
    lastWd := Vector.ofFn (fun n : Fin 4 => if s.coreOn n && s.runs n then s.now else u.lastWd.get n)
    behind := Vector.ofFn (fun n : Fin 4 => if s.runs n then none else u.behind.get n)
    owed := Vector.ofFn (fun n : Fin 4 => if s.runs n then none else u.behind.get n)
    noBg := Vector.ofFn (fun n : Fin 4 => !s.runs n) })

/-- The background of the frame that ends at a tick (R39, R40): S0's telemetry. -/
def State.background (s : State) : State := if s.hubOn && !s.hub.noBg.get 0 then s.telemetry else s

/-- The hub's foreground at a tick (R38, R41); without the hub the halves close their own records (R327). -/
def State.hubFore (s : State) : State :=
  if !s.hubOn then s.closeRecs else
  let s1 := if s.runs 0 then s.s0 else s
  let s2 := if s1.runs 1 then s1.s1 else s1.s1Passed
  s2.alignTick

/-- Tracker agreement in a late foreground (R30, R41): the heartbeat of a FRAME before the present, which the tick left uncompared. -/
def Half.lateAgreement (h : Half) : Half := if h.links.other.any (·.frame = h.frame) then h else h.agreement.otherDone

/-- The foreground of one core, on the state as the latest tick left it (R38, R41). -/
def State.foreground (n : Fin 4) (s : State) : State :=
  if !s.coreOn n then s else
  match n with
  | 0 => s.s0
  | 1 => s.s1
  | 2 => (s.act .A Half.lateAgreement).stewards true (· = .A)
  | 3 => (s.act .B Half.lateAgreement).stewards true (· = .B)

/-- The core whose late foreground starts first, no later than `t`, and when (R41). -/
def State.nextOwed (t : Nat) (s : State) : Option (Fin 4 × Nat) :=
  (idxs 4).foldl (fun m n => match s.hub.owed.get n, m with
    | some e, none => if e ≤ t then some (n, e) else none
    | some e, some x => if e < x.2 then some (n, e) else m
    | none, _ => m) none

/-- A foreground that ran on past a tick has ended: the core's watchdog is serviced (R486) and its next foreground starts at once (R41). -/
def State.lateOne (t : Nat) (s : State) : State :=
  match s.nextOwed t with
  | none => s
  | some (n, e) => (s.advanceTo e).hubMap (fun u => { u with owed := put1 u.owed n none, lastWd := put1 u.lastWd n e }) |>.foreground n

/-- The late foregrounds that start no later than `t`, each at its instant (R41, log 104). -/
def State.late (t : Nat) (s : State) : State := (List.range 4).foldl (fun s _ => s.lateOne t) s

/-- A frame tick (R35 to R41). -/
def State.frameTick (i : TickIn) (s00 : State) : State :=
  let s0 := s00.late (s00.hub.tick + 8000)
  let s := (s0.advanceTo (s00.hub.tick + 8000)).background
  let s1 := (s.hubMap (fun u => { u with frame := u.frame + 1, tick := s.now, flt := u.flt.tick })).linksTick
  let s2 := (s1.act .A (Half.atTick i.rbA i.refA)).act .B (Half.atTick i.rbB i.refB)
  let s3 := s2.stagesDue.bookTick
  let s4 := (((s3.hubFirst i).profileCopies).stewards false (fun id => s.runs id.stew)).hubFore
  let done (h : Half) : Half := { h with links := { h.links with wrapped := false } }
  ({ s4 with a := done s4.a, b := done s4.b } : State).dogs.keyTick

/-- FRAME_TICK (R36): nothing while EVCLK stands still (R31). -/
def execFrameTick (inp : TickIn) (s : State) : Host.Outcome State Fault Refusal := .next (if s.clocked then s.frameTick inp else s)

/-- A core runs no background in this frame; where its foreground ends after the next tick, `ends` et after this one, that is
remembered (R40, R41): its next foreground starts then. -/
def State.overran (n : Fin 4) (ends : Nat) (s : State) : State :=
  s.hubMap (fun u => { u with noBg := put1 u.noBg n true, behind := if 8000 < ends then put1 u.behind n (some (u.tick + ends)) else u.behind })

/-- FRAME_OVERRUN (R40, R41, R462): 7.000 us after the tick a core has not finished its foreground, which ends `o.ends` et after the
tick. Counted in the half of a steward, in the hub for S0 and S1. -/
def execFrameOverrun (o : Overrun) (s : State) : Host.Outcome State Fault Refusal :=
  .next (if !s.coreOn o.core.ix then s else
    let s1 := ((s.late (s.hub.tick + 5600)).advanceTo (s.hub.tick + 5600)).overran o.core.ix o.ends
    match o.core with
    | .stewA => s1.onHalf .A (fun h => h.raise 0x1F (locInp h.id 7))
    | .stewB => s1.onHalf .B (fun h => h.raise 0x1F (locInp h.id 7))
    | _ => s1.raiseHub 0x1F locHub)

end Sys2Proof.Machine
end

