-- ==== Sys2Proof/Machine/Boot.lean ====
section
/-! DEFINITION. Supply, KEY, resets and boot (R481 to R495, R234, R235, R389, R500). -/

namespace Sys2Proof.Machine

open Sys2Proof

/-! ### Resets (R485 to R488) -/

/-- RESET_CAUSE takes a cause (R488). -/
def BootSt.record (c : Nat) (b : BootSt) : BootSt := { b with cause := c, prev := b.cause, count := b.count + 1 }

/-- Everything restarts (R485): the dies as after power-up, the latches set through POWER_UP. The flash, the always-on store, what
the supply and the pins stand at, and what has left the module stay. -/
def State.allReset (s : State) : State :=
  let u := s.hub
  let f : FgHub := { FgHub.reset with fga := u.fg.fga, fgb := u.fg.fgb, hiAt := u.fg.hiAt, diffAt := u.fg.diffAt, lowA := u.fg.lowA, lowB := u.fg.lowB }
  let b : BootSt := { BootSt.reset with
    v := u.boot.v, key := u.boot.key, awake := u.boot.awake, cause := u.boot.cause, prev := u.boot.prev, count := u.boot.count
    keyAt := if u.boot.key then none else some s.now, slot := u.boot.slot, next := 0 }
  let l : HostLink := { HostLink.reset with sent := u.link.sent }
  let h (id : HalfId) : Half := { Half.reset id 0 with now := s.now }
  { s with a := h .A, b := h .B, kept := [], hub := { Hub.reset with
      tick := s.now, fg := f, boot := b, link := l, flash := u.flash, sec := ⟨[], none, u.sec.count⟩
      lastWd := Vector.replicate 4 s.now } }

/-- A reset of the module with a cause (R485, R488, R500): a cold boot follows. -/
def State.moduleReset (cause : Nat) (s : State) : State := (s.jtagShut.allReset).bootMap (BootSt.record cause)

/-- The requests that wait on a half, as (mailbox, SEQ). -/
def State.waiting (id : HalfId) (s : State) : List (Nat × BitVec 16) :=
  let h := s.half id
  let m3 := h.acq.seqs.toList.filterMap (fun q => q.mask.map (·.2.1)) ++ h.slots.toList.flatMap (·.freeSeq) ++
    h.profNew.toList.filterMap (fun p => p.map (·.2)) ++
    h.slu.grp.toList.flatMap (fun g => (g.ctl.filter (·.2.2)).map (·.2.1) ++ (g.swap.map (·.req.1)).toList)
  let m4 := h.acq.grps.toList.flatMap (fun g => g.asked.map (·.2.1) ++ (g.mine.map (·.1)).toList ++ g.wait.filterMap (fun x => x.2.2.map (·.1))) ++ (h.acq.tdac.req.map (·.1)).toList ++
    (s.hub.cal.diags.filter (fun d => d.h = id)).map (·.req.1)
  m3.map (fun q => (3, q)) ++ m4.map (fun q => (4, q))

/-- Requests that wait on a half complete with CANCELLED. -/
def State.cancelHalf (id : HalfId) (s : State) : State :=
  eachOf (s.waiting id) (fun x t => t.finish x.1 x.2 0x0105 [])
    (s.calMap (fun c => { c with diags := c.diags.filter (fun d => d.h ≠ id) }))

/-- Calibration values logged under the image's digest stand in a half (R151, R148). -/
def Half.takeCal (cal : List (Nat × Int × Int) × Int) (h : Half) : Half :=
  let h1 := h.twsMap (fun t => { t with cyl := t.cyl.map (fun c =>
    match cal.1.find? (fun x => c.valid && x.1 = c.cyl) with
    | some x => { c with w := (c.w &&& 0x0000FFFF#32) ||| putI x.2.1 16 16, s := BitVec.ofInt 32 x.2.2 }
    | none => c) })
  h1.alignWheel cal.2

/-- A half that was reset gets its configuration from the hub's image, with the logged calibration values (R151, R485). What TRACKER_SET gave it
is gone, where the other half keeps its own (R63, R436, log 113). -/
def State.reconfigure (id : HalfId) (s : State) : State :=
  match s.hub.cfg.bytes with
  | none => s
  | some b =>
    let h := ((s.configure s.hub.cfg.img).1).half id
    let h1 : Half := { h with cfg := { h.cfg with dig := some (cfgDigest b) }, cyls := h.cyls.map (fun c => { c with takeCount := true }) }
    s.setHalf (match s.hub.flash.calOf (cfgDigest b) with | some c => h1.takeCal c | none => h1) id

/-- What the hub was gathering from a half is no longer awaited; what the half itself kept is gone. -/
def Recs.lose (id : HalfId) (r : Recs) : Recs :=
  { r with kept := r.kept.filter (fun x => x.1 ≠ id), opens := (r.opens.filter (fun c => c.place ≠ some id)).map (fun c =>
      let w := c.wait.filter (fun k => k.1 / 1024 ≠ id.num)
      { c with wait := w, waive := true }) }

/-- A half is reset (R234, R485): it stops at STOP with its latch set by HALF_RESET, alone. -/
def State.restartHalf (id : HalfId) (s : State) : State :=
  let s1 := s.cancelHalf id
  let h : Half := { Half.reset id 6 with
    on := true, now := s1.now, frame := if s1.hubLinks then s1.hub.frame else (s1.half id).frame
    links := { Links.reset with path := s1.hubLinks, splits := (s1.half id).links.splits, hbOut := (s1.half id).links.hbOut } }
  let s2 : State := { s1.setHalf (h.setShed s1.hub.pwr.shed) id with kept := s1.kept.filter (fun x => x.1 ≠ id), hub := { s1.hub with
    behind := put1 s1.hub.behind id.stew none, owed := put1 s1.hub.owed id.stew none, noBg := put1 s1.hub.noBg id.stew false } }
  (s2.recsMap (Recs.lose id)).reconfigure id

/-- A pending release drops a half whose latch HALF_RESET has set; with none left it is refused (R420, R538). -/
def State.dropHalf (id : HalfId) (s : State) : State :=
  match s.hub.fg.rel with
  | none => s
  | some (ids, qs) =>
    let rest := ids.filter (· ≠ id)
    if rest.isEmpty then eachOf qs (fun q t => t.finish 0 q 0x0130 (le 1 6)) (s.fgMap (fun f => { f with rel := none }))
    else s.fgMap (fun f => { f with rel := some (rest, qs) })

/-- The HALF_RESET latch is counted while the release state is RUN or CHECKED (R235), and in RUN it is a trip (R232); that of a half S0 cannot
reach when S0 next reaches it (`State.fgTrips`). -/
def State.countHalf (seen : Bool) (id : HalfId) (s : State) : State :=
  let f := s.hub.fg
  if f.st = 0 then s
  else if seen then s.halfTrip (f.st = 2) s.hub.frame id
  else s.fgMap (fun f => { f with owed := f.owed ++ [(id, decide (f.st = 2), s.hub.frame)] })

/-- A reset of one half with a cause (R234, R235, R485, R488). -/
def State.halfReset (id : HalfId) (cause : Nat) (s : State) : State :=
  if !s.live id then s else
  let seen := s.reach id
  let s1 := (s.restartHalf id).bootMap (BootSt.record cause)
  if s1.hubOn then (s1.countHalf seen id).dropHalf id else s1

/-- A trial counts its 60 s afresh after a watchdog or ECC reset of any place (R492). -/
def State.trialAgain (s : State) : State := s.bootMap (fun b => { b with since := s.now })

/-- The hub's side of the floodgate after a hub reset (R235, R485): no latch is set; S0 takes the count from the primary half. -/
def State.fgAfter (s : State) : FgHub :=
  { s.hub.fg with st := if s.a.fg.latch && s.b.fg.latch then 0 else 2, trips := BitVec.ofNat 16 (s.half s.primary).fg.trips
                  rel := none, fail := 1, owed := [], halfChk := [], halfFail := 1 }

/-- A reset of the hub (R485, R487, R500): the halves run on without a hub path. -/
def State.hubReset (cause : Nat) (s0 : State) : State :=
  if !s0.clocked then s0 else
  let s := s0.jtagShut
  let u := s.hub
  let b : BootSt := { u.boot with
    stage := 0, picked := false, warm := s.a.on || s.b.on, trial := false, fwFall := false, cfgFall := false, cfgMis := false, follow := [] }
  let r : Recs := ⟨u.recs.opens.filter (fun c => c.place.isSome), [], [], [], [], u.recs.kept, u.recs.lostN⟩
  let h : Hub := { Hub.reset with
    frame := (s.half s.primary).frame, tick := u.tick, flash := u.flash, boot := b.record cause, pwr := u.pwr, fg := s.fgAfter, recs := r
    link := { HostLink.reset with sent := u.link.sent }, sec := ⟨[], none, u.sec.count⟩, lastWd := Vector.ofFn (fun i : Fin 4 =>
      if i.1 < 2 then s.now else u.lastWd.get i)
    behind := Vector.ofFn (fun i : Fin 4 => if i.1 < 2 then none else u.behind.get i)
    owed := Vector.ofFn (fun i : Fin 4 => if i.1 < 2 then none else u.owed.get i)
    noBg := Vector.ofFn (fun i : Fin 4 => 2 ≤ i.1 && u.noBg.get i), disAt := u.disAt }
  let s1 : State := { s with hub := h }
  let cut (x : Half) : Half :=
    if x.links.hub.up then ({ x with links := { x.links with hub := { x.links.hub with up := false, good := 0 } } } : Half).raise 0x51 (locHalf x.id) else x
  let s2 := eachOf (bothHalves.filter s1.live) (fun id t => t.setHalf (cut (t.half id)) id) s1
  (eachOf (bothHalves.filter s1.live) (fun id t => t.takeRole false id) s2).flush

/-- An instant of RESET's 10 ms (R452): the reset of its target follows. -/
def execResetFollows (s : State) : Host.Outcome State Fault Refusal :=
  match s.hub.boot.follow with
  | [] => .next s
  | (t, at_) :: rest =>
    if !s.clocked then .next s else
    let s1 := (s.advanceTo at_).bootMap (fun b => { b with follow := rest })
    .next (match t with | 0 => s1.moduleReset 4 | 1 => s1.halfReset .A 5 | _ => s1.halfReset .B 6)

/-- A reset requested through the unlocked JTAG port (R500). -/
def execJtagReset (s : State) : Host.Outcome State Fault Refusal :=
  .next (if s.clocked && s.hub.sec.jtag.isSome then s.moduleReset 14 else s)

/-! ### The ROM (R492, R493) -/

/-- A firmware slot verifies and lies at or above the floor (R491, R493). -/
def Flash.boots_ (f : Flash) (i : Fin 2) : Bool := fwVerify (f.fw.get i).img && f.floor ≤ fwSecver (f.fw.get i).img

/-- A slot that fails verification becomes FAILED (R492). -/
def Flash.fail (i : Fin 2) (f : Flash) : Flash :=
  { f with fw := upd f.fw i (fun s => if fwVerify s.img then s else { s with st := 4 }) }

/-- The TRIAL slot that is booted first: the one with fewer attempts, of fewer than 3 (R492). -/
def Flash.trialSlot (f : Flash) : Option (Fin 2) :=
  let t (i : Fin 2) : Bool := (f.fw.get i).st = 2 && (f.fw.get i).tries < 3
  if t 0 && t 1 then some (if (f.fw.get 1).tries < (f.fw.get 0).tries then 1 else 0)
  else if t 0 then some 0 else if t 1 then some 1 else none

/-- A slot is booted: a trial counts its attempt (R492). -/
def Flash.attempt (i : Fin 2) (f : Flash) : Flash := { f with fw := upd f.fw i (fun s => if s.st = 2 then { s with tries := s.tries + 1 } else s) }

/-- What the ROM selects (R492): the flash after it, the slot, and whether the slot of first choice did not boot. -/
def Flash.select (f : Flash) : Flash × Option (Fin 2) × Bool :=
  match f.trialSlot with
  | some i => if f.boots_ i then (f.attempt i, some i, false) else
    let f1 := f.fail i
    let j : Fin 2 := 1 - i
    if ((f1.fw.get j).st = 3 || (f1.fw.get j).st = 1 || (f1.fw.get j).st = 2) && f1.boots_ j then (f1.attempt j, some j, true)
    else (f1.fail j, none, false)
  | none =>
    let i : Fin 2 := if (f.fw.get 0).st = 3 then 0 else if (f.fw.get 1).st = 3 then 1 else if (f.fw.get 0).st = 1 then 0 else 1
    let ok (g : Flash) (k : Fin 2) : Bool := ((g.fw.get k).st = 3 || (g.fw.get k).st = 1 || (g.fw.get k).st = 2) && g.boots_ k
    if ok f i then (f.attempt i, some i, false) else
    let f1 := f.fail i
    if ok f1 (1 - i) then (f1.attempt (1 - i), some (1 - i), true) else (f1.fail (1 - i), none, false)

/-- Trials whose third attempt has ended become FAILED (R492). -/
def Flash.endTrials (f : Flash) : Flash × Bool :=
  let over_ (s : FwSlot) : Bool := s.st = 2 && 3 ≤ s.tries
  ({ f with fw := f.fw.map (fun s => if over_ s then { s with st := 4 } else s) }, f.fw.toList.any over_)

/-- The cause a boot carries: BOOT_FALLBACK after a trial that failed, else the one to be recorded (R488, R492). -/
def BootSt.causeOf (fell : Bool) (b : BootSt) : BootSt :=
  let b1 : BootSt := if b.next = 0 then b else { b.record b.next with next := 0 }
  if fell then { b1 with cause := 13 } else b1

/-- The ROM finds a trial that has failed (R485, R492): after a hub reset, where the halves run, the boot fallback resets the module. -/
def State.bootFallback (s : State) : State :=
  if s.hub.flash.endTrials.2 && s.hub.boot.warm then (s.flashMap (fun f => f.endTrials.1)).moduleReset 13 else s

/-- The ROM selects and verifies a firmware slot (R489, R492); with none it enters RECOVERY. -/
def State.coldBoot (s0 : State) : State :=
  if !s0.clocked || s0.hub.boot.stage ≠ 0 || s0.hub.boot.picked then s0 else
  let s := s0.bootFallback
  let (f1, fell) := s.hub.flash.endTrials
  let (f2, pick, fb) := f1.select
  let f3 : Flash := if s.hub.boot.warm then f2 else { f2 with boots := f2.boots + 1 }
  let s1 := (s.flashMap (fun _ => f3)).bootMap (BootSt.causeOf fell)
  match pick with
  | none => s1.bootMap (fun b => { b with stage := 6, since := s.now })
  | some i => s1.bootMap (fun b => { b with picked := true, slot := i = 1, trial := (f3.fw.get i).st = 2, fwFall := fb })

/-- COLD_BOOT (R489). -/
def execColdBoot (s : State) : Host.Outcome State Fault Refusal := .next s.coldBoot

/-! ### Boot stages (R489, R494) -/

/-- BOOT in the event log (R505). -/
def State.logBoot (s : State) : State :=
  s.log 0x01 0 s.hub.boot.cause s.hub.frame (leW s.bootState ++ leW s.resetCause ++ padTo 4 (s.cfgDig.getD []))

/-- The halves start: on, with a path to the hub (R489). -/
def State.startHalves (s : State) : State :=
  let go (h : Half) : Half := { h with on := true, now := s.now, frame := s.hub.frame, links := { Links.reset with path := true } }
  { s with a := go s.a, b := go s.b }

/-- The image of the newest that verifies is applied to the hub and both halves, with the calibration values logged under its
digest (R151, R489, R494). -/
def State.bootImage (b : List Byte) (s : State) : State :=
  let s1 := s.putInForce b
  match s1.hub.flash.calOf (cfgDigest b) with
  | some c => { s1 with a := s1.a.takeCal c, b := s1.b.takeCal c }
  | none => s1

/-- CFG_FALLBACK and its entry in the log, where the image is not the newest stored (R494). -/
def State.fallback (b : List Byte) (s : State) : State :=
  if s.hub.flash.store.head? = some b then s
  else (s.bootMap (fun x => { x with cfgFall := true })).log 0x35 0 0 s.hub.frame ((cfgDigest b).take 12)

/-- FG_SETTLE counts from the start of the halves (R489, R495's example). -/
def State.settleStart (s : State) : State :=
  s.fgMap (fun f => { f with hiAt := if f.fga && f.fgb then some s.now else none })

/-- After a hub reset the hub takes its own part of an image, the halves keep theirs (R487). -/
def State.hubImage (b : List Byte) (s : State) : State :=
  let im := Image.ofBytes b
  let t := (s.configure im).1
  { s with hub := { t.hub with cfg := { t.hub.cfg with bytes := some b, img := im, guard := guarded b, frame := s.hub.frame } } }

/-- Each half that is on holds an image of a digest (R487). -/
def State.halvesHold (d : List Byte) (s : State) : Bool := bothHalves.all (fun id => !(s.half id).on || (s.half id).cfg.dig = some d)

/-- CONFIG completes (R487, R489, R494): HALVES with the image applied, or NO_CONFIG. -/
def State.configDone (s : State) : State :=
  match s.hub.flash.store.find? (fun b => s.storedOk b) with
  | none =>
    let s1 := if s.hub.boot.warm then s else s.startHalves
    (s1.bootMap (fun b => { b with stage := 5, since := s.now })).logBoot
  | some b =>
    let up (t : State) : State := (t.bootMap (fun x => { x with stage := 3 })).fallback b
    if !s.hub.boot.warm then (((up (s.startHalves.bootImage b)).pwrMap (fun p => { p with wheel := true }))).settleStart
    else if s.halvesHold (cfgDigest b) then up (s.hubImage b)
    else up (s.bootMap (fun x => { x with cfgMis := true }))

/-- The next stage (R489). -/
def State.stageAdvance (s : State) : State :=
  let b := s.hub.boot
  if !s.clocked then s else
  match b.stage with
  | 0 => if b.picked then s.bootMap (fun b => { b with stage := 1 }) else s
  | 1 => s.bootMap (fun b => { b with stage := 2 })
  | 2 => s.configDone
  | 3 =>
    let s1 := (s.bootMap (fun b => { b with stage := 4, since := s.now })).logBoot
    let s2 := s1.hubMap (fun u => { u with lastWd := Vector.replicate 4 s.now, link := { u.link with statAt := s.now } })
    if b.warm then s2 else s2.pwrMap (fun p => { p with queue := idxs 24, stepAt := s.now })
  | _ => s

/-- BOOT_STAGE_ADVANCE (R489). -/
def execBootStageAdvance (s : State) : Host.Outcome State Fault Refusal := .next s.stageAdvance

/-- A TRIAL slot has stood 60 s (R492, R493): ACTIVE, the former ACTIVE slot VALID, the floor raised where its image says so. -/
def State.trialConfirm (s0 : State) : State :=
  let b := s0.hub.boot
  if !s0.clocked || !b.trial || !(b.stage = 4 || b.stage = 5) then s0 else
  let s := s0.advanceTo (b.since + 60 * etPerSec)
  let i : Fin 2 := if b.slot then 1 else 0
  let img := (s.hub.flash.fw.get i).img
  (s.flashMap (fun f => { f with
    fw := Vector.ofFn (fun j : Fin 2 => let x := f.fw.get j
      if j = i then { x with st := 3, tries := 0 } else if x.st = 3 then { x with st := 1 } else x)
    floor := if fwRaises img then max f.floor (fwSecver img) else f.floor })).bootMap (fun b => { b with trial := false })

/-- TRIAL_CONFIRM (R492). -/
def execTrialConfirm (s : State) : Host.Outcome State Fault Refusal := .next s.trialConfirm

/-! ### Supply and KEY (R481 to R484) -/

/-- SUPPLY_APPLY (R481, R482): the always-on store starts afresh; with KEY low the module sleeps. A module that runs has its supply
already. -/
def execSupplyApply (dV : Nat) (key : Bool) (s : State) : Host.Outcome State Fault Refusal :=
  .next (if s.clocked then s else
    s.bootMap (fun b => { b with v := dV, key := key, cause := 0, prev := 0, count := 0, keyAt := none, next := if key then 1 else 3 }))

/-- KEY_HIGH (R481, R484): a cold boot begins, or the wait for shutdown is cancelled. -/
def execKeyHigh (dV : Nat) (s : State) : Host.Outcome State Fault Refusal :=
  let s1 := s.bootMap (fun b => { b with v := dV, key := true, keyAt := none })
  .next (if s.clocked then s1
    else if dV < 130 then s1
    else ((s1.allReset).bootMap (fun b => { b.record s.hub.boot.next with awake := true })))

/-- KEY_LOW (R484): the wait of 2 s starts at once where both trackers are in STOP. -/
def execKeyLow (s : State) : Host.Outcome State Fault Refusal :=
  .next (s.bootMap (fun b => { b with key := false, keyAt := if s.clocked && s.stopped then (if b.keyAt.isSome then b.keyAt else some s.now) else none }))

/-- Flash writes in progress end (R484). -/
def State.flashEnds (s : State) : State :=
  (eachOf s.hub.cfg.write (fun x t => (t.flashMap (Flash.putImage x.1)).finish 2 x.2 0 []) s).cfgMap
    (fun c => { c with write := [] })

/-- The dies stop (R483, R484): the next cold boot carries a cause. -/
def State.down (next : Nat) (s : State) : State := ((s.jtagShut).allReset).bootMap (fun b => { b with awake := false, keyAt := none, next := next })

/-- SHUTDOWN (R484): 2 s after both trackers stood in STOP with KEY low. -/
def execShutdown (s : State) : Host.Outcome State Fault Refusal :=
  match s.hub.boot.keyAt with
  | none => .next s
  | some t =>
    if !s.clocked || s.hub.boot.key then .next s else
    let s1 := (s.advanceTo (t + 2 * etPerSec)).flashEnds
    .next ((s1.log 0x02 0 0 s1.hub.frame (le 2 (sat 16 s1.hub.boot.v))).down 3)

/-- UNDERVOLTAGE_SHUTDOWN (R483). -/
def execUndervoltageShutdown (s : State) : Host.Outcome State Fault Refusal :=
  .next (if !s.clocked then s else (s.log 0x03 0 0 s.hub.frame (le 2 (sat 16 s.hub.boot.v))).down 2)

end Sys2Proof.Machine
end

