-- ==== Sys2Proof/Machine/Faulting.lean ====
section
/-! DEFINITION. Watchdogs and ECC (R486, R502). -/

namespace Sys2Proof.Machine

open Sys2Proof

/-- A watchdog expires 1.0 ms after its last service (R486): the clock is brought forward to it, and its place is reset. -/
def State.watchdog (n : Fin 4) (reset : State → State) (s : State) : State :=
  let s1 := reset (s.advanceTo (s.hub.lastWd.get n + 800000)).trialAgain
  s1.hubMap (fun u => { u with lastWd := put1 u.lastWd n s1.now })

/-- WATCHDOG_EXPIRE (R486, R488). -/
def execWatchdogExpire (core : Core) (s : State) : Host.Outcome State Fault Refusal :=
  .next (match core with
    | .s0 => if s.hubOn then s.watchdog 0 (State.hubReset 7) else s
    | .s1 => if s.hubOn then s.watchdog 1 (State.hubReset 7) else s
    | .stewA => if s.live .A then s.watchdog 2 (State.halfReset .A 8) else s
    | .stewB => if s.live .B then s.watchdog 3 (State.halfReset .B 9) else s)

/-! ### ECC (R502) -/

/-- The place of an area works; hub SRAM serves the ROM too (R492). -/
def State.areaOn (a : EccArea) (s : State) : Bool :=
  match a with
  | .localSram id | .slotStore id _ => s.live id
  | .hubSram => s.clocked
  | _ => s.hubOn

/-- ECC_CORRECTED or ECC_UNCORRECTED of an area (R462, R531). -/
def State.eccRaise (a : EccArea) (cls : Nat) (s : State) : State :=
  match a with
  | .hubSram => s.raiseHub cls locHub
  | .localSram id => s.onHalf id (fun h => h.raise cls (locInp id 7))
  | .slotStore id k => s.onHalf id (fun h => h.raise cls (locSlot id (h.slots.get k).c.chan.1 k.1))
  | _ => s.raiseHub cls (locCode 2 5 0 0 0 0)

/-- An uncorrectable error in a slot: withdrawn, cleared, or cleared at DONE. -/
def Half.eccSlot (k : Fin 1024) (h : Half) : Half :=
  match (h.slots.get k).st with
  | 2 | 3 | 4 => (h.withdraw k 9).slotMap k (fun s => { s with c := SlotC.zero })
  | 5 => h.slotMap k (fun s => { s with spoil := true })
  | _ => h.slotMap k Slot.wiped

/-- Blocks and records of the Tarn marked lost. -/
def loseRec (idx : Nat) (xs : List TarnRec) : List TarnRec := xs.map (fun r => if r.idx = idx then { r with lost := true } else r)

/-- The tooth log entry of an index, counted from the start of the Tarn, marked lost. -/
def Tarn.loseTooth (idx : Nat) (t : Tarn) : Tarn :=
  { t with teeth := t.teeth.zipIdx.map (fun x => if x.2 + idx + 1 = t.toothN then { x.1 with lost := true } else x.1) }

/-- What an uncorrectable error does, area by area. -/
def State.eccLost (a : EccArea) (s : State) : State :=
  match a with
  | .tarnRecord i => s.tarnMap (fun t => { t with recs := loseRec i t.recs })
  | .tarnTrace i => s.tarnMap (fun t => { t with blocks := loseRec i t.blocks })
  | .tarnTooth i => s.tarnMap (Tarn.loseTooth i)
  | .hubSram => (s.trialAgain).hubReset 10
  | .localSram id => (s.trialAgain).halfReset id (match id with | .A => 11 | .B => 12)
  | .slotStore id k => s.onHalf id (Half.eccSlot k)

/-- ECC_ERROR (R502). -/
def execEccError (area : EccArea) (corrected : Bool) (s : State) : Host.Outcome State Fault Refusal :=
  .next (if !s.areaOn area then s
    else if corrected then s.eccRaise area 0x75
    else (s.eccRaise area 0x76).eccLost area)

end Sys2Proof.Machine
end

