-- ==== Sys2Proof/Machine/Buffer.lean ====
section
/-! DEFINITION. The SPI address space and its transactions (R374): the host window, the request buffer, the completion queue; REQ_DB, whose
write copies the request buffer out as a message, which then comes in as on any transport. -/

namespace Sys2Proof.Machine

open Sys2Proof

/-- The message that stands in some bytes (R377); fields beyond their end read 0. -/
def bufMsg (b : List Byte) : Msg :=
  ⟨.spi, b.getD 1 0#8, BitVec.ofNat 16 (u16 b 4), u16 b 6, BitVec.ofNat 16 (u16 b 8), slice b 16 (b.length - 20), 0, 0⟩

/-- A message of mailboxes 0 to 2 by its COMMAND. -/
def State.mail02 (mb cmd : Nat) (m : Msg) (s : State) : Host.Outcome State Fault Refusal :=
  match mb, cmd with
  | 0, 1 => execStop m s
  | 0, 2 => execFloodgateRelease m s
  | 0, 3 => execSetDirection m s
  | 0, 4 => execFgStatus m s
  | 1, 1 => execSetpoint m s
  | 2, 1 => execImageBegin m s
  | 2, 2 => execImageChunk m s
  | 2, 3 => if byteAt m.payload 0 % 2 = 1 then execConfigDryRun m s else execConfigCommit m s
  | 2, 4 => execImageAbort m s
  | 2, 5 => execConfigRead m s
  | 2, 6 => execConfigInfo m s
  | 2, 7 => execLinkSet m s
  | _, _ => .next (s.unknown mb cmd m)

/-- SLUICE_CTL by its masks. -/
def State.sluiceCtl (m : Msg) (s : State) : Host.Outcome State Fault Refusal :=
  let (st, ha, cl) := ctlMasks m
  if st ≠ 0 || (ha = 0 && cl = 0) then execSluiceStart m s else if ha ≠ 0 then execSluiceHalt m s else execSluiceClockRestart m s

/-- ACQ_SET by its item. -/
def State.acqSetAny (m : Msg) (s : State) : Host.Outcome State Fault Refusal :=
  match acqItem m with
  | 1 => execAcqSetDelay m s
  | 2 => execAcqSetStep m s
  | 3 => execAcqSetPeriod m s
  | _ => execAcqSetMask m s

/-- A message of mailbox 3 by its COMMAND. -/
def State.mail3 (cmd : Nat) (m : Msg) (s : State) : Host.Outcome State Fault Refusal :=
  match cmd with
  | 0x01 => execSlotArm m s
  | 0x02 => execSlotWrite m s
  | 0x03 => execSlotFree m s
  | 0x04 => execSlotRead m s
  | 0x10 => execProfileWrite m s
  | 0x11 => execProfileRead m s
  | 0x20 => execTrackerSet m s
  | 0x21 => execTwistSet m s
  | 0x30 => s.acqSetAny m
  | 0x40 => execClSet m s
  | 0x50 => execProgLoad m s
  | 0x51 => s.sluiceCtl m
  | 0x52 => execSluiceXfer m s
  | 0x60 => execPinClaim m s
  | 0x61 => execPinRelease m s
  | 0x62 => execGpioSet m s
  | _ => .next (s.unknown 3 cmd m)

/-- A message of mailbox 4 by its COMMAND. -/
def State.mail4 (cmd : Nat) (m : Msg) (s : State) : Host.Outcome State Fault Refusal :=
  match cmd with
  | 0x01 => execWheelDiag m s
  | 0x02 => execStatusRead m s
  | 0x03 => execFaultRead m s
  | 0x10 => execCalAlign m s
  | 0x11 => execCalTwist m s
  | 0x12 => execCalApply m s
  | 0x13 => execCalAbort m s
  | 0x20 => if m.payload.length = 4 && byteAt m.payload 1 = 0 then execSessionClose m s else execSessionOpen m s
  | 0x21 => execSliceCal m s
  | 0x22 => if tdacTest m = 0 then execTdacOpenShort m s else if tdacTest m = 1 then execTdacGain m s else execTdacManual m s
  | 0x23 => execTdacStop m s
  | 0x30 => execSensorRead m s
  | _ => .next (s.unknown 4 cmd m)

/-- A message of mailboxes 5 to 7 by its COMMAND. -/
def State.mail57 (mb cmd : Nat) (m : Msg) (s : State) : Host.Outcome State Fault Refusal :=
  match mb, cmd with
  | 5, 1 => execTelemSet m s
  | 5, 2 => execTarnInfo m s
  | 5, 3 => execRecordRead m s
  | 5, 4 => execTraceRead m s
  | 5, 5 => execToothlogRead m s
  | 6, 1 => execAttest m s
  | 6, 2 => execIdentity m s
  | 6, 3 => execOwnerEnrol m s
  | 6, 4 => execChallenge m s
  | 6, 5 => execJtagUnlock m s
  | 6, 0x10 => execFwBegin m s
  | 6, 0x11 => execFwChunk m s
  | 6, 0x12 => execFwCommit m s
  | 7, 1 => execSleepNotice m s
  | 7, 2 => execLinkReset m s
  | 7, 3 => execReset m s
  | 7, 4 => execLogRead m s
  | _, _ => .next (s.unknown mb cmd m)

/-- A message that passed its check unit goes to its row. -/
def State.mail (mb cmd : Nat) (m : Msg) (s : State) : Host.Outcome State Fault Refusal :=
  if mb ≤ 2 then s.mail02 mb cmd m else if mb = 3 then s.mail3 cmd m else if mb = 4 then s.mail4 cmd m else s.mail57 mb cmd m

/-- REQ_BUSY stands for the copy, at most 2 µs; how long the spec leaves open (log 5). -/
def State.takeBuffer (s : State) : State :=
  let (n, s1) := s.fresh 40
  s1.linkMap (fun l => { l with busy := some (s.now + n % 1601) })

/-- REQ_DB_WRITE (R374, R382, R383). -/
def execReqDbWrite (len : BitVec 16) (s : State) : Host.Outcome State Fault Refusal :=
  if !s.serves .spi then .next s
  else if s.reqBusy then .next s.spiLost
  else
    let b := s.hub.link.buf.take len.toNat
    let s1 := s.takeBuffer
    if crcOk b then s1.mail (byteAt b 0) (u16 b 2) (bufMsg b) else .next (s1.discard .spi b 0)

/-! ### SPI transactions (R374) -/

/-- A byte of the completion queue's entry at an index (R374, R400): an entry's index is its count modulo 256; what stands at an index without a
waiting entry, or beyond an entry's end, is not stated. -/
def State.cqByte (n k : Nat) (s : State) : Byte :=
  let l := s.hub.link
  let open_ : Byte := BitVec.ofNat 8 (Config.freeNat 115 (1024 * n + k))
  match l.cq[(n + 256 - l.head.toNat % 256) % 256]? with
  | some e => e.bytes.getD k open_
  | none => open_

/-- A byte of the SPI address space as the host reads it: the host window, the completion queue, elsewhere 0. -/
def State.spiByte (a : Nat) (s : State) : Byte :=
  if a < 0x1000 then s.windowByte a
  else if 0x100000 ≤ a && a < 0x140000 then s.cqByte ((a - 0x100000) / 1024) (a % 1024)
  else 0#8

/-- A write by SPI: the request buffer, REQ_DB or CQ_HEAD; others are ignored. -/
def State.spiWrite (a : Nat) (d : List Byte) (s : State) : Host.Outcome State Fault Refusal :=
  if 0x10000 ≤ a && a < 0x10400 then execRequestBufferWrite (a - 0x10000) d s
  else if a = 0x080 && 2 ≤ d.length then execReqDbWrite (BitVec.ofNat 16 (u16 d 0)) s
  else if a = 0x088 && 2 ≤ d.length then execCqHeadWrite (BitVec.ofNat 16 (u16 d 0)) s
  else .next s

/-- An SPI transaction, the bytes the host clocks out while SPI_CS_N is low: opcode, 24-bit address MSB first, then data, or 4 dummy bytes and as
many more as it reads. The state after it, and the bytes read. -/
def State.spiTransaction (b : List Byte) (s : State) : Host.Outcome State Fault Refusal × List Byte :=
  let a := byteAt b 1 * 65536 + byteAt b 2 * 256 + byteAt b 3
  if !s.serves .spi then (.next s, [])
  else if byteAt b 0 = 0x02 then (s.spiWrite a (b.drop 4) , [])
  else if byteAt b 0 = 0x03 then (.next s, (List.range (b.length - 8)).map (fun k => s.spiByte (a + k)))
  else (.next s, [])

end Sys2Proof.Machine
end

