-- ==== Sys2Proof/Machine/Engines.lean ====
section
/-! DEFINITION. The commands of the sluice engines (R344 to R371). A row of an instruction acts where the engine is RUNNING,
not stalled, and the word at its PC is of that row. -/

namespace Sys2Proof.Machine

open Sys2Proof

/-- The engine is about to execute a word that a row stands for. -/
def Half.slReady (h : Half) (e : Fin 8) (sel : BitVec 24 → Bool) : Bool :=
  (h.eng e).st = 2 && !(h.eng e).stall && slWordOk (h.slWord e) && sel (h.slWord e)

/-- One instruction of an engine at its next tick (R348, R349); `edges` are the changes at the SL terminals not yet told (R347). -/
def State.slRow (id : HalfId) (e : Fin 8) (edges : List SlEdge) (sel : BitVec 24 → Bool) (s : State) : State :=
  s.due id (fun h => if h.slReady e sel then some (Sle.tickAt h.now (h.eng e).wait (h.eng e)) else none) (fun h => (h.slTake edges).slExec e)

/-- A word of an OP, and of a variant in its operand's upper bits. -/
def slIs (op : Nat) (f : BitVec 24 → Bool) (w : BitVec 24) : Bool := slOp w = op && f w

/-- JUMP (R351). -/
def execJump (id : HalfId) (e : Fin 8) (edges : List SlEdge) (s : State) : Host.Outcome State Fault Refusal :=
  .next (s.slRow id e edges (slIs 0 (fun _ => true)))

/-- WAIT (R351). -/
def execWait (id : HalfId) (e : Fin 8) (edges : List SlEdge) (s : State) : Host.Outcome State Fault Refusal :=
  .next (s.slRow id e edges (slIs 1 (fun _ => true)))

/-- SHIFT (R354). -/
def execShift (id : HalfId) (e : Fin 8) (edges : List SlEdge) (s : State) : Host.Outcome State Fault Refusal :=
  .next (s.slRow id e edges (slIs 2 (fun _ => true)))

/-- STAMP with ARM = 1 (R351). -/
def execStampArm (id : HalfId) (e : Fin 8) (s : State) : Host.Outcome State Fault Refusal :=
  .next (s.slRow id e [] (slIs 3 (fun w => slF w 13 13 = 1)))

/-- STAMP with ARM = 0 (R351). -/
def execStampMeasure (id : HalfId) (e : Fin 8) (s : State) : Host.Outcome State Fault Refusal :=
  .next (s.slRow id e [] (slIs 3 (fun w => slF w 13 13 = 0)))

/-- A STAMP with ARM = 0 that waits ends by timeout (R352). -/
def execStampTimeout (id : HalfId) (e : Fin 8) (s : State) : Host.Outcome State Fault Refusal :=
  let ok (h : Half) : Bool := (h.eng e).st = 2 && (h.eng e).stall && slOp (h.slWord e) = 3 && slF (h.slWord e) 13 13 = 0 &&
    (h.eng e).tlim ≠ 0#32 && ((h.eng e).latch (slF (h.slWord e) 14 14 = 1)).isNone
  .next (s.due id (fun h => if ok h then some (Sle.tickAt h.now (h.eng e).timeoutIn (h.eng e)) else none)
    (fun h => h.slTimeout e (h.slWord e)))

/-- A stalled instruction completes at a tick at which what it waits for has come (R349); a WAIT for ticks brings the clock
forward. -/
def execStallRelease (id : HalfId) (e : Fin 8) (edges : List SlEdge) (s : State) : Host.Outcome State Fault Refusal :=
  let at_ (h : Half) : Option Nat :=
    let x := h.eng e
    let w := h.slWord e
    if x.st ≠ 2 || !x.stall then none
    else if slOp w = 1 && slF w 14 12 = 6 && (x.tcnt - x.beg).toNat < x.c0.toNat then
      some (Sle.tickAt h.now (x.c0.toNat - (x.tcnt - x.beg).toNat) x)
    else some (x.nextTick h.now)
  .next (s.due id at_ (fun h => (h.slTake edges).slExec e))

/-- An edge on the watch pin (R350): the engine's first tick after `dt` et at which the sample shows it. -/
def execWpinEdgeLatch (id : HalfId) (e : Fin 8) (edges : List SlEdge) (dt : Nat) (s : State) : Host.Outcome State Fault Refusal :=
  .next ((s.advance dt).due id (fun h => if (h.eng e).st = 2 then some ((h.eng e).nextTick h.now) else none)
    (fun h => (h.slTake edges).slEdge e))

/-- A QUEUE with an OPN (R351). -/
def isQueue (n : Nat) : BitVec 24 → Bool := slIs 4 (fun w => slF w 14 12 = n)

/-- QUEUE FILL (R351). -/
def execQueueFill (id : HalfId) (e : Fin 8) (s : State) : Host.Outcome State Fault Refusal := .next (s.slRow id e [] (isQueue 0))

/-- QUEUE STORE (R351). -/
def execQueueStore (id : HalfId) (e : Fin 8) (s : State) : Host.Outcome State Fault Refusal := .next (s.slRow id e [] (isQueue 1))

/-- QUEUE STORE_C0 (R351). -/
def execQueueStoreC0 (id : HalfId) (e : Fin 8) (s : State) : Host.Outcome State Fault Refusal := .next (s.slRow id e [] (isQueue 2))

/-- QUEUE TAKE_C0 (R351). -/
def execQueueTakeC0 (id : HalfId) (e : Fin 8) (s : State) : Host.Outcome State Fault Refusal := .next (s.slRow id e [] (isQueue 3))

/-- QUEUE TAKE_C1 (R351). -/
def execQueueTakeC1 (id : HalfId) (e : Fin 8) (s : State) : Host.Outcome State Fault Refusal := .next (s.slRow id e [] (isQueue 4))

/-- PINS with TGT 0 (R351). -/
def execPinsLevel (id : HalfId) (e : Fin 8) (s : State) : Host.Outcome State Fault Refusal :=
  .next (s.slRow id e [] (slIs 5 (fun w => slF w 14 14 = 0)))

/-- PINS with TGT 1 (R351). -/
def execPinsDirection (id : HalfId) (e : Fin 8) (s : State) : Host.Outcome State Fault Refusal :=
  .next (s.slRow id e [] (slIs 5 (fun w => slF w 14 14 = 1)))

/-- LOAD (R351). -/
def execLoad (id : HalfId) (e : Fin 8) (edges : List SlEdge) (s : State) : Host.Outcome State Fault Refusal :=
  .next (s.slRow id e edges (slIs 6 (fun _ => true)))

/-- A COUNT with a FN (R351). -/
def isCount (n : Nat) : BitVec 24 → Bool := slIs 7 (fun w => slF w 14 12 = n)

/-- COUNT C0 + IMM (R351). -/
def execCountAddC0 (id : HalfId) (e : Fin 8) (s : State) : Host.Outcome State Fault Refusal := .next (s.slRow id e [] (isCount 0))

/-- COUNT C0 - IMM (R351). -/
def execCountSubC0 (id : HalfId) (e : Fin 8) (s : State) : Host.Outcome State Fault Refusal := .next (s.slRow id e [] (isCount 1))

/-- COUNT C1 + IMM (R351). -/
def execCountAddC1 (id : HalfId) (e : Fin 8) (s : State) : Host.Outcome State Fault Refusal := .next (s.slRow id e [] (isCount 2))

/-- COUNT C1 - IMM (R351). -/
def execCountSubC1 (id : HalfId) (e : Fin 8) (s : State) : Host.Outcome State Fault Refusal := .next (s.slRow id e [] (isCount 3))

/-- COUNT C0 - C1 (R351). -/
def execCountC0MinusC1 (id : HalfId) (e : Fin 8) (s : State) : Host.Outcome State Fault Refusal := .next (s.slRow id e [] (isCount 4))

/-- COUNT C0 + C1 (R351). -/
def execCountC0PlusC1 (id : HalfId) (e : Fin 8) (s : State) : Host.Outcome State Fault Refusal := .next (s.slRow id e [] (isCount 5))

/-- COUNT C0 shifted right (R351). -/
def execCountShiftC0 (id : HalfId) (e : Fin 8) (s : State) : Host.Outcome State Fault Refusal := .next (s.slRow id e [] (isCount 6))

/-- COUNT C0 AND IMM (R351). -/
def execCountAndC0 (id : HalfId) (e : Fin 8) (s : State) : Host.Outcome State Fault Refusal := .next (s.slRow id e [] (isCount 7))

/-- A SIGNAL with a KIND (R351). -/
def isSignal (n : Nat) : BitVec 24 → Bool := slIs 8 (fun w => slF w 14 13 = n)

/-- SIGNAL sets a group flag (R351). -/
def execSignalSetFlag (id : HalfId) (e : Fin 8) (s : State) : Host.Outcome State Fault Refusal := .next (s.slRow id e [] (isSignal 0))

/-- SIGNAL clears a group flag (R351). -/
def execSignalClearFlag (id : HalfId) (e : Fin 8) (s : State) : Host.Outcome State Fault Refusal := .next (s.slRow id e [] (isSignal 1))

/-- SIGNAL sends a Weir message (R351). -/
def execSignalWeir (id : HalfId) (e : Fin 8) (s : State) : Host.Outcome State Fault Refusal := .next (s.slRow id e [] (isSignal 2))

/-- The shadow bank becomes active where every named engine allows it (R362). -/
def execProgramSwap (id : HalfId) (g : Fin 2) (s : State) : Host.Outcome State Fault Refusal :=
  .next (s.act id (fun h => if h.swapReady g then h.doSwap g 0 else h))

/-- WAIT_MS of a load with FORCE runs out (R363). -/
def execForcedSwap (id : HalfId) (g : Fin 2) (s : State) : Host.Outcome State Fault Refusal :=
  let at_ (h : Half) : Option Nat := match (h.slg g).swap with
    | some w => if w.force then w.expiry else none
    | none => none
  .next (s.due id at_ (fun h => h.forceSwap g))

end Sys2Proof.Machine
end

