-- ==== Sys2Proof/Machine/Outputs.lean ====
section
/-! DEFINITION. The commands of the slots, the drive sequencers and the output pins (R160 to R216). -/

namespace Sys2Proof.Machine

open Sys2Proof

/-! ### Slots -/

/-- A FROZEN slot enters the lookahead (R172). -/
def execHopperLoad (id : HalfId) (k : Fin 1024) (s : State) : Host.Outcome State Fault Refusal :=
  .next (s.act id (fun h => h.hopperLoad k))

/-- The presented angle reaches a LOADED slot's angle (R167): the clock is brought forward to it. -/
def execSlotDue (id : HalfId) (k : Fin 1024) (s : State) : Host.Outcome State Fault Refusal :=
  .next (s.due id (fun h =>
    let x := h.slots.get k
    if x.st = 3 && h.trk.fires then (h.etToAngle x).map (h.now + ·) else none) (fun h => h.slotDue k))

/-- The OFFSET of a DUE slot runs out (R168). -/
def execSlotOffsetExpire (id : HalfId) (k : Fin 1024) (s : State) : Host.Outcome State Fault Refusal :=
  .next (s.due id (fun h => if (h.slots.get k).st = 4 then some (h.slots.get k).edgeAt else none) (fun h => h.offsetExpire k))

/-- The WIDTH of an ACTIVE slot runs out (R160). -/
def execSlotWidthExpire (id : HalfId) (k : Fin 1024) (s : State) : Host.Outcome State Fault Refusal :=
  .next (s.due id (fun h => if (h.slots.get k).st = 5 then some (h.slots.get k).endAt else none) (fun h => h.widthExpire k))

/-! ### Drive sequencers -/


/-- The gap before a BOOST ends (R212): both pins rise in the same et. -/
def execDrvBoostGapEnd (id : HalfId) (p : Fin 24) (s : State) : Host.Outcome State Fault Refusal :=
  .next (s.due id (fun h => if (h.pairs.get p).bstGap then some ((h.pairs.get p).entry + 40) else none)
    (fun h => if (h.pairs.get p).bstGap then h.boostRise p else h))

/-- BLANK of the phase a pair stands in, in et (R217). -/
def Half.blankEt (h : Half) (p : Fin 24) : Nat := phABlank (phWordA (h.pairProf p) (h.pairs.get p).phase) * 40

/-- T_LIM of the phase a pair stands in, in et (R217). -/
def Half.limEt (h : Half) (p : Fin 24) : Nat := phBTLim (phWordB (h.pairProf p) (h.pairs.get p).phase) * 20

/-- EXIT of the phase a pair stands in. -/
def Half.exitOf (h : Half) (p : Fin 24) : Nat := phBExit (phWordB (h.pairProf p) (h.pairs.get p).phase)

/-- LS under chopping (R215): each level is held for at least CHOP_MIN, and LS stays at 1 through a source gap (R209). -/
def Half.chop (p : Fin 24) (h : Half) : Half :=
  let x := h.pairs.get p
  let w := phWordB (h.pairProf p) x.phase
  if x.phase = 7 || x.blank || x.srcGap || !phBChop w || h.now < x.lsAt + phBChopMin w * 20 then h
  else if x.ls && x.hiLive then (h.pairMap p (fun x => { x with ls := false, lsAt := h.now })).settlePair p
  else if !x.ls && !x.loLive then (h.pairMap p (fun x => { x with ls := true, lsAt := h.now })).settlePair p
  else h

/-- The upper and lower comparators of a pair stand at levels (R211, R214, R215): after blanking the latches follow, a latched
crossing ends the phase whose EXIT it is, and LS chops. -/
def Half.comparators (p : Fin 24) (hi lo : Bool) (h : Half) : Half :=
  let h1 := h.pairMap p (fun x => { x with hiLive := hi, loLive := lo })
  let x := h1.pairs.get p
  if x.phase = 7 || x.blank || x.bstGap then h1 else
  let h2 := h1.pairMap p (fun x => { x with hiLat := x.hiLat || hi, loLat := x.loLat || !lo })
  let ex := h.exitOf p
  if hi && !x.hiLat && (x.phase = 0 || (x.phase = 1 && ex = 1)) then h2.toNext p
  else if !lo && !x.loLat && x.phase = 4 && ex = 2 then h2.enterPhase p 5 false
  else if !lo && !x.loLat && x.phase = 5 then h2.toIdle p
  else h2.chop p

/-- The blanking timer of a phase ends (R214): latches and chopping become active, with the comparators as they stand. -/
def Half.blankEnd (p : Fin 24) (hi lo : Bool) (h : Half) : Half := (h.pairMap p (fun x => { x with blank := false })).comparators p hi lo

/-- The blanking timer of a phase ends (R214). -/
def execDrvBlankEnd (id : HalfId) (x : PairLevels) (s : State) : Host.Outcome State Fault Refusal :=
  .next (s.due id (fun h => if (h.pairs.get x.pair).blank && !(h.pairs.get x.pair).bstGap then some ((h.pairs.get x.pair).entry + h.blankEt x.pair) else none)
    (Half.blankEnd x.pair x.aboveHi x.aboveLo))

/-- The source gap ends after 40 et (R209, R537): HS rises, and LS chops from here where blanking is over. -/
def Half.sourceGapEnd (p : Fin 24) (h : Half) : Half :=
  if (h.pairs.get p).srcGap then ((h.pairMap p (fun x => { x with srcGap := false })).settlePair p).chop p else h

/-- The source gap of a pair ends (R209). -/
def execDrvSourceGapEnd (id : HalfId) (p : Fin 24) (s : State) : Host.Outcome State Fault Refusal :=
  .next (s.due id (fun h => if (h.pairs.get p).srcGap then some ((h.pairs.get p).gapAt + 40) else none) (Half.sourceGapEnd p))

/-- The upper comparator asserts (R214). -/
def execDrvHiLatch (id : HalfId) (p : Fin 24) (dt : Nat) (s : State) : Host.Outcome State Fault Refusal :=
  .next ((s.advance dt).act id (Half.comparators p true true))

/-- The current falls to I_LO (R214). -/
def execDrvLoLatch (id : HalfId) (p : Fin 24) (dt : Nat) (s : State) : Host.Outcome State Fault Refusal :=
  .next ((s.advance dt).act id (Half.comparators p false false))

/-- The live comparators as they stand (R215). -/
def execDrvChop (id : HalfId) (p : Fin 24) (aboveHi aboveLo : Bool) (s : State) : Host.Outcome State Fault Refusal :=
  .next (s.act id (Half.comparators p aboveHi aboveLo))

/-- The command a sequencer runs ends with its slot ABORTED (R211). -/
def Half.endCommand (p : Fin 24) (h : Half) : Half :=
  match (h.pairs.get p).slot with
  | none => h
  | some k => (h.pairMap p (fun x => { x with slot := none })).finish k 11

/-- A drive fault: LAST_FAULT and its event (R211, R238). -/
def Half.drvFault (p : Fin 24) (code cls : Nat) (h : Half) : Half :=
  (h.pairMap p (fun x => { x with fault := code })).raise cls (locChan h.id (evenCh p).1)

/-- T_LIM of a phase is reached (R211). -/
def Half.phaseTimeout (p : Fin 24) (aboveLo : Bool) (h : Half) : Half :=
  let x := h.pairs.get p
  match x.phase with
  | 0 => if aboveLo then (h.drvFault p 3 0x26).toNext p else (((h.drvFault p 1 0x24).toFast p true).endCommand p)
  | 1 => if h.exitOf p = 1 then (h.drvFault p 3 0x26).toNext p else h.toNext p
  | 2 => h.toNext p
  | 3 => ((h.drvFault p 3 0x26).toFree p).endCommand p
  | 4 => h.enterPhase p 5 false
  | 5 => (h.drvFault p 3 0x26).toIdle p
  | _ => h

/-- A phase reaches T_LIM (R211). -/
def execDrvPhaseTimeout (id : HalfId) (p : Fin 24) (aboveLo : Bool) (s : State) : Host.Outcome State Fault Refusal :=
  .next (s.due id (fun h => if (h.pairs.get p).phase = 7 || (h.pairs.get p).bstGap then none else some ((h.pairs.get p).entry + h.limEt p))
    (Half.phaseTimeout p aboveLo))

/-- The maximum comparator asserts (R211, R214): blanked for 16 et after a change of either pin. -/
def Half.overcurrent (p : Fin 24) (h : Half) : Half :=
  let x := h.pairs.get p
  if h.now < x.pinAt + 16 then h else
  let h1 := h.pairMap p (fun x => { x with maxLat := true })
  if x.phase = 5 || x.phase = 7 then h1 else (((h1.drvFault p 2 0x25).toFast p true).endCommand p)

/-- The maximum comparator asserts (R211). -/
def execDrvOvercurrent (id : HalfId) (p : Fin 24) (s : State) : Host.Outcome State Fault Refusal :=
  .next (s.act id (Half.overcurrent p))

/-- Current above I_STUCK while IDLE (R216). -/
def execDrvStuckOn (id : HalfId) (p : Fin 24) (s : State) : Host.Outcome State Fault Refusal :=
  .next (s.act id (fun h =>
    let x := h.pairs.get p
    if x.phase = 7 && drvPairStuckEn x.pair then h.drvFault p 4 0x27 else h))

/-! ### Pins -/

/-- What happens at an EV pin. A condition persists (R207): its flag, and its event each time the flag is set; a driver that is off limits no
current. The driver enters or leaves current limit (R206, R222); the readback comparator reads another level (R207). -/
def Half.pinFlag (m : Fin 48) (f : PinFlag) (h : Half) : Half :=
  let c := h.chans.get m
  let lvl := h.pinLevel m
  let loc := locChan h.id m.1
  match f with
  | .shortHi => if lvl || c.shortHi || h.driverOff m then h else (h.chanMap m (fun c => { c with shortHi := true, limit := true })).raise 0x21 loc
  | .shortLo => if !lvl || c.shortLo || h.driverOff m then h else (h.chanMap m (fun c => { c with shortLo := true, limit := true })).raise 0x21 loc
  | .mismatch =>
    let h1 := h.chanMap m (fun c => { c with mismatch := true, rb := !lvl })
    if c.mismatch then h1 else h1.raise 0x22 loc
  | .limit on => h.chanMap m (fun c => { c with limit := on && !h.driverOff m })
  | .readback v => h.chanMap m (fun c => { c with rb := v })

/-- A short or mismatch of an EV pin persists (R207). -/
def execOutPinFlag (id : HalfId) (m : Fin 48) (flag : PinFlag) (s : State) : Host.Outcome State Fault Refusal :=
  .next (s.act id (Half.pinFlag m flag))

/-- FGA or FGB as the floodgate holds them (R225): both levels after a change, since when both are high, since when they
differ. -/
def FgHub.input (w : FgIn) (v : Bool) (now : Nat) (f : FgHub) : FgHub :=
  let a1 := match w with | .fga => v | .fgb => f.fga
  let b1 := match w with | .fga => f.fgb | .fgb => v
  { f with fga := a1, fgb := b1
           lowA := match w with | .fga => !v | .fgb => f.lowA
           lowB := match w with | .fga => f.lowB | .fgb => !v
           hiAt := if a1 && b1 then (if f.hiAt.isSome then f.hiAt else some now) else none
           diffAt := if a1 = b1 then none else (if f.diffAt.isSome then f.diffAt else some now) }

/-- A level of a floodgate input. -/
def FgHub.level (f : FgHub) : FgIn → Bool
  | .fga => f.fga
  | .fgb => f.fgb

/-- FGA or FGB goes low (R226, R227): the kill net sets every latch. -/
def execFloodgateInputLow (w : FgIn) (dt : Nat) (s : State) : Host.Outcome State Fault Refusal :=
  let s1 := s.advance dt
  let s2 := s1.fgMap (FgHub.input w false s1.now)
  .next ((s2.kill (match w with | .fga => 1 | .fgb => 2)).flush)

/-- FGA or FGB goes high (R225, R232): FG_SETTLE runs once both are high. -/
def execFloodgateInputHigh (w : FgIn) (dt : Nat) (s : State) : Host.Outcome State Fault Refusal :=
  let s1 := s.advance dt
  .next (s1.fgMap (FgHub.input w true s1.now))

/-- FGA and FGB differ for more than 100 ms (R229). -/
def execFgDisagree (id : HalfId) (s : State) : Host.Outcome State Fault Refusal :=
  match s.hub.fg.diffAt with
  | none => .next s
  | some t => .next ((s.advanceTo (t + 100 * etPerMs + 1)).act id (fun h => h.raise 0x29 (locInp h.id 7)))

end Sys2Proof.Machine
end

