-- ==== Sys2Proof/Machine/Dispatch.lean ====
section
/-! DEFINITION. One arm for each command: its meaning. -/

namespace Sys2Proof.Machine

open Sys2Proof

/-- The effect of one command on everything but the queue. -/
def exec (i : Instr) (s : State) : Host.Outcome State Fault Refusal :=
  match i with
  | .frameTick inp => Sys2Proof.Machine.execFrameTick inp s
  | .frameOverrun o => Sys2Proof.Machine.execFrameOverrun o s
  | .heartbeatReceive h link hb => Sys2Proof.Machine.execHeartbeatReceive h link hb s
  | .datagramRepeat => Sys2Proof.Machine.execDatagramRepeat s
  | .streamRecover stream => Sys2Proof.Machine.execStreamRecover stream s
  | .qualifiedEdge h ix e => Sys2Proof.Machine.execQualifiedEdge h ix e s
  | .edgeBlanked h e => Sys2Proof.Machine.execEdgeBlanked h e s
  | .blankingWindowEnd h ix => Sys2Proof.Machine.execBlankingWindowEnd h ix s
  | .varmDecay h ix => Sys2Proof.Machine.execVarmDecay h ix s
  | .overspeedTripTimeout h => Sys2Proof.Machine.execOverspeedTripTimeout h s
  | .gateClose h u => Sys2Proof.Machine.execGateClose h u s
  | .stopTimeout h => Sys2Proof.Machine.execStopTimeout h s
  | .receiverEnable h ix lvl => Sys2Proof.Machine.execReceiverEnable h ix lvl s
  | .edgeLatchClear h ix => Sys2Proof.Machine.execEdgeLatchClear h ix s
  | .wiringConditionSet h ix c cm dc => Sys2Proof.Machine.execWiringConditionSet h ix c cm dc s
  | .wiringConditionClear h ix c cm dc => Sys2Proof.Machine.execWiringConditionClear h ix c cm dc s
  | .receiverFailedClear h ix => Sys2Proof.Machine.execReceiverFailedClear h ix s
  | .receiverDisagree ix => Sys2Proof.Machine.execReceiverDisagree ix s
  | .twistRecompute h => Sys2Proof.Machine.execTwistRecompute h s
  | .calAlignResult => Sys2Proof.Machine.execCalAlignResult s
  | .calTwistResult => Sys2Proof.Machine.execCalTwistResult s
  | .calTwistTimeout => Sys2Proof.Machine.execCalTwistTimeout s
  | .hopperLoad h k => Sys2Proof.Machine.execHopperLoad h k s
  | .slotDue h k => Sys2Proof.Machine.execSlotDue h k s
  | .slotOffsetExpire h k => Sys2Proof.Machine.execSlotOffsetExpire h k s
  | .slotWidthExpire h k => Sys2Proof.Machine.execSlotWidthExpire h k s
  | .drvSourceGapEnd h p => Sys2Proof.Machine.execDrvSourceGapEnd h p s
  | .drvBlankEnd h p => Sys2Proof.Machine.execDrvBlankEnd h p s
  | .drvHiLatch h p dt => Sys2Proof.Machine.execDrvHiLatch h p dt s
  | .drvLoLatch h p dt => Sys2Proof.Machine.execDrvLoLatch h p dt s
  | .drvChop h p aboveHi aboveLo => Sys2Proof.Machine.execDrvChop h p aboveHi aboveLo s
  | .drvPhaseTimeout h p aboveLo => Sys2Proof.Machine.execDrvPhaseTimeout h p aboveLo s
  | .drvOvercurrent h p => Sys2Proof.Machine.execDrvOvercurrent h p s
  | .drvStuckOn h p => Sys2Proof.Machine.execDrvStuckOn h p s
  | .outPinFlag h m flag => Sys2Proof.Machine.execOutPinFlag h m flag s
  | .floodgateInputLow w dt => Sys2Proof.Machine.execFloodgateInputLow w dt s
  | .fgDisagree h => Sys2Proof.Machine.execFgDisagree h s
  | .psfAssert h b => Sys2Proof.Machine.execPsfAssert h b s
  | .levelAssert src => Sys2Proof.Machine.execLevelAssert src s
  | .levelDeassert src => Sys2Proof.Machine.execLevelDeassert src s
  | .weirStatusQuery src => Sys2Proof.Machine.execWeirStatusQuery src s
  | .weirAcknowledge src => Sys2Proof.Machine.execWeirAcknowledge src s
  | .weirDoorbell src payload => Sys2Proof.Machine.execWeirDoorbell src payload s
  | .angleClockTrigger h => Sys2Proof.Machine.execAngleClockTrigger h s
  | .acqTimerExpire h n => Sys2Proof.Machine.execAcqTimerExpire h n s
  | .crossing h g rising dt => Sys2Proof.Machine.execCrossing h g rising dt s
  | .triggerDelayExpire h t => Sys2Proof.Machine.execTriggerDelayExpire h t s
  | .sequenceEnd h q => Sys2Proof.Machine.execSequenceEnd h q s
  | .conversionRecordWrite h q v => Sys2Proof.Machine.execConversionRecordWrite h q v s
  | .resultsComplete h j stage => Sys2Proof.Machine.execResultsComplete h j stage s
  | .refOkSet h r mv => Sys2Proof.Machine.execRefOkSet h r mv s
  | .refOkClear h r mv => Sys2Proof.Machine.execRefOkClear h r mv s
  | .calStepStart h g => Sys2Proof.Machine.execCalStepStart h g s
  | .calTakeover h g => Sys2Proof.Machine.execCalTakeover h g s
  | .calStepLate h g => Sys2Proof.Machine.execCalStepLate h g s
  | .sliceCalDone h g ofsPpm gainPpm => Sys2Proof.Machine.execSliceCalDone h g ofsPpm gainPpm s
  | .calHandback h g => Sys2Proof.Machine.execCalHandback h g s
  | .tdacVerdict h m => Sys2Proof.Machine.execTdacVerdict h m s
  | .jump h e edges => Sys2Proof.Machine.execJump h e edges s
  | .wait h e edges => Sys2Proof.Machine.execWait h e edges s
  | .shift h e edges => Sys2Proof.Machine.execShift h e edges s
  | .stampArm h e => Sys2Proof.Machine.execStampArm h e s
  | .stampMeasure h e => Sys2Proof.Machine.execStampMeasure h e s
  | .stampTimeout h e => Sys2Proof.Machine.execStampTimeout h e s
  | .stallRelease h e edges => Sys2Proof.Machine.execStallRelease h e edges s
  | .wpinEdgeLatch h e edges dt => Sys2Proof.Machine.execWpinEdgeLatch h e edges dt s
  | .queueFill h e => Sys2Proof.Machine.execQueueFill h e s
  | .queueStore h e => Sys2Proof.Machine.execQueueStore h e s
  | .queueStoreC0 h e => Sys2Proof.Machine.execQueueStoreC0 h e s
  | .queueTakeC0 h e => Sys2Proof.Machine.execQueueTakeC0 h e s
  | .queueTakeC1 h e => Sys2Proof.Machine.execQueueTakeC1 h e s
  | .pinsLevel h e => Sys2Proof.Machine.execPinsLevel h e s
  | .pinsDirection h e => Sys2Proof.Machine.execPinsDirection h e s
  | .load h e edges => Sys2Proof.Machine.execLoad h e edges s
  | .countAddC0 h e => Sys2Proof.Machine.execCountAddC0 h e s
  | .countSubC0 h e => Sys2Proof.Machine.execCountSubC0 h e s
  | .countAddC1 h e => Sys2Proof.Machine.execCountAddC1 h e s
  | .countSubC1 h e => Sys2Proof.Machine.execCountSubC1 h e s
  | .countC0MinusC1 h e => Sys2Proof.Machine.execCountC0MinusC1 h e s
  | .countC0PlusC1 h e => Sys2Proof.Machine.execCountC0PlusC1 h e s
  | .countShiftC0 h e => Sys2Proof.Machine.execCountShiftC0 h e s
  | .countAndC0 h e => Sys2Proof.Machine.execCountAndC0 h e s
  | .signalSetFlag h e => Sys2Proof.Machine.execSignalSetFlag h e s
  | .signalClearFlag h e => Sys2Proof.Machine.execSignalClearFlag h e s
  | .signalWeir h e => Sys2Proof.Machine.execSignalWeir h e s
  | .programSwap h g => Sys2Proof.Machine.execProgramSwap h g s
  | .forcedSwap h g => Sys2Proof.Machine.execForcedSwap h g s
  | .stop m => Sys2Proof.Machine.execStop m s
  | .floodgateRelease m => Sys2Proof.Machine.execFloodgateRelease m s
  | .setDirection m => Sys2Proof.Machine.execSetDirection m s
  | .fgStatus m => Sys2Proof.Machine.execFgStatus m s
  | .setpoint m => Sys2Proof.Machine.execSetpoint m s
  | .canBackupFrame port ident data => Sys2Proof.Machine.execCanBackupFrame port ident data s
  | .canStatusFrame => Sys2Proof.Machine.execCanStatusFrame s
  | .imageBegin m => Sys2Proof.Machine.execImageBegin m s
  | .imageChunk m => Sys2Proof.Machine.execImageChunk m s
  | .configCommit m => Sys2Proof.Machine.execConfigCommit m s
  | .configDryRun m => Sys2Proof.Machine.execConfigDryRun m s
  | .configFlashWriteDone ok => Sys2Proof.Machine.execConfigFlashWriteDone ok s
  | .imageAbort m => Sys2Proof.Machine.execImageAbort m s
  | .configRead m => Sys2Proof.Machine.execConfigRead m s
  | .configInfo m => Sys2Proof.Machine.execConfigInfo m s
  | .linkSet m => Sys2Proof.Machine.execLinkSet m s
  | .slotArm m => Sys2Proof.Machine.execSlotArm m s
  | .slotWrite m => Sys2Proof.Machine.execSlotWrite m s
  | .slotFree m => Sys2Proof.Machine.execSlotFree m s
  | .slotRead m => Sys2Proof.Machine.execSlotRead m s
  | .profileWrite m => Sys2Proof.Machine.execProfileWrite m s
  | .profileCopy h ix => Sys2Proof.Machine.execProfileCopy h ix s
  | .profileRead m => Sys2Proof.Machine.execProfileRead m s
  | .trackerSet m => Sys2Proof.Machine.execTrackerSet m s
  | .twistSet m => Sys2Proof.Machine.execTwistSet m s
  | .acqSetMask m => Sys2Proof.Machine.execAcqSetMask m s
  | .acqMaskApply h q => Sys2Proof.Machine.execAcqMaskApply h q s
  | .acqSetDelay m => Sys2Proof.Machine.execAcqSetDelay m s
  | .acqSetStep m => Sys2Proof.Machine.execAcqSetStep m s
  | .acqSetPeriod m => Sys2Proof.Machine.execAcqSetPeriod m s
  | .clSet m => Sys2Proof.Machine.execClSet m s
  | .progLoad m => Sys2Proof.Machine.execProgLoad m s
  | .sluiceStart m => Sys2Proof.Machine.execSluiceStart m s
  | .sluiceHalt m => Sys2Proof.Machine.execSluiceHalt m s
  | .sluiceClockRestart m => Sys2Proof.Machine.execSluiceClockRestart m s
  | .sluiceXfer m => Sys2Proof.Machine.execSluiceXfer m s
  | .pinClaim m => Sys2Proof.Machine.execPinClaim m s
  | .pinRelease m => Sys2Proof.Machine.execPinRelease m s
  | .gpioSet m => Sys2Proof.Machine.execGpioSet m s
  | .wheelDiag m => Sys2Proof.Machine.execWheelDiag m s
  | .statusRead m => Sys2Proof.Machine.execStatusRead m s
  | .faultRead m => Sys2Proof.Machine.execFaultRead m s
  | .calAlign m => Sys2Proof.Machine.execCalAlign m s
  | .calTwist m => Sys2Proof.Machine.execCalTwist m s
  | .calApply m => Sys2Proof.Machine.execCalApply m s
  | .calAbort m => Sys2Proof.Machine.execCalAbort m s
  | .sessionOpen m => Sys2Proof.Machine.execSessionOpen m s
  | .sessionClose m => Sys2Proof.Machine.execSessionClose m s
  | .sessionTimeout h => Sys2Proof.Machine.execSessionTimeout h s
  | .sliceCal m => Sys2Proof.Machine.execSliceCal m s
  | .tdacOpenShort m => Sys2Proof.Machine.execTdacOpenShort m s
  | .tdacGain m => Sys2Proof.Machine.execTdacGain m s
  | .tdacManual m => Sys2Proof.Machine.execTdacManual m s
  | .tdacStop m => Sys2Proof.Machine.execTdacStop m s
  | .sensorRead m => Sys2Proof.Machine.execSensorRead m s
  | .telemSet m => Sys2Proof.Machine.execTelemSet m s
  | .tarnInfo m => Sys2Proof.Machine.execTarnInfo m s
  | .recordRead m => Sys2Proof.Machine.execRecordRead m s
  | .traceRead m => Sys2Proof.Machine.execTraceRead m s
  | .toothlogRead m => Sys2Proof.Machine.execToothlogRead m s
  | .attest m => Sys2Proof.Machine.execAttest m s
  | .identity m => Sys2Proof.Machine.execIdentity m s
  | .ownerEnrol m => Sys2Proof.Machine.execOwnerEnrol m s
  | .challenge m => Sys2Proof.Machine.execChallenge m s
  | .jtagUnlock m => Sys2Proof.Machine.execJtagUnlock m s
  | .jtagClose => Sys2Proof.Machine.execJtagClose s
  | .fwBegin m => Sys2Proof.Machine.execFwBegin m s
  | .fwChunk m => Sys2Proof.Machine.execFwChunk m s
  | .fwCommit m => Sys2Proof.Machine.execFwCommit m s
  | .sleepNotice m => Sys2Proof.Machine.execSleepNotice m s
  | .linkReset m => Sys2Proof.Machine.execLinkReset m s
  | .reset m => Sys2Proof.Machine.execReset m s
  | .logRead m => Sys2Proof.Machine.execLogRead m s
  | .managementRead port bytes => Sys2Proof.Machine.execManagementRead port bytes s
  | .managementWrite port bytes => Sys2Proof.Machine.execManagementWrite port bytes s
  | .reqDbWrite len => Sys2Proof.Machine.execReqDbWrite len s
  | .cqHeadWrite v => Sys2Proof.Machine.execCqHeadWrite v s
  | .ptpSync ofsNs => Sys2Proof.Machine.execPtpSync ofsNs s
  | .ptpSyncTimeout => Sys2Proof.Machine.execPtpSyncTimeout s
  | .ppsPulse ofsNs => Sys2Proof.Machine.execPpsPulse ofsNs s
  | .timeMapWrite sec ns => Sys2Proof.Machine.execTimeMapWrite sec ns s
  | .tcxoFail => Sys2Proof.Machine.execTcxoFail s
  | .shedEnter dV => Sys2Proof.Machine.execShedEnter dV s
  | .shedLeave dV => Sys2Proof.Machine.execShedLeave dV s
  | .supplyRestartStep => Sys2Proof.Machine.execSupplyRestartStep s
  | .scrubDeferExpire => Sys2Proof.Machine.execScrubDeferExpire s
  | .powerOver => Sys2Proof.Machine.execPowerOver s
  | .ssSupplyTrip n => Sys2Proof.Machine.execSsSupplyTrip n s
  | .ssSupplyRetry n => Sys2Proof.Machine.execSsSupplyRetry n s
  | .supplyApply dV key => Sys2Proof.Machine.execSupplyApply dV key s
  | .keyHigh dV => Sys2Proof.Machine.execKeyHigh dV s
  | .coldBoot => Sys2Proof.Machine.execColdBoot s
  | .bootStageAdvance => Sys2Proof.Machine.execBootStageAdvance s
  | .trialConfirm => Sys2Proof.Machine.execTrialConfirm s
  | .keyLow => Sys2Proof.Machine.execKeyLow s
  | .shutdown => Sys2Proof.Machine.execShutdown s
  | .undervoltageShutdown => Sys2Proof.Machine.execUndervoltageShutdown s
  | .watchdogExpire core => Sys2Proof.Machine.execWatchdogExpire core s
  | .eccError area corrected => Sys2Proof.Machine.execEccError area corrected s
  | .registerWrite r v => Sys2Proof.Machine.execRegisterWrite r v s
  | .comparatorStateChange h ix tooth => Sys2Proof.Machine.execComparatorStateChange h ix tooth s
  | .floodgateInputHigh w dt => Sys2Proof.Machine.execFloodgateInputHigh w dt s
  | .drvBoostGapEnd h p => Sys2Proof.Machine.execDrvBoostGapEnd h p s
  | .discardedFrame t bytes udpLen => Sys2Proof.Machine.execDiscardedFrame t bytes udpLen s
  | .unknownCommand mb cmd m => Sys2Proof.Machine.execUnknownCommand mb cmd m s
  | .requestBufferWrite ofs data => Sys2Proof.Machine.execRequestBufferWrite ofs data s
  | .registerRead r => Sys2Proof.Machine.execRegisterRead r s
  | .resetFollows => Sys2Proof.Machine.execResetFollows s
  | .jtagReset => Sys2Proof.Machine.execJtagReset s
  | .wheelDiagTimeout h => Sys2Proof.Machine.execWheelDiagTimeout h s

end Sys2Proof.Machine
end

