-- ==== Sys2Proof/Machine/Step.lean ====
section
/-! DEFINITION. One step: the command at the front of the queue, or one EVCLK period. -/

namespace Sys2Proof.Machine

open Sys2Proof

/-- One step of the module: the command at the front of the queue with the queue's rest; on an empty queue one EVCLK
period passes (R31, log 2), and a foreground that R41 lets start late starts where its instant has come. -/
def step (s : State) : Host.Outcome State Fault Refusal :=
  match s.pending with
  | [] => .next ((s.advance 1).late (s.now + 1))
  | c :: rest => exec c { s with pending := rest }

/-- The state with the command that a word spells at the front of its queue. -/
def State.withFetchWord (s : State) (nbits w : Nat) : State :=
  match decodeTableWord nbits w with
  | some c => { s with pending := c :: s.pending }
  | none => s

end Sys2Proof.Machine
end

