-- ==== Sys2Proof/Safety.lean ====
section
/-! DEFINITION. The words in which the statements speak: a message that passes every check of the link, the state in which its
command is served, an answer, and the invariants. -/

namespace Sys2Proof.Safety

open Sys2Proof Sys2Proof.Machine

/-- A message that the link accepts (R379, R381, R384, R416): its transport is served, it is no repetition under REDUNDANT, its
stream's alive counter moved on by one (or any frame is acceptable), the boot stage serves its command, its length is right, and its
mailbox has room and no request of the same SEQ. -/
structure Heard (mb : Fin 8) (cmd : Nat) (len : Ask → Nat) (m : Msg) (s : State) : Prop where
  serves : s.serves m.t = true
  once   : s.hub.link.duplicate m.t m.alive (crc32c (msgBytes mb.1 cmd m)) s.now = false
  alive  : s.hub.link.alive.get mb = none ∨ s.hub.link.alive.get mb = some (m.alive - 1)
  stage  : s.stageRefuses mb.1 cmd = none
  length : m.len = len (msgAsk mb.1 cmd m) ∧ m.len = 20 + m.payload.length ∧ m.len ≤ 1024
  room   : (s.hub.link.reqs.filter (fun r => r.mb = mb.1)).length < 32
  fresh  : (s.hub.link.reqs.filter (fun r => r.mb = mb.1)).any (fun r => r.seq = m.seq) = false

/-- The state in which the command of an accepted message is served (R378, R384, R394, R401): the stream's alive counter stands at the
message's, the port for answers and its peer follow, the host is awake, the doorbell has rung, the request is outstanding. -/
def taken (mb : Fin 8) (cmd : Nat) (m : Msg) (s : State) : State :=
  let s1 := s.linkMap (fun l => { (l.from_ m) with
    alive := put1 l.alive mb (some m.alive)
    dups := (m.t, m.alive, crc32c (msgBytes mb.1 cmd m), s.now) :: l.dups.filter (fun d => s.now ≤ d.2.2.2 + etPerMs)
    okRun := if mb.1 = 1 then l.okRun + 1 else l.okRun })
  ((s1.wake).doorbell mb).linkMap (fun l => { l with reqs := l.reqs ++ [⟨mb.1, m.seq, cmd, m.flags.getLsbD 5, none⟩] })

/-- The row of a message: its message being accepted, the first of its conditions that holds is the status of its answer and nothing
else happens; where none holds it has its effect (R379, R416). -/
def Runs (c : Instr) (mb : Fin 8) (cmd : Nat) (len : Ask → Nat) (m : Msg) (s : State) (cs : Ask → State → List (Bool × Nat))
    (eff : Ask → State → State) : Prop :=
  Heard mb cmd len m s →
    let a := msgAsk mb.1 cmd m
    let u := taken mb cmd m s
    (∀ r, (cs a u).find? (·.1) = some r → Machine.exec c s = .next (u.done a r.2 [])) ∧
      ((cs a u).find? (·.1) = none → Machine.exec c s = .next (eff a u))

/-- An owner key is enrolled (R498). -/
def owned (k : List Byte) (s : State) : Prop := s.hub.flash.owner = some k

/-- The rollback floor stands at or above a value (R493). -/
def floorAtLeast (n : Nat) (s : State) : Prop := n ≤ s.hub.flash.floor

/-- At most one firmware slot is ACTIVE (R492). -/
def oneActive (s : State) : Prop := ¬ ((s.hub.flash.fw.get 0).st = 3 ∧ (s.hub.flash.fw.get 1).st = 3)

/-- The module at the tick at which an engine executes its next instruction (R348, R349). -/
def atTick (id : HalfId) (e : Fin 8) (s : State) : State :=
  s.advanceTo (Sle.tickAt (s.half id).now ((s.half id).eng e).wait ((s.half id).eng e))

/-- An engine is about to execute a word of a kind, and the word stands at its PC when its tick comes: RUNNING, not stalled, the
word free of reserved values (R348, R349, R351). -/
structure Executes (id : HalfId) (e : Fin 8) (kind : BitVec 24 → Bool) (w : BitVec 24) (s : State) : Prop where
  live  : s.live id = true
  ready : (s.half id).slReady e kind = true
  word  : ((atTick id e s).half id).slWord e = w
  kind  : kind w = true

/-- Commands that can set FRAME or the instant of the last tick anew: the frame tick, and what resets the module or the hub (R36,
R485 to R487), COLD_BOOT's boot fallback among it (R492). -/
def setsFrame : Instr → Bool
  | .frameTick _ | .watchdogExpire _ | .eccError _ _ | .resetFollows | .jtagReset | .coldBoot | .keyHigh _ | .shutdown | .undervoltageShutdown => true
  | _ => false

end Sys2Proof.Safety
end

