-- ==== Sys2Proof/Certificates/Slice0/Obligations.lean ====
section
/-! DEFINITION. The statements for the provers. -/

open Sys2Proof Sys2Proof.Machine Sys2Proof.Safety

/-! ### Steps and the queue -/

/-- For every command c, state s and queue q: a step of s with c in front of q is exec of c on s with q. (The queue is the
model's own, log 2.) (R4, opcode_table.json) -/
def Obligations.StepRunsTheFrontCommand : Prop :=
  ∀ (c : Instr) (q : List Instr) (s : State),
    Machine.step { s with pending := c :: q } = Machine.exec c { s with pending := q }

/-- With no command waiting, a step answers the state after one EVCLK period (1.25 ns), in which the instant moves on by one and
the queue stays empty; a foreground that a foreground still running held back (R41) and whose instant has come then starts; where
none waits for an instant so near, the step answers that period alone. (That the empty queue is time is the model's choice, log
2.) (R31, R41) -/
def Obligations.EmptyQueueLetsOnePeriodPass : Prop :=
  ∀ s : State, s.pending = [] →
    Machine.step s = .next ((s.advance 1).late (s.now + 1)) ∧ ((s.advance 1).late (s.now + 1)).pending = [] ∧
    (s.advance 1).now = s.now + 1 ∧ (s.advance 1).pending = [] ∧
    ((∀ n, (s.hub.owed.get n).all (fun e => s.now + 1 < e) = true) → Machine.step s = .next (s.advance 1))

/-- For every command and every state, exec answers a next state: no fault, no refusal. (R4, R381, R416) -/
def Obligations.EveryCommandAnswersANextState : Prop :=
  ∀ (c : Instr) (s : State), ∃ t, Machine.exec c s = .next t

/-- Whatever a command does, the queue of waiting commands stays as it was. (The queue is the model's own, log 2.) (R4,
opcode_table.json) -/
def Obligations.CommandsLeaveTheQueueAlone : Prop :=
  ∀ (c : Instr) (s t : State), Machine.exec c s = .next t → t.pending = s.pending

/-- A command other than FRAME_TICK and the commands that reset the module or its hub leaves the hub's FRAME counter and the
instant of the last tick as they were; COLD_BOOT resets the module only where the ROM finds a failed trial after a hub reset, and
else leaves them too. (R35, R485, R487) -/
def Obligations.OnlyTicksAndResetsMoveTheFrameCounter : Prop :=
  (∀ (c : Instr) (s t : State), setsFrame c = false → Machine.exec c s = .next t →
    t.hub.frame = s.hub.frame ∧ t.hub.tick = s.hub.tick) ∧
  (∀ s t : State, (s.hub.flash.endTrials.2 = false ∨ s.hub.boot.warm = false) → Machine.exec .coldBoot s = .next t →
    t.hub.frame = s.hub.frame ∧ t.hub.tick = s.hub.tick)

/-- With the module clocked, FRAME_TICK answers a next state in which the hub's FRAME is one higher, the tick's instant is that
to which the clock was brought, at least 8000 et after the last tick, and the queue is as it was. With EVCLK standing still
nothing happens. FRAME_OVERRUN of a steward raises class 0x1F in its half where that half works; of S0 or S1 it raises it in the
hub where the hub works; it comes 7.000 us after the tick, its core runs no background in that frame (S0 writes no telemetry),
and where its foreground runs on past the next tick, that is remembered: at that tick the core has no foreground, and owes it
from the instant at which the one before ends; there it runs it, on the state as it then is. Stewards that do not run leave a
step of the foreground undone. (R31, R35, R36, R39, R40, R41, R462) -/
def Obligations.FrameTicksAdvanceAndOverrunsCount : Prop :=
  (∀ (inp : TickIn) (s : State),
    (s.clocked = true → ∃ t, Machine.exec (.frameTick inp) s = .next t ∧ t.hub.frame = s.hub.frame + 1 ∧
      t.hub.tick = ((s.late (s.hub.tick + 8000)).advanceTo (s.hub.tick + 8000)).now ∧ s.hub.tick + 8000 ≤ t.hub.tick ∧ t.pending = s.pending) ∧
    (s.clocked = false → Machine.exec (.frameTick inp) s = .next s)) ∧
  (∀ (ends : Nat) (s : State),
    let past (n : Fin 4) : State := ((s.late (s.hub.tick + 5600)).advanceTo (s.hub.tick + 5600)).overran n ends
    (s.live .A = true → Machine.exec (.frameOverrun ⟨.stewA, ends⟩) s = .next ((past 2).onHalf .A (fun h => h.raise 0x1F (locInp h.id 7)))) ∧
    (s.live .B = true → Machine.exec (.frameOverrun ⟨.stewB, ends⟩) s = .next ((past 3).onHalf .B (fun h => h.raise 0x1F (locInp h.id 7)))) ∧
    (s.hubOn = true → Machine.exec (.frameOverrun ⟨.s0, ends⟩) s = .next ((past 0).raiseHub 0x1F locHub) ∧
      Machine.exec (.frameOverrun ⟨.s1, ends⟩) s = .next ((past 1).raiseHub 0x1F locHub)) ∧
    (∀ n, (s.overran n ends).hub.noBg.get n = true ∧
      (8000 < ends → (s.overran n ends).hub.behind.get n = some (s.hub.tick + ends)) ∧
      (ends ≤ 8000 → (s.overran n ends).hub.behind = s.hub.behind))) ∧
  (∀ s : State, (s.hub.noBg.get 0 = true → s.background = s) ∧
    (∀ (on : HalfId → Bool) (f : Half → Half), on .A = false → on .B = false → s.fore on f = s) ∧
    (∀ n e, s.hub.behind.get n = some e → (s.now < e → s.runs n = false ∧ s.dogs.hub.owed.get n = some e ∧ s.dogs.hub.noBg.get n = true) ∧
      (e ≤ s.now → s.runs n = true ∧ s.dogs.hub.owed.get n = none)) ∧
    (∀ n e t, s.hub.owed.get n = some e → (∀ m, m ≠ n → s.hub.owed.get m = none) →
      (t < e → s.lateOne t = s) ∧
      (e ≤ t → s.lateOne t = ((s.advanceTo e).hubMap (fun u => { u with owed := put1 u.owed n none, lastWd := put1 u.lastWd n e })).foreground n)))

/-! ### Reset and what no command can undo -/

/-- In the state after reset each half's kill latch is set with cause POWER_UP and every EV pin is commanded to its safe level;
the floodgate is TRIPPED; each tracker is in STOP, each drive sequencer IDLE, each sluice engine OFF; slots below 0x0C0 are EMPTY
and the pool slots FREE; no request is outstanding, no command waits, and FRAME is 0 (FRAME's value is the model's, log 1).
(R226, R227, R228, R232, R161, R358) -/
def Obligations.ResetLeavesEveryOutputSafe : Prop :=
  (∀ id : HalfId, (State.reset.half id).fg.latch = true ∧ (State.reset.half id).fg.cause = 0 ∧ (State.reset.half id).trk.st = 0) ∧
  (∀ (id : HalfId) (m : Fin 48), (State.reset.half id).pinLevel m = ((State.reset.half id).chans.get m).safeLevel) ∧
  (∀ (id : HalfId) (p : Fin 24), ((State.reset.half id).pairs.get p).phase = 7) ∧
  (∀ (id : HalfId) (e : Fin 8), ((State.reset.half id).eng e).st = 0) ∧
  (∀ (id : HalfId) (k : Fin 1024), ((State.reset.half id).slots.get k).st = if k.1 < 0x0C0 then 1 else 0) ∧
  State.reset.hub.fg.st = 0 ∧ State.reset.hub.link.reqs = [] ∧ State.reset.pending = [] ∧ State.reset.hub.frame = 0#32

/-- In the state after reset not both firmware slots are ACTIVE and the rollback floor stands at 0, which is where R493 starts
it. (That slot 0 holds a firmware image and no owner key is enrolled is the model's choice of a module, log 4.) (R492, R493,
R498) -/
def Obligations.ResetHasOneActiveSlotAndNoOwner : Prop :=
  oneActive State.reset ∧ floorAtLeast 0 State.reset ∧ State.reset.hub.flash.floor = 0 ∧ State.reset.hub.flash.owner = none

/-- In every state, whatever command stands in front of the queue, a step that answers a next state leaves an enrolled owner key
enrolled: through resets, boots, transfers and shutdown. (R498) -/
def Obligations.OwnerKeyIsPermanent : Prop :=
  ∀ (k : List Byte) (s t : State), Machine.step s = .next t → owned k s → owned k t

/-- In every state, whatever command stands in front of the queue, a step that answers a next state leaves the rollback floor
where it was or higher. (R493) -/
def Obligations.RollbackFloorNeverFalls : Prop :=
  ∀ (s t : State), Machine.step s = .next t → s.hub.flash.floor ≤ t.hub.flash.floor

/-- In every state in which not both firmware slots are ACTIVE, whatever command stands in front of the queue, a step that
answers a next state leaves not both ACTIVE. (R492) -/
def Obligations.NeverTwoActiveFirmwareSlots : Prop :=
  ∀ (s t : State), oneActive s → Machine.step s = .next t → oneActive t

/-! ### Host link: acceptance, completions, notifications -/

/-- For a mailbox whose last accepted ALIVE is a, with d = (ALIVE - a) mod 65536: d = 1 is accepted and the counter follows; d =
2 is accepted, the counter follows and FRAME_LOST is raised; d = 0 or at least 32768 is refused with STALE_FRAME, the counter
stays, a check failure counts; any other d is refused with a status of its own (0x21), the counter follows, a check failure
counts. A mailbox with no last ALIVE accepts any. (R384, R413) -/
def Obligations.AliveCounterDecides : Prop :=
  ∀ (mb : Fin 8) (cmd : Nat) (m : Msg) (s : State),
    let set := s.linkMap (fun l => { l with alive := put1 l.alive mb (some m.alive) })
    (s.hub.link.alive.get mb = none → s.aliveCheck mb cmd m = (set, true)) ∧
    ∀ a : BitVec 16, s.hub.link.alive.get mb = some a →
      ((m.alive - a).toNat = 1 → s.aliveCheck mb cmd m = (set, true)) ∧
      ((m.alive - a).toNat = 2 → s.aliveCheck mb cmd m = (set.raiseHub 0x61 locHub, true)) ∧
      ((m.alive - a).toNat = 0 ∨ 32768 ≤ (m.alive - a).toNat →
        s.aliveCheck mb cmd m = ((s.refuse mb.1 cmd m.seq 0x20).checkFail (mbStream mb.1), false)) ∧
      (3 ≤ (m.alive - a).toNat ∧ (m.alive - a).toNat < 32768 →
        s.aliveCheck mb cmd m = ((set.refuse mb.1 cmd m.seq 0x21).checkFail (mbStream mb.1), false))

/-- A request that passed its check unit is refused, in this order: with the status of the boot stage; with BAD_LENGTH; with
MAILBOX_FULL where 32 of its mailbox are outstanding; with SEQ_IN_USE where one of the same SEQ is; each refusal is posted at
once and leaves the outstanding requests alone. Otherwise it is outstanding and is served. (The order among the four is the
model's, DEDUCED; see the log.) (R379, R381, R492, R494) -/
def Obligations.RefusalsBeforeAcceptanceInOrder : Prop :=
  ∀ (a : Ask) (lenOk : Bool) (serve : Ask → State → State) (s : State),
    let mine := s.hub.link.reqs.filter (fun r => r.mb = a.mb)
    (∀ st, s.stageRefuses a.mb a.cmd = some st → s.accept a lenOk serve = s.refuse a.mb a.cmd a.seq st) ∧
    (s.stageRefuses a.mb a.cmd = none →
      (lenOk = false → s.accept a lenOk serve = s.refuse a.mb a.cmd a.seq 0x12) ∧
      (lenOk = true → 32 ≤ mine.length → s.accept a lenOk serve = s.refuse a.mb a.cmd a.seq 0x14) ∧
      (lenOk = true → mine.length < 32 → mine.any (fun r => r.seq = a.seq) = true →
        s.accept a lenOk serve = s.refuse a.mb a.cmd a.seq 0x15) ∧
      (lenOk = true → mine.length < 32 → mine.any (fun r => r.seq = a.seq) = false →
        s.accept a lenOk serve = serve a (s.linkMap (fun l => { l with reqs := l.reqs ++ [⟨a.mb, a.seq, a.cmd, a.silent, none⟩] }))))

/-- Where a message is accepted and its mailbox has no other request outstanding, finishing its request with a status and a
payload leaves exactly the requests that were outstanding before the message; the completion queue, with room left, gains one
entry with the request's mailbox, command and SEQ, its status, the hub's FRAME and the payload - and gains none for a SILENT
request that succeeded in full. (R379, R380, R396) -/
def Obligations.AnAcceptedRequestIsAnsweredOnce : Prop :=
  ∀ (mb : Fin 8) (cmd status : Nat) (payload : List Byte) (m : Msg) (s : State),
    let u := taken mb cmd m s
    let t := u.done (msgAsk mb.1 cmd m) status payload
    s.hub.link.reqs.filter (fun r => r.mb = mb.1) = [] → u.hub.link.cq.length < 256 →
      t.hub.link.reqs = s.hub.link.reqs ∧
      t.hub.link.cq = u.hub.link.cq ++ (if m.flags.getLsbD 5 = true ∧ status = 0 then [] else
        [⟨mb.1, cmd, false, mb.1 = 0, m.seq, u.hub.link.outAlive, status, u.hub.frame, payload, u.now, false, false, false⟩])

/-- In a mailbox other than MB4 and MB5, while the oldest outstanding request has not finished, finishing a request of another
SEQ posts nothing: the completion queue stays as it was and every request stays outstanding. (R379) -/
def Obligations.InOrderMailboxesHoldCompletionsBack : Prop :=
  ∀ (mb : Nat) (seq : BitVec 16) (status : Nat) (payload : List Byte) (r : HReq) (rest : List HReq) (s : State),
    mb ≠ 4 → mb ≠ 5 → s.hub.link.reqs.filter (fun x => x.mb = mb) = r :: rest → r.res = none → r.seq ≠ seq →
      (s.finish mb seq status payload).hub.link.cq = s.hub.link.cq ∧
      (s.finish mb seq status payload).hub.link.reqs.length = s.hub.link.reqs.length

/-- Where at most 256 entries are held, at most 256 are held after another is posted: of a full queue two are merged first.
(R396, R403) -/
def Obligations.CompletionQueueHoldsAtMost256 : Prop :=
  ∀ (mb cmd : Nat) (unsol wake : Bool) (seq : BitVec 16) (status : Nat) (frame : Word) (payload : List Byte) (s : State),
    s.hub.link.cq.length ≤ 256 → (s.postEntry mb cmd unsol wake seq status frame payload).hub.link.cq.length ≤ 256

/-- A write to a hub queue with room appends the record with the queue's OVF and clears it, behind the records that stand there,
but before those of a higher source written in the same SUPCLK period; to a full one it records nothing, increments LOST, sets
OVF for the next record, and counts WEIR_OVERFLOW, whose own record goes to its queue where that has room; other queues stay. No
queue grows beyond 1024 records, a half's event queue not beyond 256. (R406, R410, R412) -/
def Obligations.WeirQueuesLoseAndCount : Prop :=
  (∀ (now : Word) (q : Fin 4) (r : WeirRec) (u : Hub), (u.weir.queues.get q).length < 1024 →
    let r1 : WeirRec := { r with queue := q.1, ovf := u.weir.ovf.get q }
    let l := u.weir.queues.get q
    let v := u.append now q r
    v.weir.queues.get q = weirPut r1 l ∧ (weirPut r1 l).length = l.length + 1 ∧
    ((∀ x, l.getLast? = some x → supPeriod x.ts ≠ supPeriod r.ts ∨ x.halfQ ≠ r.halfQ ∨ x.taken = true ∨ x.src ≤ r.src) → weirPut r1 l = l ++ [r1]) ∧
    (∀ x l0, l = l0 ++ [x] → supPeriod x.ts = supPeriod r.ts → x.halfQ = r.halfQ → x.taken = false → r.src < x.src →
      weirPut r1 l = weirPut r1 l0 ++ [x]) ∧
    v.weir.ovf.get q = false ∧ v.weir.lost = u.weir.lost ∧ ∀ p : Fin 4, p ≠ q → v.weir.queues.get p = u.weir.queues.get p) ∧
  (∀ (now : Word) (q : Fin 4) (r : WeirRec) (u : Hub), 1024 ≤ (u.weir.queues.get q).length →
    let v := u.append now q r
    let own : WeirRec := ⟨0x088, 0, 0, false, false, false, u.frame, now, locHub, false⟩
    v.weir.queues.get q = u.weir.queues.get q ∧ v.weir.lost.get q = u.weir.lost.get q + 1 ∧ v.weir.ovf.get q = true ∧
    v.flt.queue = u.flt.queue ++ [⟨0x68, u.frame, locHub⟩] ∧
    ∀ p : Fin 4, (u.weir.srcOf 0x088 = (true, p.1) → (u.weir.queues.get p).length < 1024 →
        v.weir.queues.get p = weirPut { own with queue := p.1, ovf := u.weir.ovf.get p } (u.weir.queues.get p)) ∧
      (¬ (u.weir.srcOf 0x088 = (true, p.1) ∧ (u.weir.queues.get p).length < 1024) → v.weir.queues.get p = u.weir.queues.get p)) ∧
  (∀ (now : Word) (src kind : Nat) (level halfQ : Bool) (frame ts payload : Word) (u : Hub), (∀ q : Fin 4, (u.weir.queues.get q).length ≤ 1024) →
    ∀ q : Fin 4, ((u.weirWrite now src kind level halfQ frame ts payload).weir.queues.get q).length ≤ 1024) ∧
  (∀ (r : WeirRec) (h : Half), h.evq.length ≤ 256 → (h.evAppend r).evq.length ≤ 256)

/-- Where DATAGRAM notifications left and no CQ_HEAD write has followed, DATAGRAM_REPEAT brings the clock forward to 2 ms after
the one sent longest ago and sends it again from CQ_HEAD, and its next repeat counts from there; the others keep their own
instants. A write of CQ_HEAD within the entries posted ends the repeating, moves CQ_HEAD and frees the entries before it. (R399) -/
def Obligations.NotificationsAreRepeatedUntilTheHostReads : Prop :=
  (∀ (t : Nat) (rest : List Nat) (s : State), s.serves .eth1 = true → s.hub.link.dgAt = t :: rest → ∃ u,
    Machine.exec .datagramRepeat s = .next u ∧
    (let v := s.advanceTo (t + 2 * etPerMs)
     u = (v.linkMap (fun l => { l with dgAt := l.dgAt.tail })).datagram 0 ∧ u.hub.link.dgAt = v.hub.link.dgAt.tail ++ [max s.now (t + 2 * etPerMs)] ∧
     u.hub.link.head = v.hub.link.head)) ∧
  (∀ (v : BitVec 16) (s : State), s.serves .spi = true → (v - s.hub.link.head).toNat ≤ (s.hub.link.tail - s.hub.link.head).toNat → ∃ u,
    Machine.exec (.cqHeadWrite v) s = .next u ∧ u = s.cqHead v ∧ u.hub.link.dgAt = [] ∧ u.hub.link.head = v ∧
    u.hub.link.cq = s.hub.link.cq.drop (v - s.hub.link.head).toNat)

/-- With the module clocked and a stream lastingly faulty, STREAM_RECOVER brings the clock forward to CHK_WIN after the stream's
last failure, where the stream stands faulty no longer and its failures are forgotten; nothing else changes but what that time
brings. With EVCLK still or a stream that is not faulty, nothing happens. (R386, R394) -/
def Obligations.StreamsRecoverAfterCheckWindow : Prop :=
  ∀ (x : Stream) (s : State),
    let i : Fin 9 := match x with
      | .mailbox n => n.castSucc
      | .canBackup => 8
    (s.clocked = true → s.hub.link.faulty.get i = true →
      Machine.exec (.streamRecover x) s = .next ((s.advanceTo ((s.hub.link.fails.get i).headD 0 + s.hub.link.cfg.chkWin * etPerMs)).linkMap
        (fun l => { l with faulty := put1 l.faulty i false, fails := put1 l.fails i [] }))) ∧
    (s.clocked = false ∨ s.hub.link.faulty.get i = false → Machine.exec (.streamRecover x) s = .next s)

/-- While SPI is served and REQ_BUSY is clear, REQUEST_BUFFER_WRITE puts its bytes into the request buffer and changes nothing
else, and REQ_DB_WRITE with the length of a message whose CRC matches lets REQ_BUSY stand for the copy and hands the message on;
one whose CRC does not match is discarded. While REQ_BUSY stands either write is lost and counted, saturating at 65535. (How long
REQ_BUSY stands is free up to 2 us, log 5.) (R374, R383) -/
def Obligations.SpiRequestBuffer : Prop :=
  ∀ (s : State), s.serves .spi = true →
    (s.reqBusy = false →
      (∀ (ofs : Nat) (data : List Byte), ofs + data.length ≤ 1024 → Machine.exec (.requestBufferWrite ofs data) s =
        .next (s.linkMap (fun l => { l with buf := overlay l.buf (min ofs 1024) data }))) ∧
      (∀ len : BitVec 16, crcOk (s.hub.link.buf.take len.toNat) = true → ∃ t, Machine.exec (.reqDbWrite len) s = .next t ∧
        (s.takeBuffer).mail (byteAt (s.hub.link.buf.take len.toNat) 0) (u16 (s.hub.link.buf.take len.toNat) 2)
          (bufMsg (s.hub.link.buf.take len.toNat)) = .next t) ∧
      (∀ len : BitVec 16, crcOk (s.hub.link.buf.take len.toNat) = false → Machine.exec (.reqDbWrite len) s =
        .next ((s.takeBuffer).discard .spi (s.hub.link.buf.take len.toNat) 0))) ∧
    (s.reqBusy = true → ∀ (ofs : Nat) (data : List Byte) (len : BitVec 16),
      Machine.exec (.requestBufferWrite ofs data) s = .next (s.linkMap (fun l => { l with spiLost := sat 16 (l.spiLost + 1) })) ∧
      Machine.exec (.reqDbWrite len) s = .next (s.linkMap (fun l => { l with spiLost := sat 16 (l.spiLost + 1) })))

/-- DISCARDED_FRAME on a served transport whose CRC does not match, or on Ethernet whose length does not match, counts a check
failure of the stream its first byte names and nothing else. On Ethernet a message of no known command whose LENGTH is not the
datagram's is a check failure, charged to the stream its mailbox names, if there is one. Any other message to a mailbox above 7
is refused with BAD_MAILBOX without any alive check: no alive counter changes and no check failure counts. A message of no known
command of its mailbox that passes its check unit, with the boot stage refusing nothing, is refused with BAD_COMMAND. (R373,
R381, R383, R384, R386) -/
def Obligations.DiscardedAndUnknownMessages : Prop :=
  ∀ s : State,
    (∀ (t : Transport) (b : List Byte) (udp : Nat), s.serves t = true → b ≠ [] →
      (crcOk b = false ∨ ((t = .eth1 ∨ t = .eth2) ∧ udp ≠ u16 b 6)) →
        Machine.exec (.discardedFrame t b udp) s = .next (s.checkFail (mbStream (byteAt b 0)))) ∧
    (∀ (mb : Byte) (cmd : BitVec 16) (m : Msg), s.serves m.t = true → misfit m = true → ∀ b : Fin 8, mb.toNat = b.1 →
      known b.1 cmd.toNat = false → Machine.exec (.unknownCommand mb cmd m) s = .next (s.checkFail (mbStream b.1))) ∧
    (∀ (mb : Byte) (cmd : BitVec 16) (m : Msg), s.serves m.t = true → misfit m = true → 8 ≤ mb.toNat →
      Machine.exec (.unknownCommand mb cmd m) s = .next (s.checkFail none)) ∧
    (∀ (mb : Byte) (cmd : BitVec 16) (m : Msg), s.serves m.t = true → misfit m = false → 8 ≤ mb.toNat → ∃ u,
      Machine.exec (.unknownCommand mb cmd m) s = .next u ∧
      u = (s.wake).refuse mb.toNat cmd.toNat m.seq 0x10 ∧
      u.hub.link.alive = s.hub.link.alive ∧ u.hub.link.chk = s.hub.link.chk) ∧
    (∀ (mb : Fin 8) (cmd : BitVec 16) (m : Msg) (u : State), known mb.1 cmd.toNat = false → s.hear mb cmd.toNat m = (u, true) →
      u.stageRefuses mb.1 cmd.toNat = none →
        Machine.exec (.unknownCommand (BitVec.ofNat 8 mb.1) cmd m) s = .next (u.refuse mb.1 cmd.toNat m.seq 0x11))

/-- On served Ethernet a management frame with a good CRC, of the operation and length it claims, wakes the host and is answered
to its port: a read of 4 to 256 bytes, a multiple of 4, with status OK and the window's bytes; a write of CQ_HEAD takes effect
and answers OK; a write elsewhere answers BAD_ADDRESS and changes nothing; another length answers BAD_LENGTH. (R376, R381, R401) -/
def Obligations.ManagementFrames : Prop :=
  ∀ (port : Fin 2) (b : List Byte) (s : State), s.serves .eth1 = true → crcOk b = true →
    (byteAt b 0 = 3 → (b.length = 12 + u16 b 4 ∨ b.length = 12) →
      (4 ≤ u16 b 4 ∧ u16 b 4 ≤ 256 ∧ u16 b 4 % 4 = 0 → Machine.exec (.managementRead port b) s = .next (s.wake.answer port
        (mgmtAnswer 3 (u16 b 2) (u16 b 4) 0 ((List.range (u16 b 4)).map (fun i => s.wake.windowByte (u16 b 2 + i)))))) ∧
      (u16 b 4 < 4 ∨ 256 < u16 b 4 ∨ u16 b 4 % 4 ≠ 0 → Machine.exec (.managementRead port b) s = .next (s.wake.answer port
        (mgmtAnswer 3 (u16 b 2) (u16 b 4) 0x12 [])))) ∧
    (byteAt b 0 = 2 → b.length = 12 + u16 b 4 → 4 ≤ u16 b 4 → u16 b 4 ≤ 256 → u16 b 4 % 4 = 0 →
      (u16 b 2 = 0x088 → u16 b 4 = 4 → Machine.exec (.managementWrite port b) s =
        .next ((s.wake.cqHead (BitVec.ofNat 16 (u16 b 8))).answer port (mgmtAnswer 2 0x088 4 0 []))) ∧
      (u16 b 2 ≠ 0x088 ∨ u16 b 4 ≠ 4 → Machine.exec (.managementWrite port b) s =
        .next (s.wake.answer port (mgmtAnswer 2 (u16 b 2) (u16 b 4) 0x13 []))))

/-! ### Receivers, tracker timers, links, calibration -/

/-- With the half working, QUALIFIED_EDGE answers the state in which dt has passed and the half has taken the edge and recomputed
the twist. An edge of a receiver that is not enabled, that EDGE_SEL does not select, that is no change of the comparator's output
(a VR lobe that has not armed above V_ARM, a HALL level that stands already) or that lies inside blanking changes nothing. Taking
an edge into the latch sets TOOTH and POL to its polarity, VALID, the edge counter, FIRST to the pending FIRST (which clears),
OVR where VALID still stood, ends HELD, and changes no other receiver and nothing else of the half. Accepted, its positive lobe
is V_PK, and V_ARM is TH_FRAC of it, not below V_REL + HYS. (R56, R57, R60, R62, R67, R68, R70, R134) -/
def Obligations.QualifiedEdgeIsLatchedAndTracked : Prop :=
  ∀ (id : HalfId) (i : Inp) (e : EdgeIn) (s : State) (h : Half),
    (s.live id = true → Machine.exec (.qualifiedEdge id i e) s =
      .next (((s.advance e.dt).onHalf id (fun h => (h.qualified i e).twist)).diagsDone)) ∧
    (let g := h.dueGates 3
     let r := g.rcvOf i
     wrxCfg0En r.cfg0 = false ∨ r.selects (seenBy r e).pol = false ∨ r.changes (seenBy r e) = false ∨ g.now < r.blankEnd →
       h.qualified i e = g) ∧
    (∀ r : Rcv, (wrxCfg0Mode r.cfg0 = false → (r.changes e = true ↔ r.varm < (e.pkPos : Rat))) ∧
      (wrxCfg0Mode r.cfg0 = true → (r.changes e = true ↔ e.pol ≠ r.tooth)) ∧
      ∀ at_, (r.accept e at_).vpk = some e.pkPos ∧
        (r.accept e at_).varm = max ((wrxCfg0ThFrac r.cfg0 : Rat) * e.pkPos / 100) (-20 + 10 * (wrxCfg0Hys r.cfg0 : Rat))) ∧
    (let r := (h.latchEdge i e).rcvOf i
     r.valid = true ∧ r.pol = e.pol ∧ r.tooth = e.pol ∧ r.ts = BitVec.ofNat 32 h.now ∧ r.held = false ∧
       r.ovr = ((h.rcvOf i).ovr || (h.rcvOf i).valid) ∧ r.first = (h.rcvOf i).firstPend ∧ r.firstPend = false ∧ r.lastAt = h.now) ∧
    (∀ j, j ≠ i → (h.latchEdge i e).rcvOf j = h.rcvOf j) ∧
    h.latchEdge i e = { h with rcv := (h.latchEdge i e).rcv }

/-- With the half working: a blanked edge of an enabled receiver that is a change of its output counts in NOISE_BLANKED, ends
HELD, moves TOOTH, and its lobe counts into the peaks of the tooth interval; where the output does not change, nothing does; a
comparator change moves TOOTH and ends HELD; at the end of its blanking window only the clock moves; V_ARM halves at the end of
its interval, not below V_REL + HYS; clearing the latch clears VALID, but not where an edge was latched in the same EVCLK period;
enabling a disabled receiver that the configuration enables sets EN, INVERT as the image gives it, TOOTH and HELD by the input
level and the pending FIRST. Of the half nothing else changes but by the hand-over to the hub. (R58, R61, R65, R66, R67, R68,
R69, R74) -/
def Obligations.ReceiverCommandsChangeTheirReceiverAlone : Prop :=
  ∀ (id : HalfId) (i : Inp) (s : State), s.live id = true →
    (∀ tooth pkPos pkNeg, wrxCfg0En ((s.half id).rcvOf i).cfg0 = true →
      (let r := (s.half id).rcvOf i
       let e := seenBy r ⟨0, r.afterEdge != wrxCfg0Invert r.cfg0, pkPos, pkNeg, 0, false⟩
       (s.half id).now < r.blankEnd →
        (r.changes e = true → Machine.exec (.edgeBlanked id ⟨i, pkPos, pkNeg⟩) s = .next (s.onHalf id (fun h =>
          { h with rcv := upd h.rcv i.ix (fun r => { r with
              noise := satInc 8 r.noise, tooth := r.afterEdge, held := false, lobeCur := (max r.lobeCur.1 e.pkPos, max r.lobeCur.2 e.pkNeg), lastQ := h.now }) }))) ∧
        (r.changes e = false → Machine.exec (.edgeBlanked id ⟨i, pkPos, pkNeg⟩) s = .next (s.onHalf id (fun h => h)))) ∧
      Machine.exec (.comparatorStateChange id i tooth) s = .next (s.onHalf id (fun h =>
        { h with rcv := upd h.rcv i.ix (fun r => { r with tooth := tooth, held := false }) })) ∧
      Machine.exec (.blankingWindowEnd id i) s =
        .next ((s.advanceTo ((s.half id).rcvOf i).blankEnd).onHalf id (fun h => h))) ∧
    (∀ x, (s.half id).decayAt i = some x → Machine.exec (.varmDecay id i) s = .next ((s.advanceTo x).onHalf id (fun h =>
      { h with rcv := upd h.rcv i.ix (fun r => { r with varm := max (r.varm / 2) (-20 + 10 * (wrxCfg0Hys r.cfg0 : Rat)) }) }))) ∧
    Machine.exec (.edgeLatchClear id i) s = .next (s.onHalf id (fun h =>
      { h with rcv := upd h.rcv i.ix (fun r => { r with valid := r.valid && r.nEdges ≠ 0 && r.lastAt = h.now }) })) ∧
    (∀ lvl, wrxCfg0En ((s.half id).rcvOf i).cfg0 = false → (s.half id).cfg.ens.contains i = true →
      Machine.exec (.receiverEnable id i lvl) s = .next (s.onHalf id (fun h => h.enable i lvl)) ∧
      (((s.half id).revOf i).failed = false →
        let h := s.half id
        let r := (h.enable i lvl).rcvOf i
        wrxCfg0En r.cfg0 = true ∧ r.tooth = decide (lvl = .above) ∧ r.held = decide (lvl = .inside) ∧ r.firstPend = true ∧
          wrxCfg0Invert r.cfg0 = h.cfg.inverts.contains i))

/-- With the half working, WIRING_CONDITION_SET measures CM and DCDIFF; where the condition's test does not hold, nothing else
follows; where it holds, the flag of the condition is set (the clipped signature under the flag its CM names), each flag newly
set raises its event, and a receiver with an open or short, or reversed under REFUSE, is FAILED, which the tracker is told where
it is new; SILENT leads on to the direction check and LIMP. WIRING_CONDITION_CLEAR measures too; an open or short whose test no
longer holds clears its flag, the clipped signature after its count of good gaps or teeth; with the last condition gone a FAILED
receiver's second starts, unless INPUT_HOLD holds it. FAILED clears one second after, and the next edge carries FIRST. Where both
halves work and reach each other over the Leat and one shows an open or short the other does not, the disagreement counts from
that instant; 100 ms on both raise class 0x06, once. (R78, R82, R83, R84, R463, R529) -/
def Obligations.WiringConditionsSetAndClear : Prop :=
  ∀ (id : HalfId) (i : Inp) (c : Cond) (cm dc : Nat) (s : State), s.live id = true →
    let h := s.half id
    let v := s.hub.boot.v
    let set (w : Wiring) : Wiring := match c with
      | .openCircuit => { w with opn := true }
      | .shortGnd => { w with shortGnd := true }
      | .shortBat => { w with shortBat := true }
      | .clipped => { w with clip := if cm < 1500 then 1 else if cm > 4000 then 2 else 3 }
      | .silent => { w with silent := true }
    let clear (w : Wiring) : Wiring := match c with
      | .openCircuit => { w with opn := false }
      | .shortGnd => { w with shortGnd := false }
      | .shortBat => { w with shortBat := false }
      | .clipped => { w with clip := 0 }
      | .silent => w
    let m : Half := { h with rcv := upd h.rcv i.ix (fun r => { r with cm := sat 8 (cm / 50), dcdiff := sat 8 (dc / 10) }) }
    let flag (f : Wiring → Wiring) : Half := { m with rcv := upd m.rcv i.ix (fun r => { r with wir := f r.wir }) }
    let up := Half.wiringEvents m i (flag set)
    let failing : Half := if up.failCond i then (if up.failed i then up.setFailed i else (up.setFailed i).onFailed i) else up
    (Machine.exec (.wiringConditionSet id i c cm dc) s = .next ((s.onHalf id (fun h => h.wiringSet i c cm dc v)).disCheck) ∧
      (m.wiringTest i c cm dc v = false → h.wiringSet i c cm dc v = m) ∧
      (m.wiringTest i c cm dc v = true → (c ≠ .silent → h.wiringSet i c cm dc v = failing) ∧
        (c = .silent → h.wiringSet i c cm dc v = failing.dirCheck.tryLimp)) ∧
      ((flag set).rcvOf i).wir = set (h.rcvOf i).wir ∧ (∀ j, j ≠ i → (flag set).rcvOf j = h.rcvOf j) ∧
      (c = .openCircuit → (h.rcvOf i).wir.opn = false → up = (flag set).raise 0x00 (locInp h.id i.ix.1)) ∧
      ((set (h.rcvOf i).wir).bad = true → up.failCond i = true) ∧
      ((up.setFailed i).revOf i).failed = true ∧ ((up.setFailed i).revOf i).clearAt = none) ∧
    (Machine.exec (.wiringConditionClear id i c cm dc) s = .next ((s.onHalf id (fun h => h.wiringClear i c cm dc v)).disCheck) ∧
      (let gone := match c with
         | .clipped => decide ((h.revOf i).okRun ≥ m.clipCount i)
         | .silent => false
         | _ => !m.wiringTest i c cm dc v
       (gone = false → h.wiringClear i c cm dc v = m) ∧
       (gone = true →
         ((flag clear).failed i && !(flag clear).failCond i && (h.revOf i).clearAt.isNone) = false →
           h.wiringClear i c cm dc v = flag clear) ∧
       (gone = true → (flag clear).failed i = true → (flag clear).failCond i = false → (h.revOf i).clearAt = none →
         h.wiringClear i c cm dc v = { flag clear with rev := upd h.rev i.ix (fun x => { x with
           clearAt := if h.inputHeld i then none else some h.now, hold := h.inputHeld i }) }))) ∧
    (∀ t, (h.revOf i).failed = true → h.failCond i = false → h.inputHeld i = false → (h.revOf i).clearAt = some t →
      Machine.exec (.receiverFailedClear id i) s = .next ((s.advanceTo (t + etPerSec)).onHalf id (fun h => h.onFailedClear i))) ∧
    ((h.onFailedClear i).failed i = false ∧ ((h.onFailedClear i).rcvOf i).firstPend = true ∧
      (h.trk.sec.inp = some i → (h.onFailedClear i).trk.secSt ≠ 3)) ∧
    (∀ t, s.hub.disAt.get i.ix = some (t, false) → Machine.exec (.receiverDisagree i) s =
      .next (((s.advanceTo (t + 100 * etPerMs)).hubMap (fun u => { u with disAt := put1 u.disAt i.ix (some (t, true)) })).onHalves
        (fun h => h.raise 0x06 (h.inLoc i)))) ∧
    (s.live .A = true → s.live .B = true → s.a.links.leat.up = true → s.b.links.leat.up = true →
      ((s.a.rcvOf i).wir.bad ≠ (s.b.rcvOf i).wir.bad → s.hub.disAt.get i.ix = none → s.disCheck.hub.disAt.get i.ix = some (s.now, false)) ∧
      ((s.a.rcvOf i).wir.bad = (s.b.rcvOf i).wir.bad → s.disCheck.hub.disAt.get i.ix = none))

/-- With the half working, each timer brings the clock to its instant and acts: a gate that closes at ratio 1.8 synthesises the
edge of its unit at the predicted instant, counts it and raises MISSING_TOOTH; the source keeps its state where the speed then
stands at 4.5 to 3300 rpm, goes to STOP below and to LOST above; the second bad tooth in a row, or one in SYNC_CHECK, leads the
source to LOST; a gate of a FAILED source that waits for its successor does not close; STOP_TIME without an edge leads to STOP,
in LIMP without a feature; the overspeed trip deasserts one second after its last edge and its counts clear; the twist unit
recomputes 16 et after the last time: each c_k is w_k times the applied twist (w_k - 1 times it where CKD is the angle source)
plus s_k less TDC_k, the last two with the direction of rotation, and LIMP takes no twist; a WHEEL_DIAG's second completes it
with the edges it has, and the noise count it returned is cleared. (R92, R97, R105, R110, R131, R134, R142, R230, R441) -/
def Obligations.TrackerTimersRunOut : Prop :=
  ∀ (id : HalfId) (s : State), s.live id = true →
    (∀ t, (s.half id).srcGated = true →
      (s.half id).gateEnd (s.half id).trk.src = some t → Machine.exec (.gateClose id .source) s =
        .next (((s.advanceTo (ceilRat t).toNat).onHalf id (fun h => h.srcGateClose.twist)).diagsDone)) ∧
    (∀ t, (s.half id).trk.sec.known = true → (s.half id).gateEnd (s.half id).trk.sec = some t →
      Machine.exec (.gateClose id .second) s =
        .next (((s.advanceTo (ceilRat t).toNat).onHalf id (fun h => h.secGateClose.twist)).diagsDone)) ∧
    (∀ h : Half, (h.srcGated = true ↔ h.trk.src.known = true ∧ h.trk.runs = true ∧
      (h.trk.swPend = false ∨ h.failed (h.trk.src.inp.getD .ckd) = false)) ∧ (h.srcGated = false → h.srcGateClose = h)) ∧
    (∀ (h : Half) (i : Inp) (d : Rat), h.srcGated = true → h.trk.src.inp = some i →
      h.predInt h.trk.src = some d → h.trk.src.cand = none →
        let n := h.nextOf h.trk.src
        let u := h.srcGateClose.trk.src
        let v : TUnit := { h.trk.src with
          pos := n.pos, mark := n.mark, lastAt := h.trk.src.lastAt + d, bad := h.trk.src.bad + 1, cand := none
          hist := pushHist h.trk.depth h.trk.src.hist ((predT h.trk.depth h.trk.src.hist).getD 0) 1 }
        (h.trk.src.bad = 0 → h.trk.st ≠ 5 →
          ((∀ r, h.rpmOf v = some r → 9 / 2 ≤ r ∧ r ≤ 3300) → h.trk.inLimp = false → u = v ∧ h.srcGateClose.trk.st = h.trk.st) ∧
          (∀ r, h.rpmOf v = some r → (r < 9 / 2 → h.srcGateClose.trk.st = 0) ∧ (3300 < r → h.srcGateClose.trk.st = 7))) ∧
        (1 ≤ h.trk.src.bad ∨ h.trk.st = 5 → h.srcGateClose.trk.st = 7)) ∧
    ((s.half id).trk.st ≠ 0 → (s.half id).trk.inLimp = false → Machine.exec (.stopTimeout id) s =
      .next ((s.advanceTo ((s.half id).trk.crankAt + (s.half id).trk.stopTime)).onHalf id (fun h => (h.loseSync 0).twist))) ∧
    (∀ x l, (s.half id).trk.st ≠ 0 → (s.half id).trk.inLimp = true → (s.half id).trk.phase.edges = x :: l →
      Machine.exec (.stopTimeout id) s = .next ((s.advanceTo (x.1 + 2 ^ 32)).onHalf id (fun h => (h.loseSync 0).twist))) ∧
    (∀ t, (s.half id).fg.osTrip = true → (s.half id).fg.osLast = some t → Machine.exec (.overspeedTripTimeout id) s =
      .next ((s.advanceTo (t + etPerSec)).onHalf id (fun h =>
        { h with fg := { h.fg with osTrip := false, osShort := 0, osLong := 0, osLast := none } }))) ∧
    Machine.exec (.twistRecompute id) s = .next ((s.advanceTo ((s.half id).tws.lastRec + 16)).onHalf id Half.twist) ∧
    (∀ (h : Half) (c : TwsCyl), h.trk.dir.read = false →
      (h.tws.mode ≠ 4 → h.srcIsF = true → h.corrOf c = roundFreeQ 7 (twsWW c.w / 16384 * h.tws.tauA) + c.s.toInt - c.tdc.toNat) ∧
      (h.tws.mode ≠ 4 → h.srcIsF = false → h.corrOf c = roundFreeQ 7 ((twsWW c.w / 16384 - 1) * h.tws.tauA) + c.s.toInt - c.tdc.toNat) ∧
      (h.tws.mode = 4 → h.corrOf c = roundFreeQ 7 0 + c.s.toInt - c.tdc.toNat)) ∧
    (∀ d, s.hub.cal.diags.find? (fun d => d.h = id) = some d →
      Machine.exec (.wheelDiagTimeout id) s = .next ((s.advanceTo d.till).diagsDone)) ∧
    (∀ d, s.hub.cal.diags = [d] → d.till ≤ s.now →
      (let t := (s.calMap (fun c => { c with diags := [] })).finish 4 d.req.1 0 ((s.calMap (fun c => { c with diags := [] })).diagBytes d)
       s.diagsDone = t.setHalf { t.half d.h with rcv := upd (t.half d.h).rcv d.inp.ix (fun r => { r with noise := 0 }) } d.h))

/-- loseSync puts the half's sync state to the one named, ends the angle source and forgets fired slots, whatever the half did
before; it leaves the half's identity, configuration, profiles, links and floodgate alone; where no angle was presented that
allowed events and the state is not LOST it hands the hub nothing and leaves every slot as it was. (R105, R111, R185) -/
def Obligations.LossOfSyncStopsTheTracker : Prop :=
  ∀ (dst : Nat) (h : Half), (dst = 0 ∨ dst = 1 ∨ dst = 7) →
    (h.loseSync dst).trk.st = dst ∧ (h.loseSync dst).trk.src = { TUnit.seek none with pos := h.trk.src.pos, bad := h.trk.src.bad } ∧ (h.loseSync dst).trk.swPend = false ∧
      (h.loseSync dst).fired = [] ∧ (h.loseSync dst).id = h.id ∧ (h.loseSync dst).cfg = h.cfg ∧
      (h.loseSync dst).links = h.links ∧ (h.loseSync dst).fg = h.fg ∧
      (dst ≠ 7 → h.trk.fires = false → (h.loseSync dst).out = h.out ∧ (h.loseSync dst).slots = h.slots)

/-- Each frame a half sends a heartbeat with the sync state, validity, angle, speed and direction of its snapshot and the counts
of the cylinders committed in the frame, with the next alive counter. With the half working, HEARTBEAT_RECEIVE on a link that
works: a valid heartbeat (CRC holds, alive counter not repeated) becomes the last one, ends the count of missed ones, counts as
good, and its contents stand for agreement; an invalid one sets the count of good ones to 0 and changes nothing else of the half.
On a link that is down, sixteen valid ones in a row restore it. The check units hold the Leat to the rules of host frames on a
counter of their own: the next or next but one is followed, the latter raising FRAME_LOST; a stale one counts a check failure and
moves nothing; a jump counts one and is followed. (R27, R28, R29, R383, R384) -/
def Obligations.HeartbeatsKeepOrRestoreALink : Prop :=
  ∀ (id : HalfId) (hb : Heartbeat) (s : State), s.live id = true →
    (let l := (s.half id).links.hub
     s.hubLinks = true →
     (l.valid hb = false → Machine.exec (.heartbeatReceive id .hub hb) s =
        .next (s.setHalf { s.half id with links := { (s.half id).links with hub := { l with good := 0 } } } id)) ∧
     (l.valid hb = true → l.up = true → ∃ t, Machine.exec (.heartbeatReceive id .hub hb) s = .next t ∧
        (t.half id).links = { (s.half id).links with
          hub := { l with alive := some hb.alive, got := true, missed := 0, good := l.good + 1 }, other := some hb })) ∧
    (let l := (s.half id).links.leat
     (l.valid hb = true → l.up = true → ∃ t, Machine.exec (.heartbeatReceive id .leat hb) s = .next t ∧
        (t.half id).links = { (s.half id).links with
          leat := { l with alive := some hb.alive, got := true, missed := 0, good := l.good + 1 }, other := some hb })) ∧
    (∀ l : LinkSt, l.valid hb = true → l.up = false → ((l.hear hb).up = true ↔ 15 ≤ l.good)) ∧
    (∀ h : Half, h.sendHeartbeat = { h with links := { h.links with
      tx := some ⟨true, h.links.hbOut, h.frame, h.snap.st, h.snap.valid, h.snap.angle, h.snap.speed, h.snap.astern, h.countsNow⟩,
      hbOut := h.links.hbOut + 1 } }) ∧
    (s.hubOn = true → hb.crcOk = true →
      let set : State := s.hubMap (fun u => { u with leat := put1 u.leat id.toward (some hb.alive) })
      (s.hub.leat.get id.toward = none → s.leatCheck id hb = set) ∧
      (∀ a, s.hub.leat.get id.toward = some a →
        ((hb.alive - a).toNat = 1 → s.leatCheck id hb = set) ∧
        ((hb.alive - a).toNat = 2 → s.leatCheck id hb = set.raiseHub 0x61 locHub) ∧
        ((hb.alive - a).toNat = 0 ∨ 32768 ≤ (hb.alive - a).toNat → s.leatCheck id hb = s.checkFail none) ∧
        (3 ≤ (hb.alive - a).toNat ∧ (hb.alive - a).toNat < 32768 → s.leatCheck id hb = set.checkFail none)))

/-- With the hub working: an alignment that has travelled its revolutions ends; its delta within one degree is kept under the
next RESULT_ID and answered OK, beyond it is answered CAL_REJECTED and not kept, the RESULT_ID is used up. A weight and offset
calibration ends when each named cylinder has 64 samples, or at TIMEOUT: its request completes with RESULT_ID, the number of
cylinders and the fit of each, OK or, where a fit is rejected, CAL_REJECTED; the result is kept under that RESULT_ID and no cut
stands. Before either the command changes nothing. (R148, R149, R150, R443) -/
def Obligations.CalibrationsEnd : Prop :=
  ∀ s : State, s.hubOn = true →
    (∀ r, s.hub.cal.align = some r → alignSpan ≤ r.trav →
      let d := (r.result (s.half s.primary)).1
      let m := (r.result (s.half s.primary)).2
      let pay := leI 4 d ++ leI 4 m ++ le 4 s.hub.cal.next
      (d.natAbs ≤ 65536 → Machine.exec .calAlignResult s = .next ((s.calMap (fun c =>
        { c with align := none, res := (⟨c.next, some (d, m, false), []⟩ :: c.res).take 4, next := c.next + 1 })).finish 4 r.req.1 0 pay)) ∧
      (65536 < d.natAbs → Machine.exec .calAlignResult s = .next ((s.calMap (fun c =>
        { c with align := none, next := c.next + 1 })).finish 4 r.req.1 0x140 pay))) ∧
    (∀ t, s.hub.cal.twist = some t →
      let ending (s : State) : State :=
        let fits := t.cyls.map (fun c => twistFit c (s.weightOf c).1 (s.weightOf c).2 (t.of c))
        ((s.calMap (fun c => { c with twist := none, res := (⟨c.next, none, fits⟩ :: c.res).take 4, next := c.next + 1 })).uncut).finish
          4 t.req.1 (if fits.any (·.rej) then 0x140 else 0) (le 4 s.hub.cal.next ++ le 1 fits.length ++ zeros 3 ++ fits.flatMap TwistFit.bytes)
      (t.cyls.all (fun c => 64 ≤ (t.of c).length) = true → Machine.exec .calTwistResult s = .next (ending s)) ∧
      (t.cyls.all (fun c => 64 ≤ (t.of c).length) = false → Machine.exec .calTwistResult s = .next s) ∧
      Machine.exec .calTwistTimeout s = .next (ending (s.advanceTo t.until_))) ∧
    (∀ r, s.hub.cal.align = some r → r.trav < alignSpan → Machine.exec .calAlignResult s = .next s)

/-! ### Slots, drives, pins, floodgate inputs -/

/-- With the half working: HOPPER_LOAD leaves a slot that is not FROZEN, or lies outside the lookahead, as it is; a FROZEN one
inside it, first in its bank's order and not late, becomes LOADED where its bank has a free entry, counting into HIWAT alone;
with all 16 in use it waits, counted in WAITED, and raises HOPPER_WAIT. A LOADED slot whose angle will be reached becomes DUE
then, its OFFSET counting from there; a DUE slot's action takes effect when its OFFSET has run out, first among the edges of its
et on its channel: a SET holds the output and is DONE, a PULSE is ACTIVE for its WIDTH, with EDGE_TS there, or 0 and GATED while
the kill latch holds the pin; a DRIVE due while one of its pair is ACTIVE is DONE with SKIP_OVERLAP; an ACTIVE slot ends when its
WIDTH has run out: a PULSE lets the output go and is DONE. (R159, R160, R161, R167, R168, R170, R172, R187) -/
def Obligations.SlotsMoveThroughTheirStates : Prop :=
  ∀ (id : HalfId) (k : Fin 1024) (s : State) (h : Half), s.live id = true →
    (let x := (s.half id).slots.get k
     Machine.exec (.hopperLoad id k) s = .next (s.onHalf id (fun h => h.hopperLoad k)) ∧
     (∀ n, x.st = 3 → (s.half id).trk.fires = true → (s.half id).etToAngle x = some n →
       Machine.exec (.slotDue id k) s = .next ((s.advanceTo ((s.half id).now + n)).onHalf id (fun h => h.slotDue k))) ∧
     (x.st = 4 → Machine.exec (.slotOffsetExpire id k) s = .next ((s.advanceTo x.edgeAt).onHalf id (fun h => h.offsetExpire k))) ∧
     (x.st = 5 → Machine.exec (.slotWidthExpire id k) s = .next ((s.advanceTo x.endAt).onHalf id (fun h => h.widthExpire k)))) ∧
    (let x := h.slots.get k
     let b := x.c.chan.1 / 12
     let plain : Prop := x.deferred = none ∧ x.c.oneshot = false ∧ x.owed = false ∧ x.freeSeq = [] ∧ x.spoil = false
     (x.st ≠ 2 ∨ h.lookahead < h.remaining x → h.hopperLoad k = h) ∧
     (x.st = 2 → h.remaining x ≤ h.lookahead → h.trk.fires = true →
       (h.occ b < 16 → h.firstWaiting k = true → x.cause = 0#16 → x.waits = false →
         h.hopperLoad k = { h with slots := upd h.slots k (fun x => { x with st := 3, waits := false }), banks := (h.hopperLoad k).banks } ∧
         ∀ c : Fin 4, (c.1 = b → (h.hopperLoad k).banks.get c =
             { h.banks.get c with hiwat := max (h.banks.get c).hiwat ((h.hopperLoad k).occ b) }) ∧
           (c.1 ≠ b → (h.hopperLoad k).banks.get c = h.banks.get c)) ∧
       (16 ≤ h.occ b → x.waits = false → h.hopperLoad k = ((h.slotMap k (fun x => { x with waits := true, ahead := decide (0 < h.remaining x) })).bankMap b
         (fun x => { x with waited := satInc 10 x.waited })).raise 0x1D (locSlot h.id x.c.chan.1 k.1))) ∧
     (x.st = 3 → h.trk.fires = true → h.trk.inLimp = false → h.remaining x ≤ 0 →
       ((h.slotDue k).slots.get k).st = 4 ∧ ((h.slotDue k).slots.get k).edgeAt = h.now + x.c.offset ∧
         ∀ j, j ≠ k → (h.slotDue k).slots.get j = h.slots.get j) ∧
     (x.st = 4 → h.before k = [] →
       (x.c.action = 1 → plain →
         ((h.offsetExpire k).chans.get x.c.chan).setBy = some (k, x.c.cyl, x.cyc) ∧ ((h.offsetExpire k).slots.get k).st = 7 ∧
           ((h.offsetExpire k).slots.get k).outcome = x.outcome) ∧
       (x.c.action = 3 → let y := (h.offsetExpire k).slots.get k
         y.st = 5 ∧ y.endAt = h.now + x.width ∧ k ∈ ((h.offsetExpire k).chans.get x.c.chan).pulses ∧
           (h.fg.latch = false → y.edgeTs = h.ts ∧ y.tags = x.tags) ∧
           (h.fg.latch = true → y.edgeTs = 0#32 ∧ y.tags = x.tags ||| tagBit 8)) ∧
       (x.c.action = 4 → (h.activeDrive (pairOf x.c.chan)).isSome = true → plain →
         ((h.offsetExpire k).slots.get k).st = 7 ∧ ((h.offsetExpire k).slots.get k).outcome = 8 ∧ (h.offsetExpire k).pairs = h.pairs)) ∧
     (x.st ≠ 4 → h.offsetExpire k = h) ∧
     (x.st = 5 → x.c.action = 3 → plain → ((h.widthExpire k).slots.get k).st = 7 ∧ ((h.widthExpire k).slots.get k).outcome = x.outcome ∧
       k ∉ ((h.widthExpire k).chans.get x.c.chan).pulses) ∧
     (x.st ≠ 5 → h.widthExpire k = h))

/-- With the half working: the source gap and the gap before BOOST end 40 et after they began; blanking ends BLANK after entry;
T_LIM counts from entry; the comparators' changes act after dt; a latched crossing counts only after blanking, and at its end the
comparators count as they then stand; the maximum comparator is blanked 16 et after a pin change; current above I_STUCK while
IDLE with STUCK_EN raises DRV_STUCK_ON and LAST_FAULT 4. At the end of the source gap HS rises; the gap before BOOST ends with
both pins high and BOOST entered then. (R209, R211, R212, R214, R215, R216) -/
def Obligations.DriveSequencerEvents : Prop :=
  ∀ (id : HalfId) (p : Fin 24) (dt : Nat) (hi lo : Bool) (s : State), s.live id = true →
    let h := s.half id
    let x := h.pairs.get p
    (x.srcGap = true → Machine.exec (.drvSourceGapEnd id p) s = .next ((s.advanceTo (x.gapAt + 40)).onHalf id (Half.sourceGapEnd p))) ∧
    (x.srcGap = true → 1 ≤ x.phase → x.phase ≤ 3 → ((h.sourceGapEnd p).pairs.get p).srcGap = false ∧ ((h.sourceGapEnd p).pairs.get p).hs = true) ∧
    (x.bstGap = true → Machine.exec (.drvBoostGapEnd id p) s =
      .next ((s.advanceTo (x.entry + 40)).onHalf id (fun h => if (h.pairs.get p).bstGap then h.boostRise p else h))) ∧
    (x.phase = 0 → ((h.boostRise p).pairs.get p).bstGap = false ∧ ((h.boostRise p).pairs.get p).hs = true ∧
      ((h.boostRise p).pairs.get p).lsOut = true ∧ ((h.boostRise p).pairs.get p).entry = h.now) ∧
    (x.blank = true → x.bstGap = false → Machine.exec (.drvBlankEnd id ⟨p, hi, lo⟩) s =
      .next ((s.advanceTo (x.entry + h.blankEt p)).onHalf id (fun h =>
        Half.comparators p hi lo { h with pairs := upd h.pairs p (fun x => { x with blank := false }) }))) ∧
    Machine.exec (.drvHiLatch id p dt) s = .next ((s.advance dt).onHalf id (Half.comparators p true true)) ∧
    Machine.exec (.drvLoLatch id p dt) s = .next ((s.advance dt).onHalf id (Half.comparators p false false)) ∧
    Machine.exec (.drvChop id p hi lo) s = .next (s.onHalf id (Half.comparators p hi lo)) ∧
    (x.phase ≠ 7 → x.bstGap = false → Machine.exec (.drvPhaseTimeout id p lo) s =
      .next ((s.advanceTo (x.entry + h.limEt p)).onHalf id (Half.phaseTimeout p lo))) ∧
    Machine.exec (.drvOvercurrent id p) s = .next (s.onHalf id (Half.overcurrent p)) ∧
    (x.phase = 7 → drvPairStuckEn x.pair = true → Machine.exec (.drvStuckOn id p) s =
      .next (s.onHalf id (fun h => ({ h with pairs := upd h.pairs p (fun x => { x with fault := 4 }) } : Half).raise 0x27
        (locChan h.id (2 * p.1)))))

/-- For a pair of any half: in BOOST, and in PEAK with EXIT 1, the upper crossing leads to the next phase in order that is not
skipped; in FREEWHEEL with EXIT 2 the lower crossing leads to FAST_DISCH; in FAST_DISCH the lower crossing leads to IDLE, and so
does T_LIM, with LAST_FAULT 3; BOOST that reaches T_LIM at or below I_LO goes to FAST_DISCH with LAST_FAULT 1; HOLD2 that reaches
T_LIM goes to FREEWHEEL, or to FAST_DISCH where FREEWHEEL is skipped, with LAST_FAULT 3; overcurrent in any phase but FAST_DISCH
and IDLE, 16 et after a pin change, goes to FAST_DISCH with LAST_FAULT 2; where a phase chops, LS falls when the upper comparator
asserts and rises when the lower one does not, each level held for CHOP_MIN, and not in a source gap; in a blanked phase a
comparator moves the live levels alone. The other pairs keep their state. (R209, R211, R214, R215, R537) -/
def Obligations.DrivePhasesFollowTheTable : Prop :=
  ∀ (p : Fin 24) (h : Half),
    let x := h.pairs.get p
    let ph (t : Half) : Nat := (t.pairs.get p).phase
    let lf (t : Half) : Nat := (t.pairs.get p).fault
    let w := phWordB (h.pairProf p) x.phase
    (x.blank = false → x.bstGap = false → x.hiLat = false → x.phase = 0 ∨ (x.phase = 1 ∧ h.exitOf p = 1) →
      ph (h.comparators p true true) = nextPhase (h.pairProf p) x.phase) ∧
    (x.phase = 4 → h.exitOf p = 2 → x.blank = false → x.bstGap = false → x.loLat = false → ph (h.comparators p false false) = 5) ∧
    (x.phase = 5 → x.blank = false → x.bstGap = false → x.loLat = false → ph (h.comparators p false false) = 7) ∧
    (x.phase = 5 → ∀ b, ph (h.phaseTimeout p b) = 7 ∧ lf (h.phaseTimeout p b) = 3) ∧
    (x.phase = 0 → ph (h.phaseTimeout p false) = 5 ∧ lf (h.phaseTimeout p false) = 1) ∧
    (x.phase = 3 → ∀ b, ph (h.phaseTimeout p b) = (if phBTLim (phWordB (h.pairProf p) 4) = 0 then 5 else 4) ∧ lf (h.phaseTimeout p b) = 3) ∧
    (x.phase ≠ 5 → x.phase ≠ 7 → x.pinAt + 16 ≤ h.now → ph (h.overcurrent p) = 5 ∧ lf (h.overcurrent p) = 2) ∧
    (2 ≤ x.phase → x.phase ≤ 3 → x.blank = false → x.bstGap = false → x.srcGap = false → phBChop w = true →
      x.lsAt + phBChopMin w * 20 ≤ h.now →
      (x.ls = true → ∀ b, (((h.comparators p true b).pairs.get p).ls = false ∧ ((h.comparators p true b).pairs.get p).lsAt = h.now)) ∧
      (x.ls = false → (((h.comparators p false false).pairs.get p).ls = true ∧ ((h.comparators p false false).pairs.get p).lsAt = h.now))) ∧
    (2 ≤ x.phase → x.phase ≤ 3 → x.srcGap = true → ∀ a b, ((h.comparators p a b).pairs.get p).ls = x.ls) ∧
    (x.blank = true → ∀ a b, h.comparators p a b =
      { h with pairs := upd h.pairs p (fun x => { x with hiLive := a, loLive := b }) }) ∧
    (∀ q, q ≠ p → ∀ b, (h.phaseTimeout p b).pairs.get q = h.pairs.get q ∧ (h.overcurrent p).pairs.get q = h.pairs.get q)

/-- A half whose latch is set anew holds it with that cause and CHECKED cleared; every drive sequencer is IDLE, every pin stands
at its safe level, and slots, configuration and tracker are as they were. A latch already set changes nothing. While the latch is
set a DRIVE starts no profile. (R205, R227, R228, R236) -/
def Obligations.KillLatchForcesSafeStates : Prop :=
  ∀ (cause : Nat) (h : Half),
    (h.fg.latch = false →
      let t := h.setLatch cause
      t.fg.latch = true ∧ t.fg.cause = cause ∧ t.fg.checked = false ∧ (∀ p : Fin 24, (t.pairs.get p).phase = 7) ∧
        (∀ m : Fin 48, (t.chans.get m).level = (t.chans.get m).safeLevel ∧ (t.chans.get m).out = (h.chans.get m).out) ∧
        t.slots = h.slots ∧ t.cfg = h.cfg ∧ t.trk = h.trk) ∧
    (h.fg.latch = true → h.setLatch cause = h ∧
      ∀ (p : Fin 24) (prof : Nat) (k : Fin 1024), h.drvStart p prof k = { h with pairs := upd h.pairs p (fun x => { x with slot := some k }) })

/-- Whatever the state, after a source of cause 0 to 4 asserts both halves hold their latch; if the floodgate was in RUN it is
TRIPPED and the trip count is one higher; from CHECKED an input or an overspeed trip counts a trip too. FGA or FGB going low,
after dt, is such a source with cause 1 or 2. (R226, R235, R538) -/
def Obligations.KillNetSetsEveryLatch : Prop :=
  (∀ (cause : Nat) (s : State), cause ≤ 4 →
    let t := s.kill cause
    t.a.fg.latch = true ∧ t.b.fg.latch = true ∧
      (s.hub.fg.st = 2 → t.hub.fg.st = 0 ∧ t.hub.fg.trips = s.hub.fg.trips + 1) ∧
      (s.hub.fg.st = 1 → t.hub.fg.trips = s.hub.fg.trips + (if cause = 0 then 0 else 1))) ∧
  ∀ (w : FgIn) (dt : Nat) (s : State),
    let u := s.advance dt
    Machine.exec (.floodgateInputLow w dt) s =
      .next (((u.fgMap (FgHub.input w false u.now)).kill (match w with | .fga => 1 | .fgb => 2)).flush) ∧
    (u.hub.fg.input w false u.now).level w = false ∧ (u.hub.fg.input w false u.now).hiAt = none

/-- FGA or FGB going high, after dt, changes the inputs alone and starts FG_SETTLE where both are high; inputs that have differed
for more than 100 ms raise FG_DISAGREE in a half; a short to a high, to a low, or a mismatch at a working half's pin whose flag
is clear sets that flag, a short also its current limit, and raises its event; a flag set already raises none, and a driver that
is off shows no short and no limit; LIMIT follows the driver and RB the readback comparator; nothing else changes. (R203, R205,
R206, R207, R222, R225, R229, R232, R237) -/
def Obligations.FloodgateInputsAndPins : Prop :=
  ∀ (w : FgIn) (dt : Nat) (id : HalfId) (m : Fin 48) (s : State),
    (let u := s.advance dt
     Machine.exec (.floodgateInputHigh w dt) s = .next { u with hub := { u.hub with fg := u.hub.fg.input w true u.now } } ∧
     (u.hub.fg.input w true u.now).level w = true ∧
     (u.hub.fg.fga = true → w = .fgb → u.hub.fg.hiAt = none → (u.hub.fg.input w true u.now).hiAt = some u.now)) ∧
    (s.live id = true →
      let h := s.half id
      let c := h.chans.get m
      let short (k : Chan → Chan) : Half := ({ h with chans := upd h.chans m k } : Half).raise 0x21 (locChan h.id m.1)
      (∀ t, s.hub.fg.diffAt = some t → Machine.exec (.fgDisagree id) s =
        .next ((s.advanceTo (t + 100 * etPerMs + 1)).onHalf id (fun h => h.raise 0x29 (locInp h.id 7)))) ∧
      (∀ f, Machine.exec (.outPinFlag id m f) s = .next (s.onHalf id (Half.pinFlag m f))) ∧
      (h.driverOff m = false →
        (c.shortHi = false → h.pinLevel m = false → h.pinFlag m .shortHi = short (fun c => { c with shortHi := true, limit := true })) ∧
        (c.shortLo = false → h.pinLevel m = true → h.pinFlag m .shortLo = short (fun c => { c with shortLo := true, limit := true })) ∧
        (∀ on, h.pinFlag m (.limit on) = { h with chans := upd h.chans m (fun c => { c with limit := on }) })) ∧
      (h.driverOff m = true → h.pinFlag m .shortHi = h ∧ h.pinFlag m .shortLo = h ∧
        ∀ on, h.pinFlag m (.limit on) = { h with chans := upd h.chans m (fun c => { c with limit := false }) }) ∧
      (c.shortHi = true → h.pinFlag m .shortHi = h) ∧ (c.shortLo = true → h.pinFlag m .shortLo = h) ∧
      (c.mismatch = false → h.pinFlag m .mismatch =
        ({ h with chans := upd h.chans m (fun c => { c with mismatch := true, rb := !h.pinLevel m }) } : Half).raise 0x22 (locChan h.id m.1)) ∧
      (c.mismatch = true → h.pinFlag m .mismatch =
        { h with chans := upd h.chans m (fun c => { c with mismatch := true, rb := !h.pinLevel m }) }) ∧
      ∀ v, h.pinFlag m (.readback v) = { h with chans := upd h.chans m (fun c => { c with rb := v }) })

/-! ### Weir, acquisition, references, calibration steps -/

/-- For a level source, the module clocked: an assertion outside ARMED only notes the line; in ARMED, with its source enabled and
room in its queue, it writes a LEVEL record and is RECORDED; with its source disabled it only notes the line, with no room no
queue takes a record, the loss counts in the queue without room, and it stays ARMED; a deassertion notes the line and returns
SUPPRESSED to ARMED; a query of a RECORDED source notes whether the line still stands, counting and raising TRANSIENT where it
does not, in the hub, or in a half without a hub path; an acknowledge leads to SUPPRESSED while the line stands, else to ARMED. A
power-stage fault input of a working half is the assertion of its source. A hub source's write appends the record of kind 0 with
the hub's FRAME and edge counter to its queue, where the source is enabled; a half's source hands its record with the half's
FRAME over, the half working. Nothing else of the module's hub changes by a hub source. (R208, R406, R407, R408, R410, R411,
R412) -/
def Obligations.WeirSourcesAndTheDoorbell : Prop :=
  (∀ (src : Fin 4096) (s : State), s.clocked = true → s.isLevel src.1 = true →
    let l := s.hub.weir.level src.1
    let up := s.weirMap (WeirSt.setLevel { l with live := true })
    (l.st ≠ 0 → Machine.exec (.levelAssert src) s = .next up) ∧
    (l.st = 0 → (s.hub.weir.srcOf src.1).1 = true → up.hasRoom src.1 = true → Machine.exec (.levelAssert src) s =
      .next ((up.levelRecord src.1).weirMap (WeirSt.setLevel { l with live := true, st := 1, asked := false }))) ∧
    (l.st = 0 → (s.hub.weir.srcOf src.1).1 = false → Machine.exec (.levelAssert src) s = .next up) ∧
    (l.st = 0 → (s.hub.weir.srcOf src.1).1 = true → up.hasRoom src.1 = false → Machine.exec (.levelAssert src) s =
      .next (up.levelLost src.1)) ∧
    (∀ id o, srcHalf src.1 = some (id, o) → ∀ q : Fin 4, (s.hub.weir.srcOf src.1).2 = q.1 →
      (s.hubRoom src.1 = false → s.ownRoom src.1 = true → s.levelLost src.1 = { s with hub := s.hub.overflow s.ts q }) ∧
      (s.hubRoom src.1 = true → s.ownRoom src.1 = false → s.levelLost src.1 = s.onHalf id (fun h => h.evOverflow src.1))) ∧
    Machine.exec (.levelDeassert src) s =
      .next (s.weirMap (WeirSt.setLevel { l with live := false, st := if l.st = 2 then 0 else l.st })) ∧
    (l.st = 1 → l.asked = false →
      (l.live = true → Machine.exec (.weirStatusQuery src) s = .next (s.weirMap (WeirSt.setLevel { l with asked := true }))) ∧
      (l.live = false → Machine.exec (.weirStatusQuery src) s =
        .next ((s.weirMap (WeirSt.setLevel { l with asked := true, trans := l.trans + 1 })).transient src.1))) ∧
    (∀ id o, srcHalf src.1 = some (id, o) →
      (s.reach id = true ∨ s.live id = false → s.transient src.1 = s.raiseHub 0x69 locHub) ∧
      (s.reach id = false → s.live id = true → s.transient src.1 = s.onHalf id (fun h => h.raise 0x69 (locInp h.id 7)))) ∧
    (l.st = 1 → Machine.exec (.weirAcknowledge src) s =
      .next (s.weirMap (WeirSt.setLevel { l with st := if l.live then 2 else 0 }))) ∧
    (∀ (id : HalfId) (b : Fin 4), s.live id = true → src.1 = id.weirBase + b.1 →
      Machine.exec (.psfAssert id b) s = Machine.exec (.levelAssert src) s)) ∧
  (∀ (src : Fin 4096) (payload : Word) (s : State),
    (srcHalf src.1 = none → s.clocked = true → Machine.exec (.weirDoorbell src payload) s =
      .next { s with hub := s.hub.weirWrite s.ts src.1 0 false false s.hub.frame s.ts payload }) ∧
    (srcHalf src.1 = none → ∀ q : Fin 4, s.hub.weir.srcOf src.1 = (true, q.1) →
      s.hub.weirWrite s.ts src.1 0 false false s.hub.frame s.ts payload =
        s.hub.append s.ts q ⟨src.1, q.1, 0, false, false, false, s.hub.frame, s.ts, payload, false⟩) ∧
    (∀ id o, srcHalf src.1 = some (id, o) → s.live id = true → Machine.exec (.weirDoorbell src payload) s =
      .next (s.onHalf id (fun h => { h with out := h.out ++ [.weir src.1 0 false h.frame payload] }))))

/-- With the half working, each event of acquisition comes at its instant and acts: the angle clock's next multiple of STEP is
noted and triggers the lines of SRC ACLK with the point; a timer's expiry starts its next period and triggers its lines; a
trigger of a line that may trigger, with fewer than four whose DELAY runs, is pending for DELAY and the 30 ns of the path, and
leaves the other lines alone; the end of the DELAY that ends first on a line requests each sequencer of TARGET, and an idle one
without a waiting MASK takes it, holding on the next CONVCLK edge; the end of a running sequence frees the sequencer, or the
request it holds is taken; the completion of the oldest record not yet written puts it into the ring with HOLD_TS, WIDX one on. A
crossing of an enabled comparator moves its live level and, on the configured edges, its timestamp, polarity and count. A MASK
waiting takes effect where its sequencer is idle and completes its request. With the half working and a result of the stage in
the lane, RESULTS_COMPLETE files it: the IMEP stage, or the combustion stage with the cycle flags; the result leaves the lane.
With none, a window that waits for a valid neighbour closes without it, and a result of the stage that this gives is filed; a
lane with no sample stays as it is. (R268, R278, R279, R280, R285, R289, R290, R297, R322, R323, R325) -/
def Obligations.TriggersBecomeRecordsAndResults : Prop :=
  (∀ (id : HalfId) (s : State) (h : Half), s.live id = true →
    (∀ x, (s.half id).aclkNext = some x → Machine.exec (.angleClockTrigger id) s = .next ((s.advanceTo x).onHalf id Half.aclkFire)) ∧
    (let m := aclkMult h.acq.aclk h.cyc
     aclkCfgEn h.acq.aclk = true → h.trk.fires = true → h.acq.aclkAt ≠ some m → h.aclkFire =
       ({ h with acq := { h.acq with aclkAt := some m } } : Half).triggerSrc 1 none false
         (some (m * (aclkStep20 h.acq.aclk : Nat), (h.tws.cyl.map (·.c)).toList))) ∧
    (∀ n, acqTmrEn ((s.half id).acq.tmr.get n) = true → Machine.exec (.acqTimerExpire id n) s =
      .next ((s.advanceTo ((s.half id).acq.tmrAt.get n)).onHalf id (Half.timerExpire n))) ∧
    (∀ n, acqTmrEn (h.acq.tmr.get n) = true → acqTmrPeriod (h.acq.tmr.get n) ≠ 0 → h.acq.tmrAt.get n ≤ h.now → h.timerExpire n =
      ({ h with acq := { h.acq with tmrAt := put1 h.acq.tmrAt n (h.acq.tmrAt.get n + acqTmrPeriod (h.acq.tmr.get n)) } } : Half).triggerSrc
        2 (some n.1) false none) ∧
    (∀ t step pt, h.lineOn t = true → (h.acq.lines.get t).running h.now < 4 →
      h.trigger t step pt = { h with acq := { h.acq with lines := upd h.acq.lines t (fun l => { l with
        stage := l.stage ++ [⟨h.now, h.now + trgCfg1Delay l.cfg1 + 24, step, pt⟩] }) } }) ∧
    (∀ t d, firstDue ((s.half id).acq.lines.get t).stage = some d → Machine.exec (.triggerDelayExpire id t) s =
      .next ((s.advanceTo d.req).onHalf id (Half.delayEnds t))) ∧
    (∀ l : List DelayT, l ≠ [] → ∃ d, firstDue l = some d ∧ d ∈ l ∧ ∀ x ∈ l, d.req ≤ x.req) ∧
    (∀ t d, firstDue (h.acq.lines.get t).stage = some d → d.req ≤ h.now →
      let l := h.acq.lines.get t
      h.delayEnds t = eachOf (targets (trgCfg0Target l.cfg0)) (fun q => Half.request q ⟨t.1, trgCfg0Src l.cfg0, d.req, d.step, d.pt⟩)
        { h with acq := { h.acq with lines := upd h.acq.lines t (fun l => { l with stage := l.stage.erase d }) } }) ∧
    (∀ q rq, (h.acq.seqs.get q).run = none → (h.acq.seqs.get q).mask = none →
      ∃ r, h.request q rq = { h with acq := { h.acq with seqs := upd h.acq.seqs q (fun x => { x with
          run := some r, toWrite := x.toWrite ++ [r] }) } } ∧ r.req = rq ∧ r.hold = convEdge rq.at_ ∧
        r.poss = maskPos q.1 (seqCfgMask (h.acq.seqs.get q).cfg) ∧ r.endAt = r.hold + seqTime q.1 r.poss.length ∧ r.late = false) ∧
    (∀ q r, ((s.half id).acq.seqs.get q).run = some r → Machine.exec (.sequenceEnd id q) s =
      .next ((s.advanceTo r.endAt).onHalf id (Half.seqEnd q))) ∧
    (∀ q r, (h.acq.seqs.get q).run = some r → r.endAt ≤ h.now →
      let free : Half := { h with acq := { h.acq with seqs := upd h.acq.seqs q (fun x => { x with run := none, held := [] }) } }
      ((h.acq.seqs.get q).held = [] → h.seqEnd q = free) ∧
      (∀ rq, (h.acq.seqs.get q).held = [rq] → h.seqEnd q = free.takeReq q rq (max r.endAt rq.at_) (decide (convEdge rq.at_ < r.endAt)))) ∧
    (∀ q r rest (v : ConvIn), ((s.half id).acq.seqs.get q).toWrite = r :: rest → Machine.exec (.conversionRecordWrite id q v) s =
      .next (((((s.advanceTo (r.doneAt q.1)).onHalf id (Half.writeRecord q v.volts v.vss)).costs id .A).costs id .B).flush)) ∧
    (∀ q r rest (v : ConvIn), (h.acq.seqs.get q).toWrite = r :: rest → r.doneAt q.1 ≤ h.now → r.req.pt = none →
      let a := (h.writeRecord q v.volts v.vss).acq
      (∃ rc, a.ring = (rc :: h.acq.ring).take 1024 ∧ rc.ts = BitVec.ofNat 32 r.hold) ∧ a.widx = (h.acq.widx + 1) % 1024 ∧
        (a.seqs.get q).toWrite = rest) ∧
    (∀ g rising dt, let s1 := (s.advance dt).onHalf id (Half.crossing g rising)
      Machine.exec (.crossing id g rising dt) s =
        .next (if s1.live id && xcCfgEn ((s1.half id).acq.xc.get g).cfg then s1.probe id g rising else s1)) ∧
    (∀ g rising, let x := h.acq.xc.get g
      (xcCfgEn x.cfg = false → h.crossing g rising = h) ∧
      (xcCfgEn x.cfg = true → xcCfgEdge x.cfg = 2 → (h.crossing g rising).acq.xc.get g =
        { x with live := rising, ts := h.ts, pol := rising, cnt := satInc 16 x.cnt })) ∧
    (∀ q m sq f, ((s.half id).acq.seqs.get q).mask = some (m, sq, f) → (s.half id).seqIdle q = true →
      Machine.exec (.acqMaskApply id q) s = .next (s.onHalf id (fun h => { h with
        acq := { h.acq with seqs := upd h.acq.seqs q (fun x => { x with mask := none, cfg := (x.cfg &&& 0x000FFFFF#32) ||| put m 12 20 }) },
        out := h.out ++ [.done 3 sq 0 []] })))) ∧
  (∀ (id : HalfId) (j : Fin 12) (s : State), s.live id = true →
    let l := (s.half id).ana.lanes.get j
    (∀ r, l.results.find? (fun r => r.imep = true) = some r →
      Machine.exec (.resultsComplete id j .imep) s = .next (s.onHalf id (fun h => h.fileImep j r))) ∧
    (∀ r st, st ≠ .imep → l.results.find? (fun r => r.imep = false) = some r →
      Machine.exec (.resultsComplete id j st) s =
        .next (s.onHalf id (fun h => h.fileCmb j r))) ∧
    (∀ st, l.result st = none →
      let t := s.onHalf id (Half.closeNow j)
      (∀ r, ((t.half id).ana.lanes.get j).result st = some r → Machine.exec (.resultsComplete id j st) s = .next (t.fileStage id j r)) ∧
      (((t.half id).ana.lanes.get j).result st = none → Machine.exec (.resultsComplete id j st) s = .next t)) ∧
    (l.newest = none → (s.half id).closeNow j = s.half id) ∧
    (∀ r (h : Half), ((h.fileImep j r).ana.lanes.get j).results = ((h.ana.lanes.get j).results).erase r ∧
      (h.fileImep j r).out = h.out ++ [.result { r with qual := r.qual + 256 * bit (h.ana.lanes.get j).miswired }] ∧
      ((h.fileCmb j r).ana.lanes.get j).results = ((h.ana.lanes.get j).results).erase r ∧
        ∃ r1 out, (h.fileCmb j r).out = out ++ [.result r1] ∧ r1.cyl = r.cyl ∧ r1.cyc = r.cyc ∧ r1.mfb50 = r.mfb50 ∧ r1.fuel = r.fuel))

/-- With the half working: the internal reference sets its flag, and where no calibration at enable is done or runs, starts it on
every slice, to end within 1 ms; EXT_VREF within 2.0 to 4.5 V sets its flag and is measured; a supply within 4.75 to 5.25 V sets
its flag; outside their windows no flag sets, a flag that was set clears and REF_FAULT (0x32) is raised once; a flag not set
stays and nothing is raised. Each changes its own flag alone; runs that hold from now on see the reference as it is. (R275, R276,
R293) -/
def Obligations.ReferencesSetAndClear : Prop :=
  ∀ (id : HalfId) (n : Fin 12) (mv : Nat) (s : State) (h : Half), s.live id = true →
    (∀ r, Machine.exec (.refOkSet id r mv) s = .next (s.onHalf id (Half.refSet r mv))) ∧
    (h.acq.calDone = true ∨ h.acq.calOn.any (·) = true → h.refSet .int mv = ({ h with acq := { h.acq with intOk := true } } : Half).holds) ∧
    (h.acq.calDone = false → h.acq.calOn.any (·) = false → h.refSet .int mv = ({ h with acq := { h.acq with
      intOk := true, calOn := Vector.replicate 23 true, calEnd := h.now + 800000 } } : Half).holds) ∧
    (2000 ≤ mv → mv ≤ 4500 → h.refSet .ext mv = ({ h with acq := { h.acq with extOk := true, vRef := mv } } : Half).holds) ∧
    (mv < 2000 ∨ 4500 < mv → h.refSet .ext mv = h.holds) ∧
    (4750 ≤ mv → mv ≤ 5250 → h.refSet (.ss n) mv = ({ h with acq := { h.acq with ssOk := put1 h.acq.ssOk n true } } : Half).holds) ∧
    (mv < 4750 ∨ 5250 < mv → h.refSet (.ss n) mv = h.holds) ∧
    (∀ r, Machine.exec (.refOkClear id r mv) s = .next (s.onHalf id (Half.refClear r mv))) ∧
    (mv < 4076 ∨ 4116 < mv → h.acq.intOk = true →
      h.refClear .int mv = ({ h with acq := { h.acq with intOk := false } } : Half).holds.raise 0x32 (locSense h.id)) ∧
    (mv < 2000 ∨ 4500 < mv → h.acq.extOk = true →
      h.refClear .ext mv = ({ h with acq := { h.acq with extOk := false, vRef := sat 13 mv } } : Half).holds.raise 0x32 (locSense h.id)) ∧
    (mv < 4750 ∨ 5250 < mv → h.acq.ssOk.get n = true →
      h.refClear (.ss n) mv = ({ h with acq := { h.acq with ssOk := put1 h.acq.ssOk n false } } : Half).holds.raise 0x32 (locSense h.id)) ∧
    (h.acq.intOk = false → h.refClear .int mv = h) ∧ (h.acq.extOk = false → h.refClear .ext mv = h) ∧
    (h.acq.ssOk.get n = false → h.refClear (.ss n) mv = h) ∧
    (h.holds = { h with acq := { h.acq with seqs := h.holds.acq.seqs } } ∧
      ∀ q r, (h.acq.seqs.get q).run = some r → ∃ r1, (h.holds.acq.seqs.get q).run = some r1 ∧ r1.hold = r.hold ∧ r1.poss = r.poss ∧
        (h.now ≤ r.hold → q.1 = 0 → r1.refBad = r.poss.filter (fun p => !h.acq.refOk (seqInput 0 p))))

/-- With the half working and its steward with background in the frame: a step begins where one is due: MB4's request first, else
the rotation's next slice that is not FAILED, after CAL_INT; the spare's own converts at once while it serves no slice, another
waits for takeover, which comes 200 ns after the start at the earliest, slice idle, spare free; 64 frames after its start a step
is late, counted and raised; a step that begins while another has the spare waits for it, and goes on when the other ends; a
result outside 2000 ppm of offset or 5000 ppm of gain counts and raises CAL_FAULT (0x34), the second in a row marks the slice
FAILED; a result within sets its count to 0; handback comes 200 ns after the result, slice idle: new coefficients in force, or,
the slice FAILED, the spare keeps its inputs and the group's rotation is suspended. The test DAC's verdict ends the test that
runs: a rise above 0.5 V from 0 to 50 uA is OPEN, GAIN beyond 0.5 % of gain or 0.2 % of offset is GAIN_ERR. (R293, R294, R295,
R296, R298, R306, R307) -/
def Obligations.CalibrationStepRunsItsStages : Prop :=
  ∀ (id : HalfId) (g : Grp) (ofs gain : Int) (m : TdacMeas) (s : State) (h : Half), s.live id = true →
    let c := (s.half id).acq.grps.get (grpIx g)
    (∀ t, s.hub.noBg.get id.stew = false → (s.half id).calNextAt (grpIx g) = some t →
      Machine.exec (.calStepStart id g) s = .next ((s.advanceTo t).onHalf id (Half.calStart (grpIx g)))) ∧
    (c.stage = 1 → Machine.exec (.calTakeover id g) s = .next ((s.advanceTo (c.start + 160)).onHalf id (Half.calTakeover (grpIx g)))) ∧
    (c.stage = 1 → Machine.exec (.calStepLate id g) s = .next ((s.advanceTo (c.start + 64 * 8000)).onHalf id (Half.calLate (grpIx g)))) ∧
    (∀ y b rq rest, c.stage ≠ 1 → c.wait = (y, b, rq) :: rest →
      Machine.exec (.calStepLate id g) s = .next ((s.advanceTo (b + 64 * 8000)).onHalf id (Half.calLate (grpIx g)))) ∧
    (c.stage = 3 → Machine.exec (.calHandback id g) s = .next ((s.advanceTo (c.endAt + 160)).onHalf id (Half.calHandback (grpIx g)))) ∧
    Machine.exec (.sliceCalDone id g ofs gain) s = .next (s.onHalf id (Half.calResult (grpIx g) ofs gain)) ∧
    Machine.exec (.tdacVerdict id m) s = .next (s.onHalf id (Half.tdacVerdict m)) ∧
    (let d := h.acq.grps.get (grpIx g)
     let i := sliceIx (grpIx g) d.slice
     let x := h.acq.slices.get i
     let grp (f : GrpCal → GrpCal) : Half := { h with acq := { h.acq with grps := upd h.acq.grps (grpIx g) f } }
     let done (st : Nat) (h : Half) : List Out := match d.mine with | some (sq, _) => h.out ++ [.done 4 sq st []] | none => h.out
     (∀ y rq rest, d.stage = 0 → h.acq.calDone = true → d.asked = (y, rq) :: rest → h.calStart (grpIx g) = grp (fun c => { c with
       slice := y, stage := if y = grpN (grpIx g) ∧ c.perm = none then 2 else 1, start := h.now, begun := h.now, mine := some rq, asked := rest, fresh := none })) ∧
     (∀ y rq rest, d.stage ≠ 0 → h.acq.calDone = true → d.asked = (y, rq) :: rest → h.calStart (grpIx g) = grp (fun c => { c with
       asked := rest, begun := h.now, wait := c.wait ++ [(y, h.now, some rq)] })) ∧
     (∀ y, d.stage = 0 → h.acq.calDone = true → d.asked = [] → calCfgEn h.acq.calCfg = true → d.susp = false →
       h.calPick (grpIx g) (grpN (grpIx g) + 1) d.next = some y → (h.acq.slices.get (sliceIx (grpIx g) y)).failed = false ∧
       h.calStart (grpIx g) = grp (fun c => { c with
         slice := y, stage := if y = grpN (grpIx g) ∧ c.perm = none then 2 else 1, start := h.now, begun := h.now, mine := none, asked := [], next := calAfter (grpIx g) y, fresh := none })) ∧
     (d.stage = 1 → d.start + 160 ≤ h.now → h.seqIdle (sliceSeq (grpIx g) d.slice) = true → d.perm = none →
       h.calTakeover (grpIx g) = grp (fun c => { c with stage := 2 })) ∧
     (d.stage = 1 → d.start + 64 * 8000 ≤ h.now → let t := h.calLate (grpIx g)
       let e := t.acq.grps.get (grpIx g)
       t.acq.lateCnt = satInc 8 h.acq.lateCnt ∧ (d.wait = [] → e.stage = 0) ∧
       (∀ y b rq rest, d.wait = (y, b, rq) :: rest → e.slice = y ∧ e.start = b ∧ e.mine = rq ∧ e.wait = rest ∧ (e.stage = 1 ∨ e.stage = 2))) ∧
     (d.stage = 3 → d.endAt + 160 ≤ h.now → h.seqIdle (sliceSeq (grpIx g) d.slice) = true →
       let t := h.calHandback (grpIx g)
       (d.wait = [] → (t.acq.grps.get (grpIx g)).stage = 0) ∧
       (x.failed = true → (t.acq.grps.get (grpIx g)).perm = some d.slice ∧ (t.acq.grps.get (grpIx g)).susp = true ∧ t.out = done 0x143 h) ∧
       (∀ o k, x.failed = false → d.fresh = some (o, k) → (t.acq.slices.get i).ofs = o ∧ (t.acq.slices.get i).gain = k ∧ t.out = done 0 h)) ∧
     (h.acq.calOn.any (·) = false → d.stage = 2 → let y := (h.calResult (grpIx g) ofs gain).acq.slices.get i
       (ofs.natAbs ≤ 2000 → gain.natAbs ≤ 5000 → y.bad = 0 ∧ y.failed = x.failed) ∧
       (2000 < ofs.natAbs ∨ 5000 < gain.natAbs → y.bad = min 2 (x.bad + 1) ∧ (y.failed = true ↔ x.failed = true ∨ 1 ≤ x.bad)))) ∧
    (let t := h.acq.tdac
     (t.busy = false → h.tdacVerdict m = h) ∧
     (t.busy = true → tdacCfgTest t.cfg = 0 → 5000 < m.hi - m.lo →
       (h.tdacVerdict m).acq.tdac.busy = false ∧ (h.tdacVerdict m).acq.tdac.res = tdacWord 1 (m.hi - m.lo)) ∧
     (t.busy = true → tdacCfgTest t.cfg = 1 → 500 < m.gainErr.natAbs ∨ 200 < m.ofsErr.natAbs →
       (h.tdacVerdict m).acq.tdac.busy = false ∧ (h.tdacVerdict m).acq.tdac.res = tdacWord 4 m.gainErr) ∧
     (t.busy = true → tdacCfgTest t.cfg = 1 → m.gainErr.natAbs ≤ 500 → m.ofsErr.natAbs ≤ 200 →
       (h.tdacVerdict m).acq.tdac.busy = false ∧ (h.tdacVerdict m).acq.tdac.res = tdacWord 0 m.gainErr))

/-! ### Sluice engines -/

/-- Where an engine of a working half is about to execute a COUNT word of the row, the command brings the clock to its tick and
the engine changes: C0 or C1 as FN says with the zero-extended IMM, then the next address by NEXT and PACE ticks of pause;
besides it only the filters of the SL terminals follow the time. (R348, R349, R351) -/
def Obligations.CountInstructionsCompute : Prop :=
  ∀ (id : HalfId) (e : Fin 8) (w : BitVec 24) (s : State),
    let i : Word := BitVec.ofNat 32 (slF w 10 0)
    let res (f : Sle → Sle) : Host.Outcome State Fault Refusal := .next ((atTick id e s).onHalf id (fun h =>
      let h := h.slTake []
      { h with slu := { h.slu with eng := upd h.slu.eng e (fun x => (f x).complete w) } }))
    (Executes id e (isCount 0) w s → Machine.exec (.countAddC0 id e) s = res (fun x => { x with c0 := x.c0 + i })) ∧
    (Executes id e (isCount 1) w s → Machine.exec (.countSubC0 id e) s = res (fun x => { x with c0 := x.c0 - i })) ∧
    (Executes id e (isCount 2) w s → Machine.exec (.countAddC1 id e) s = res (fun x => { x with c1 := x.c1 + i })) ∧
    (Executes id e (isCount 3) w s → Machine.exec (.countSubC1 id e) s = res (fun x => { x with c1 := x.c1 - i })) ∧
    (Executes id e (isCount 4) w s → Machine.exec (.countC0MinusC1 id e) s = res (fun x => { x with c0 := x.c0 - x.c1 })) ∧
    (Executes id e (isCount 5) w s → Machine.exec (.countC0PlusC1 id e) s = res (fun x => { x with c0 := x.c0 + x.c1 })) ∧
    (Executes id e (isCount 6) w s → Machine.exec (.countShiftC0 id e) s = res (fun x => { x with c0 := x.c0 >>> slF w 4 0 })) ∧
    (Executes id e (isCount 7) w s → Machine.exec (.countAndC0 id e) s = res (fun x => { x with c0 := x.c0 &&& i })) ∧
    (∀ x : Sle,
      (slF w 19 18 = 0 → (x.complete w).pc = (x.pc + 1) % 64) ∧ (slF w 19 18 = 1 → (x.complete w).pc = sleCfg0LoopAt x.cfg0) ∧
      (slF w 19 18 = 2 → (x.c1 = 0#32 → (x.complete w).pc = (x.pc + 1) % 64 ∧ (x.complete w).c1 = 0#32) ∧
        (x.c1 ≠ 0#32 → (x.complete w).pc = x.pc ∧ (x.complete w).c1 = x.c1 - 1#32)) ∧
      (x.complete w).wait = 1 + slF w 17 15)

/-- Where an engine of a working half is about to execute a QUEUE word of the row, it runs at its tick. A word that the steward
wrote in the same SLUCLK period does not count yet. FILL with a word in TX and no bits received puts it into SR with 32 bits to
leave; STORE with room puts the received bits into RX and clears IN_GOT, STORE_C0 puts C0 there; TAKE_C0 and TAKE_C1 with a word
in TX set the counter to it; without BLOCK from an empty TX queue FILL and both takes set UNR, raise 0x45 and go on; STORE and
STORE_C0 without BLOCK onto a full RX queue set OVR and raise 0x44, STORE clearing IN_GOT; with BLOCK they stall instead. (R351,
R354, R356, R357) -/
def Obligations.QueueInstructionsMoveWords : Prop :=
  ∀ (id : HalfId) (e : Fin 8) (w : BitVec 24) (s : State) (h : Half),
    let run : Host.Outcome State Fault Refusal := .next ((atTick id e s).onHalf id (fun h => (h.slTake []).slQueue e w))
    (Executes id e (isQueue 0) w s → Machine.exec (.queueFill id e) s = run) ∧
    (Executes id e (isQueue 1) w s → Machine.exec (.queueStore id e) s = run) ∧
    (Executes id e (isQueue 2) w s → Machine.exec (.queueStoreC0 id e) s = run) ∧
    (Executes id e (isQueue 3) w s → Machine.exec (.queueTakeC0 id e) s = run) ∧
    (Executes id e (isQueue 4) w s → Machine.exec (.queueTakeC1 id e) s = run) ∧
    (let x := h.eng e
     let n := slF w 14 12
     let block := slF w 11 11 = 1
     let y := (h.slQueue e w).eng e
     (x.txAt ≠ h.now / 4 → h.txSeen e = x.tx) ∧ (x.txAt = h.now / 4 → h.txSeen e = x.tx.take (x.tx.length - x.txNew)) ∧
     (∀ v rest, x.tx = v :: rest → h.txSeen e ≠ [] →
       (n = 0 → x.inGot = 0 → y = ({ x with tx := rest, sr := v, outLeft := 32, inGot := 0 } : Sle).complete w) ∧
       (n = 3 → y = ({ x with tx := rest, c0 := v } : Sle).complete w) ∧
       (n = 4 → y = ({ x with tx := rest, c1 := v } : Sle).complete w)) ∧
     (x.rxRoom = true →
       (n = 1 → y = ({ x with rx := x.rx ++ [x.got], inGot := 0 } : Sle).complete w) ∧
       (n = 2 → y = ({ x with rx := x.rx ++ [x.c0] } : Sle).complete w)) ∧
     (h.txSeen e = [] → n = 0 ∨ n = 3 ∨ n = 4 →
       (block → h.slQueue e w = h.slStall e) ∧ (¬ block → h.slQueue e w = (h.slUnr e).slDone e w)) ∧
     (x.rxRoom = false →
       (n = 1 ∨ n = 2 → block → h.slQueue e w = h.slStall e) ∧
       (n = 1 → ¬ block → y = ({ x with inGot := 0, ovr := true } : Sle).complete w ∧ (h.slQueue e w).out.length = h.out.length + 1) ∧
       (n = 2 → ¬ block → y = ({ x with ovr := true } : Sle).complete w)) ∧
     (∀ f, f ≠ e → (h.slQueue e w).eng f = h.eng f))

/-- Where an engine of a working half is about to execute a SIGNAL or PINS word of the row, it runs at its tick: SIGNAL sets or
clears flag INDEX of its group alone, a set winning over a clear in the same SLUCLK period, or hands over one Weir message with
INDEX[2:0]; PINS puts bit k of VALUE on the level, or the direction, of pin DRV_BASE + k for each k below DRV_CNT: an SL pin it
owns takes the level or the direction, a pin it does not own nothing. (R345, R351, R353, R407) -/
def Obligations.SignalsAndPinsAct : Prop :=
  ∀ (id : HalfId) (e : Fin 8) (w : BitVec 24) (s : State),
    let run (f : Half → Half) : Host.Outcome State Fault Refusal :=
      .next ((atTick id e s).onHalf id (fun h => (f (h.slTake [])).slDone e w))
    let bit_ : BitVec 16 := BitVec.ofNat 16 (2 ^ slF w 3 0)
    let flags (f : Nat → BitVec 16 → Slg → Slg) (h : Half) : Half :=
      { h with slu := { h.slu with grp := upd h.slu.grp (grpOf e) (f (h.now / 4) bit_) } }
    let pins (f : Nat → Bool → Half → Half) (h : Half) : Half :=
      eachOf (List.range (min 5 (sleCfg1DrvCnt (h.eng e).cfg1))) (fun k t => f (sleCfg1DrvBase (h.eng e).cfg1 + k) ((slF w 4 0).testBit k) t) h
    (Executes id e (isSignal 0) w s → Machine.exec (.signalSetFlag id e) s = run (flags Slg.setFlag)) ∧
    (Executes id e (isSignal 1) w s → Machine.exec (.signalClearFlag id e) s = run (flags Slg.clearFlag)) ∧
    (∀ (n : Nat) (b : BitVec 16) (g : Slg), (g.setFlag n b).flags = g.flags ||| b ∧
      (g.setAt ≠ n → (g.clearFlag n b).flags = g.flags &&& ~~~b) ∧ (g.setAt = n → (g.clearFlag n b).flags = g.flags &&& ~~~(b &&& ~~~g.sets)) ∧
      ((g.setFlag n b).clearFlag n b).flags = (g.setFlag n b).flags) ∧
    (Executes id e (isSignal 2) w s → Machine.exec (.signalWeir id e) s = run (fun h =>
      { h with out := h.out ++ [.weir (h.id.weirBase + 0x020 + 8 * e.1 + slF w 3 0 % 8) 0 false h.frame (BitVec.ofNat 32 (slF w 3 0 % 8))] })) ∧
    (Executes id e (slIs 5 (fun w => slF w 14 14 = 0)) w s → Machine.exec (.pinsLevel id e) s = run (pins (fun i b t => t.slDrive e i b))) ∧
    (Executes id e (slIs 5 (fun w => slF w 14 14 = 1)) w s → Machine.exec (.pinsDirection id e) s = run (pins (fun i b t => t.slDir e i b))) ∧
    (∀ (h : Half) (n : Fin 16) (b : Bool), h.slOwns e n.1 = true →
      h.slDrive e n.1 b = { h with slu := { h.slu with pins := upd h.slu.pins n (fun p => { p with lvl := b }) } } ∧
      h.slDir e n.1 b = { h with slu := { h.slu with pins := upd h.slu.pins n (fun p => { p with dir := b }) } }) ∧
    (∀ (h : Half) (i : Nat) (b : Bool), h.slOwns e i = false → h.slDrive e i b = h ∧ h.slDir e i b = h)

/-- Where an engine of a working half is about to execute a word of the row, it runs at its tick, with the terminals' levels
told. A JUMP whose TEST holds goes to ADDR, else on by NEXT; a WAIT whose condition holds completes, else stalls; a SHIFT within
SR moves it N places, bits entering as FROM says; a LOAD sets its destination, one to PC goes to an address of the region, and
outside it sets ADDR_FAULT and halts; an arming STAMP clears its latch and stalls, and takes the edge that comes as TPREV; a
measuring STAMP whose latch holds an edge takes it: C0 is the latch less TPREV, TPREV the latch, TIMEOUT clears, the latch is
free. (R347, R350, R351, R353, R354) -/
def Obligations.JumpsLoadsAndStampsRun : Prop :=
  ∀ (id : HalfId) (e : Fin 8) (es : List SlEdge) (w : BitVec 24) (s : State) (h : Half),
    let run (es : List SlEdge) (f : Half → Half) : Host.Outcome State Fault Refusal :=
      .next ((atTick id e s).onHalf id (fun h => f (h.slTake es)))
    let x := h.eng e
    let ends (f : Sle → Sle) : Half := h.sleMap e (fun x => (f x).complete w)
    (Executes id e (slIs 0 (fun _ => true)) w s → Machine.exec (.jump id e es) s = run es (fun h =>
      if h.slTest e w then h.sleMap e (fun x => { x with pc := slF w 5 0, stall := false, mid := false, wait := 1 + slF w 17 15 })
      else h.slDone e w)) ∧
    (Executes id e (slIs 1 (fun _ => true)) w s → Machine.exec (.wait id e es) s = run es (fun h => h.slWait e w)) ∧
    (Executes id e (slIs 2 (fun _ => true)) w s → Machine.exec (.shift id e es) s = run es (fun h => h.slShift e w)) ∧
    (Executes id e (slIs 3 (fun w => slF w 13 13 = 1)) w s → Machine.exec (.stampArm id e) s = run [] (fun h => h.slStampArm e w)) ∧
    (Executes id e (slIs 3 (fun w => slF w 13 13 = 0)) w s → Machine.exec (.stampMeasure id e) s = run [] (fun h => h.slStampMeasure e w)) ∧
    (Executes id e (slIs 6 (fun _ => true)) w s → Machine.exec (.load id e es) s = run es (fun h => h.slLoad e w)) ∧
    (slF w 14 11 = 0 → h.slTest e w = true) ∧ (slF w 14 11 = 1 → h.slTest e w = decide (x.c0 = 0#32)) ∧
    (slF w 14 11 = 6 → h.slTest e w = h.slPin (sleCfg0Wpin x.cfg0)) ∧
    (slF w 14 12 ≠ 1 → (h.slCond e w = true → h.slWait e w = h.slDone e w) ∧ (h.slCond e w = false → h.slWait e w = h.slStall e)) ∧
    (slF w 14 12 = 0 → h.slCond e w = decide (h.slPin (slF w 5 0) = decide (slF w 11 11 = 1))) ∧
    (slF w 14 12 = 4 → h.slCond e w = !x.tx.isEmpty) ∧ (slF w 14 12 = 5 → h.slCond e w = x.rxRoom) ∧
    (slF w 9 8 = 2 → x.mid = false → sleCfg0Autofill x.cfg0 = false ∨ x.outLeft ≠ 0 → sleCfg0Autostore x.cfg0 = false →
      let n := shiftN w
      let inn : Word := BitVec.ofNat 32 (h.entering e (slF w 7 5) n)
      h.slShift e w = ends (fun x => { x with
        sr := if sleCfg0SrDir x.cfg0 then (x.sr <<< n) ||| inn else (x.sr >>> n) ||| (inn <<< (32 - n)),
        outLeft := x.outLeft - n, inGot := min 32 (x.inGot + n) })) ∧
    (slF w 11 11 = 1 → let v : Word := BitVec.ofNat 32 (slF w 10 0)
      (slF w 14 12 = 0 → h.slLoad e w = ends (fun x => { x with c0 := v })) ∧
      (slF w 14 12 = 1 → h.slLoad e w = ends (fun x => { x with c1 := v })) ∧
      (slF w 14 12 = 2 → h.slLoad e w = ends (fun x => { x with sr := v, outLeft := 32, inGot := 0 })) ∧
      (slF w 14 12 = 3 → sleCfg2RegLo x.cfg2 ≤ slF w 10 0 → slF w 10 0 ≤ sleCfg2RegHi x.cfg2 → h.slLoad e w = h.sleMap e (fun x =>
        { x with pc := slF w 10 0, stall := false, mid := false, wait := 1 + slF w 17 15 })) ∧
      (slF w 14 12 = 3 → sleCfg2RegHi x.cfg2 < slF w 10 0 → h.slLoad e w = h.slAddrFault e) ∧
      (slF w 14 12 = 4 → h.slLoad e w = ends (fun x => { x with tprev := v }))) ∧
    (((h.slAddrFault e).eng e).addr = true ∧ ((h.slAddrFault e).eng e).st = 1) ∧
    (slF w 14 14 = 1 →
      (x.stall = false → h.slStampArm e w = (h.sleMap e (fun x => { x with rise := none })).slStall e) ∧
      (∀ v, x.rise = some v →
        (x.stall = true → h.slStampArm e w = ends (fun x => { x with rise := none, tprev := v, timeout := false })) ∧
        h.slStampMeasure e w = ends (fun x => { x with rise := none, c0 := v - x.tprev, tprev := v, timeout := false })) ∧
      (x.rise = none → h.slStampMeasure e w = h.slStall e)) ∧
    (slF w 14 14 = 0 →
      (x.stall = false → h.slStampArm e w = (h.sleMap e (fun x => { x with fall := none })).slStall e) ∧
      (∀ v, x.fall = some v →
        (x.stall = true → h.slStampArm e w = ends (fun x => { x with fall := none, tprev := v, timeout := false })) ∧
        h.slStampMeasure e w = ends (fun x => { x with fall := none, c0 := v - x.tprev, tprev := v, timeout := false })) ∧
      (x.fall = none → h.slStampMeasure e w = h.slStall e))

/-- With the half working: a stalled instruction other than a WAIT for ticks is tried anew at the engine's next tick, the
terminals' levels told; a WAIT for ticks when they have run out; a measuring STAMP that waits with TLIM not 0 ends by timeout
when TCNT - TPREV reaches TLIM: C0 is TLIM, TPREV is TCNT, TIMEOUT is set, and it goes on; with TLIM 0 it does not. A new level
of the watch pin of a RUNNING engine is latched at the tick that samples it with TCNT of that tick; where the latch still holds
one, EDGE_LOST is set and 0x47 raised. A terminal's new level counts two periods of SLUCLK and FILT after its edge. (R347, R349,
R350, R352) -/
def Obligations.StallsTimeoutsAndEdgesOfAnEngine : Prop :=
  ∀ (id : HalfId) (e : Fin 8) (es : List SlEdge) (dt : Nat) (s : State) (h : Half), s.live id = true →
    let x := (s.half id).eng e
    let w := (s.half id).slWord e
    let u := s.advance dt
    (x.st = 2 → x.stall = true → slOp w ≠ 1 ∨ slF w 14 12 ≠ 6 → Machine.exec (.stallRelease id e es) s =
      .next ((s.advanceTo (x.nextTick (s.half id).now)).onHalf id (fun h => (h.slTake es).slExec e))) ∧
    (x.st = 2 → x.stall = true → slOp w = 1 → slF w 14 12 = 6 → (x.tcnt - x.beg).toNat < x.c0.toNat → Machine.exec (.stallRelease id e es) s =
      .next ((s.advanceTo (Sle.tickAt (s.half id).now (x.c0.toNat - (x.tcnt - x.beg).toNat) x)).onHalf id (fun h => (h.slTake es).slExec e))) ∧
    (x.st = 2 → x.stall = true → slOp w = 3 → slF w 13 13 = 0 → x.latch (decide (slF w 14 14 = 1)) = none →
      (x.tlim ≠ 0#32 → Machine.exec (.stampTimeout id e) s =
        .next ((s.advanceTo (Sle.tickAt (s.half id).now (x.tlim.toNat - (x.tcnt - x.tprev).toNat) x)).onHalf id (fun h =>
          h.sleMap e (fun y => ({ y with c0 := y.tlim, tprev := y.tcnt, timeout := true } : Sle).complete (h.slWord e))))) ∧
      (x.tlim = 0#32 → Machine.exec (.stampTimeout id e) s = .next s)) ∧
    (x.st = 2 → Machine.exec (.wpinEdgeLatch id e es dt) s =
      .next ((u.advanceTo (((u.half id).eng e).nextTick (u.half id).now)).onHalf id (fun h => (h.slTake es).slEdge e))) ∧
    (x.st ≠ 2 → Machine.exec (.wpinEdgeLatch id e es dt) s = .next u) ∧
    (let y := h.eng e
     let lvl := h.slPin (sleCfg0Wpin y.cfg0)
     (y.st = 2 → y.seen = false → lvl = true → y.rise = none →
       h.slEdge e = h.sleMap e (fun y => { y with rise := some y.tcnt, seen := true })) ∧
     (y.st = 2 → y.seen = true → lvl = false → y.fall = none →
       h.slEdge e = h.sleMap e (fun y => { y with fall := some y.tcnt, seen := false })) ∧
     (y.st = 2 → lvl ≠ y.seen → (y.latch lvl).isSome = true →
       h.slEdge e = (h.sleMap e (fun y => { y with seen := lvl, lost := true })).raise 0x47 (locInp h.id 7)) ∧
     (y.st ≠ 2 ∨ lvl = y.seen → h.slEdge e = h)) ∧
    (∀ (p : SlPin) (k n : Nat), p.due = [] → p.raw = p.filt → p.rawAt < k → k ≤ n →
      (p.take k (!p.raw)).level n = if k + 2 + slpCfgFilt p.cfg ≤ n then !p.raw else p.raw)

/-- For counts within 0 to 32, a shift is in progress exactly when IN_GOT is 1 to 32 or OUT_LEFT is 1 to 32, whether or not the
engine is stalled; and a SHIFT stalled by AUTOFILL on an empty TX queue with IN_GOT at 0 leaves no shift in progress. A halt of
an engine ends its stall and its delay, clears OUT_LEFT and IN_GOT, sets SHIFT_ABANDONED if a shift was in progress (else leaves
it), keeps both queues, and leaves every pin's level and direction and every other engine as they were. (R355, R360) -/
def Obligations.HaltsEndShiftsInProgress : Prop :=
  ((∀ x : Sle, x.inGot ≤ 32 → x.outLeft ≤ 32 →
    (x.inShift = true ↔ (1 ≤ x.inGot ∧ x.inGot ≤ 32) ∨ (1 ≤ x.outLeft ∧ x.outLeft ≤ 32)) ∧
    (∀ b, ({ x with stall := b } : Sle).inShift = x.inShift)) ∧
  ∀ (e : Fin 8) (w : BitVec 24) (h : Half),
    (h.eng e).mid = false → sleCfg0Autofill (h.eng e).cfg0 = true → (h.eng e).outLeft = 0 → (h.eng e).tx = [] → (h.eng e).inGot = 0 →
      (h.eng e).stall = false → ((h.slShift e w).eng e).stall = true ∧ ((h.slShift e w).eng e).inShift = false) ∧
  (∀ (e : Fin 8) (h : Half),
    let x := h.eng e
    let y := (h.slHalt e).eng e
    y.st = 1 ∧ y.stall = false ∧ y.wait = 0 ∧ y.outLeft = 0 ∧ y.inGot = 0 ∧ y.abandon = (x.abandon || x.inShift) ∧ y.tx = x.tx ∧ y.rx = x.rx ∧
      (h.slHalt e).chans = h.chans ∧ (h.slHalt e).slu.pins = h.slu.pins ∧ (∀ f, f ≠ e → (h.slHalt e).eng f = h.eng f))

/-- With the half working: PROGRAM_SWAP takes the swap where every named engine is not RUNNING or has no shift in progress: the
banks change places, the load completes with OK, a RUNNING engine it names starts anew; with one in progress nothing changes;
FORCED_SWAP comes when WAIT_MS of a load with FORCE has run out: engines in a shift are halted, the swap taken with SWAP_FORCED,
the halted engines started, 0x49 raised. A swap flips the active bank and ends the wait. (R358, R362, R363) -/
def Obligations.ProgramsSwapBetweenShifts : Prop :=
  ∀ (id : HalfId) (g : Fin 2) (s : State) (h : Half), s.live id = true →
    ((s.half id).swapReady g = true → Machine.exec (.programSwap id g) s = .next (s.onHalf id (Half.doSwap g 0))) ∧
    ((s.half id).swapReady g = false → Machine.exec (.programSwap id g) s = .next (s.onHalf id (fun h => h))) ∧
    (h.swapReady g = true → ∀ w, (h.slg g).swap = some w → ((h.doSwap g 0).slg g).bank = !(h.slg g).bank ∧
      ((h.doSwap g 0).slg g).swap = none ∧ (h.doSwap g 0).out = h.out ++ [.done 3 w.req.1 0 []] ∧
      ∀ e ∈ maskEngs g w.mask, (h.eng e).st = 2 → ((h.doSwap g 0).eng e).st = 2 ∧ ((h.doSwap g 0).eng e).tcnt = 0#32 ∧
        ((h.doSwap g 0).eng e).pc = sleCfg0Start ((h.doSwap g 0).eng e).cfg0) ∧
    (∀ w t, ((s.half id).slg g).swap = some w → w.force = true → w.expiry = some t →
      Machine.exec (.forcedSwap id g) s = .next ((s.advanceTo t).onHalf id (fun h => h.forceSwap g))) ∧
    (∀ w, (h.slg g).swap = some w →
      let mid := (maskEngs g w.mask).filter (fun e => decide ((h.eng e).st = 2) && (h.eng e).inShift)
      (mid ≠ [] → h.swapReady g = false) ∧
      h.forceSwap g = (eachOf mid (fun e h => h.slStart e) ((eachOf mid (fun e h => h.slHalt e) h).doSwap g 0x12A)).raise 0x49 (locInp h.id 7) ∧
      ((h.forceSwap g).slg g).bank = !(h.slg g).bank ∧ ((h.forceSwap g).slg g).swap = none)

/-! ### The commands of the mailboxes -/

/-- An accepted STOP, FLOODGATE_RELEASE, SET_DIRECTION or FG_STATUS joins the requests S0 serves at the next tick, with the FRAME
at which it came. There: STOP asserts cause 5, so that every half the hub reaches holds its latch, the stop stands, the trip
count is one higher, the log keeps REASON, and it answers the trip count; a release of a TRIPPED floodgate is refused with the
failing item (with TRIP_COUNT where none fails, log 109), of a CHECKED one with the right trip count opens it; a direction
becomes work for both stewards' next tick; FG_STATUS answers both halves' FG_STAT and FG_CFG. (R226, R378, R418, R419, R420,
R421) -/
def Obligations.FloodgateMailbox : Prop :=
  ∀ (m : Msg) (s : State) (a : Ask) (f : Word),
    let wait (a : Ask) (u : State) : State := { u with hub := { u.hub with link := { u.hub.link with mb0 := u.hub.link.mb0 ++ [(a, u.hub.frame)] } } }
    Runs (.stop m) 0 1 (fun _ => 24) m s (fun _ _ => []) wait ∧
    Runs (.floodgateRelease m) 0 2 (fun _ => 24) m s (fun _ _ => []) wait ∧
    Runs (.setDirection m) 0 3 (fun _ => 24) m s (fun _ _ => []) wait ∧
    Runs (.fgStatus m) 0 4 (fun _ => 20) m s (fun _ _ => []) wait ∧
    (a.cmd = 1 → a.dirty 17 3 = false → s.serve0 (a, f) =
      (let s1 := (s.kill 5).fgMap (fun x => { x with stop := true, trips := x.trips + 1 })
       (s1.log 0x30 0 (a.b 16) f (leW f)).done a 0 (le 2 s1.hub.fg.trips.toNat)) ∧ (∀ id, s.reach id = true → ((s.serve0 (a, f)).half id).fg.latch = true)) ∧
    (a.cmd = 2 → a.dirty 18 2 = false →
      (s.hub.fg.st = 0 → s.serve0 (a, f) = s.done a 0x130 (le 1 (if s.hub.fg.fail = 0 then 6 else s.hub.fg.fail))) ∧
      (s.hub.fg.st = 1 → a.h 16 = s.hub.fg.trips.toNat → s.serve0 (a, f) =
        s.fgMap (fun x => { x with st := 2, stop := false, rel := some (bothHalves, [a.seq]) })) ∧
      (s.hub.fg.st = 1 → a.h 16 ≠ s.hub.fg.trips.toNat → s.serve0 (a, f) = s.done a 0x130 (le 1 6))) ∧
    (a.cmd = 3 → s.reaches bothHalves = true → a.b 16 ≤ 1 → a.dirty 17 3 = false →
      (a.b 16 = 1 → trkCfg0Reversible s.a.trk.cfg0 = true ∧ trkCfg0Reversible s.b.trk.cfg0 = true) →
      s.serve0 (a, f) = s.hubMap (fun u => { u with jobs := u.jobs ++
        [⟨0, a.seq, le 1 (a.b 16), [.dir .A (a.b 16 = 1), .dir .B (a.b 16 = 1)]⟩] })) ∧
    (a.cmd = 4 → s.reaches bothHalves = true →
      s.serve0 (a, f) = s.done a 0 (leW (s.fgStat .A) ++ leW (s.fgStat .B) ++ leW s.hub.fg.cfg))

/-- An accepted SETPOINT is outstanding, waits for host intake, and its load figure, unless 0xFFFF, becomes the hub's. A CAN FD
backup frame of the configured port and a cylinder's identifier that is whole: with the alive counter one on, or the first since
power-up, it waits for host intake and the counter follows; two on, a lost frame is raised besides; any other is a check failure
of the backup stream and the counter follows. In READY the status frame comes statPer ms after the last, on each configured CAN
port with the status identifier, and nothing else changes but the ports' counters and the instant. (R385, R387, R392, R393, R395,
R422) -/
def Obligations.SetpointsArriveAndWait : Prop :=
  ∀ (m : Msg) (port : Fin 2) (ident : BitVec 11) (data : List Byte) (s : State),
    (Heard 1 1 (fun a => 24 + 28 * a.b 18) m s → ∃ t, Machine.exec (.setpoint m) s = .next t ∧
      t.hub.link.mb1 = s.hub.link.mb1 ++ [msgAsk 1 1 m] ∧ t.hub.link.reqs = s.hub.link.reqs ++ [⟨1, m.seq, 1, m.flags.getLsbD 5, none⟩] ∧
      t.hub.load = (if (msgAsk 1 1 m).h 16 = 0xFFFF then s.hub.load else min ((msgAsk 1 1 m).h 16) 1200)) ∧
    (let l := s.hub.link
     let al := byteAt data 0 / 16
     s.clocked = true → s.hub.boot.stage = 4 → l.cfg.backupEn = true → port.1 = l.cfg.backupPort →
     data.length = 32 → crc16 (data.take 30) = BitVec.ofNat 16 (256 * byteAt data 30 + byteAt data 31) →
     ∀ c : Fin 24, ident.toNat = l.cfg.spBase + c.1 → byteAt data 1 = c.1 + 1 →
       let set (t : State) : State := t.linkMap (fun l => { l with canAlive := put1 l.canAlive c (some al) })
       let good : State := ((set s).takeLoad (u16 data 28)).linkMap (fun l => { l with mb1 := l.mb1 ++ [⟨8, 0, 0, true, data⟩] })
       (l.canAlive.get c = none → Machine.exec (.canBackupFrame port ident data) s = .next good) ∧
       (∀ old, l.canAlive.get c = some old → old < 16 →
         ((al + 16 - old) % 16 = 1 → Machine.exec (.canBackupFrame port ident data) s = .next good) ∧
         ((al + 16 - old) % 16 = 2 → Machine.exec (.canBackupFrame port ident data) s = .next (good.raiseHub 0x61 locHub)) ∧
         ((al + 16 - old) % 16 ≠ 1 → (al + 16 - old) % 16 ≠ 2 →
           Machine.exec (.canBackupFrame port ident data) s = .next (set (s.checkFail (some 8)))))) ∧
    (s.clocked = true → s.hub.boot.stage = 4 → ∃ t, Machine.exec .canStatusFrame s = .next t ∧
      (let u := s.advanceTo (s.hub.link.statAt + s.hub.link.cfg.statPer * etPerMs)
       t = u.linkMap (fun l => { l with canOut := t.hub.link.canOut, statAt := u.now, sent := t.hub.link.sent }) ∧
       t.hub.link.sent = u.hub.link.cfg.canPorts.map (fun p => ⟨2 + p.1, 0, 0, u.hub.link.cfg.statId, u.statBytes p, 0⟩) ++ u.hub.link.sent ∧
       ∀ p, t.hub.link.canOut.get p = u.hub.link.canOut.get p + (if p ∈ u.hub.link.cfg.canPorts then 1 else 0)) ∧
      t.now = max s.now (s.hub.link.statAt + s.hub.link.cfg.statPer * etPerMs) ∧ t.hub.link.statAt = t.now)

/-- Accepted: IMAGE_BEGIN of 128 to 2097152 bytes opens a transfer, discarding a staged image; a chunk, aligned, of 4 to 992
bytes and within LENGTH of an open transfer, joins it; IMAGE_ABORT closes it; a CONFIG_COMMIT whose checks pass waits for the
tick, its dry run answers OK, and a check that fails answers its status; the end of the flash write answers OK and keeps the
newest two images, or FLASH_FAULT; CONFIG_READ answers the bytes of the committed image; CONFIG_INFO its report; LINK_SET becomes
work for the next tick. None but CONFIG_COMMIT's application touches the committed image. (R426, R427, R428, R431) -/
def Obligations.ConfigurationMailbox : Prop :=
  ∀ (m : Msg) (s : State) (ok : Bool),
    let chunk (x : State → Option Xfer) : Ask → State → List (Bool × Nat) := fun a u =>
      [(a.w 16 % 4 ≠ 0 || a.h 20 % 4 ≠ 0 || a.h 20 < 4 || 992 < a.h 20 || a.dirty 22 2, 0x104), ((x u).isNone, 0x117),
        ((x u).any (fun t => t.len < a.w 16 + a.h 20), 0x104)]
    Runs (.imageBegin m) 2 1 (fun _ => 28) m s (fun a _ => [(a.w 16 < 128 || 2097152 < a.w 16 || a.dirty 20 4, 0x104)])
      (fun a u => (u.cfgMap (fun c => { c with stage := some ⟨a.w 16, []⟩ })).done a 0 []) ∧
    Runs (.imageChunk m) 2 2 (fun a => 28 + a.h 20) m s (chunk (·.hub.cfg.stage))
      (fun a u => (u.cfgMap (fun c => { c with
        stage := c.stage.map (fun x => { x with chunks := (a.w 16, a.bytes 24 (a.h 20)) :: x.chunks }) })).done a 0 []) ∧
    Runs (.imageAbort m) 2 4 (fun _ => 20) m s (fun _ _ => []) (fun a u => (u.cfgMap (fun c => { c with stage := none })).done a 0 []) ∧
    (byteAt m.payload 0 % 2 = 0 → Runs (.configCommit m) 2 3 (fun _ => 36) m s (fun a _ => [(!a.commitOk, 0x104)])
      (fun a u => match u.commitRefusal false (a.bytes 24 8) with
        | some (st, p) => u.done a st p
        | none => u.cfgMap (fun c => { c with apply := c.apply ++ [((c.stage.map Xfer.bytes).getD [], a.seq)] }))) ∧
    (byteAt m.payload 0 % 2 = 1 → Runs (.configDryRun m) 2 3 (fun _ => 36) m s (fun a _ => [(!a.commitOk, 0x104)])
      (fun a u => match u.commitRefusal true (a.bytes 24 8) with
        | some (st, p) => u.done a st p
        | none => u.done a 0 [])) ∧
    (∀ b q t, s.hubOn = true → s.hub.cfg.write = (b, q) :: t → Machine.exec (.configFlashWriteDone ok) s = .next (
      if ok then ((s.cfgMap (fun c => { c with write := t })).flashMap (fun f => { f with store := b :: f.store.take 1, area := (f.area + 1) % 4 })).finish 2 q 0 []
      else (s.cfgMap (fun c => { c with write := t })).finish 2 q 0x116 [])) ∧
    Runs (.configRead m) 2 5 (fun _ => 28) m s (fun a u => [(a.h 20 < 4 || 992 < a.h 20 || a.dirty 22 2, 0x104),
        (u.hub.cfg.bytes.isNone, 0x117), ((u.hub.cfg.bytes.getD []).length < a.w 16 + a.h 20, 0x104)])
      (fun a u => u.done a 0 (le 4 (a.w 16) ++ le 2 (a.h 20) ++ zeros 2 ++ slice (u.hub.cfg.bytes.getD []) (a.w 16) (a.h 20))) ∧
    Runs (.configInfo m) 2 6 (fun _ => 20) m s (fun _ _ => []) (fun a u => u.done a 0 u.configInfo) ∧
    Runs (.linkSet m) 2 7 (fun _ => 28) m s (fun a _ => [(a.b 16 < 1 || 32 < a.b 16 || 2 < a.b 17 || a.h 18 < 50 || 2000 < a.h 18 ||
        1 < a.b 20 || a.dirty 21 3, 0x104)])
      (fun a u =>
        let off := (u.linkMap (fun l => { l with cfg := { l.cfg with backupEn := a.b 20 = 1 } })).combineBad
        if !off.isEmpty then u.done a 0x101 (comboPayload off)
        else u.hubMap (fun x => { x with jobs := x.jobs ++ [⟨2, a.seq, [], [.link (a.b 16) (a.b 17) (a.h 18) (a.b 20 = 1)]⟩] }))

/-- IMAGE_BEGIN opens an empty transfer of LENGTH in place of any staged image. After a chunk within LENGTH the transfer's bytes
are those of before with the chunk's laid over them, whatever was received before; a chunk that reaches beyond LENGTH is refused
with PARAM_RANGE, one with no transfer open with NO_IMAGE. IMAGE_ABORT closes the transfer. The committed image's bytes and
decoded form are unchanged by each, whatever the message. (R427) -/
def Obligations.ImageTransferFollowsItsChunks : Prop :=
  ∀ (a : Ask) (m : Msg) (s : State),
    (128 ≤ a.w 16 → a.w 16 ≤ 2097152 → a.dirty 20 4 = false →
      (s.serveImageBegin a).hub.cfg.stage = some ⟨a.w 16, []⟩ ∧ a.w 16 ≤ 2 * 1024 * 1024) ∧
    (a.w 16 % 4 = 0 → a.h 20 % 4 = 0 → 4 ≤ a.h 20 → a.h 20 ≤ 992 → a.dirty 22 2 = false →
      (∀ x, s.hub.cfg.stage = some x → a.w 16 + a.h 20 ≤ x.len → ∃ y, (s.serveImageChunk a).hub.cfg.stage = some y ∧ y.len = x.len ∧
        y.bytes = overlay x.bytes (a.w 16) (a.bytes 24 (a.h 20))) ∧
      (∀ x, s.hub.cfg.stage = some x → x.len < a.w 16 + a.h 20 → s.serveImageChunk a = s.done a 0x104 []) ∧
      (s.hub.cfg.stage = none → s.serveImageChunk a = s.done a 0x117 [])) ∧
    (s.serveImageAbort a).hub.cfg.stage = none ∧
    ∀ c ∈ [Instr.imageBegin m, .imageChunk m, .imageAbort m], ∀ t, Machine.exec c s = .next t →
      t.hub.cfg.bytes = s.hub.cfg.bytes ∧ t.hub.cfg.img = s.hub.cfg.img ∧ t.a = s.a ∧ t.b = s.b

/-! ### The commands of the mailboxes, continued -/

/-- Accepted, with none of its conditions: SLOT_ARM grants a pool slot and answers its number; SLOT_WRITE stages content of a
slot held; SLOT_FREE releases it at once or at its release; SLOT_READ answers its words; PROFILE_WRITE stages the profile in both
halves, none being staged; PROFILE_COPY copies it at the instant of a frame tick where no pair of the half runs under it;
PROFILE_READ answers it; TRACKER_SET becomes work for the tick; TWIST_SET waits for the cylinder's next commit in each serving
half. The conditions come in the order LEVEL, HALF_UNREACHABLE, PARAM_RANGE, own. (R139, R140, R163, R164, R165, R178, R219,
R433, R434, R435, R436, R437) -/
def Obligations.ExpertSlotsAndProfiles : Prop :=
  ∀ (m : Msg) (id : HalfId) (p : Fin 32) (s : State),
    let slot (own : State → SlotC → Half → List (Bool × Nat)) : Ask → State → List (Bool × Nat) := fun a u =>
      [u.levelCheck 0, (u.noHalf (a.b 16), 0x103), (1 < a.b 16 || a.dirty 17 1 || 1024 ≤ a.h 18, 0x104)] ++ own u a.content (u.half (halfOf (a.b 16)))
    let held (a : Ask) (u : State) (k : Fin 1024) (ch : Nat) : Prop := a.h 18 = k.1 ∧ ((u.half (halfOf (a.b 16))).slots.get k).armed = some ch;
    let a1 := msgAsk 3 2 m;
    (∀ mm h k, let a := msgAsk 3 1 m; let u := taken 3 1 m s; let d : HalfId := if a.b 16 < 48 then .A else .B;
      Heard 3 1 (fun _ => 24) m s → u.basic 0 = false → u.reach d = true → a.b 16 < 96 → a.b 17 ≤ 1 → a.dirty 18 2 = false →
      a.b 16 % 48 = mm → ∀ hm : mm < 48, (u.half d).oddDrive ⟨mm, hm⟩ = false → (u.half d).grant ⟨mm, hm⟩ (.expert mm) = (h, .inr k) →
      ∃ h1, Machine.exec (.slotArm m) s = .next ((u.setHalf h1 d).done a 0 (le 1 d.num ++ zeros 1 ++ le 2 k.1)) ∧
        h1 = { h with slots := h1.slots } ∧ ∀ j, j ≠ k → h1.slots.get j = h.slots.get j) ∧
    (∀ k ch, let u := taken 3 2 m s; let d := halfOf (a1.b 16);
      Heard 3 2 (fun _ => 44) m s → (slot (fun _ c h => [(h.contentBad c, 0x104)]) a1 u).find? (·.1) = none → held a1 u k ch →
      a1.content.ch = chanNum d ch → actFits (outCfgSrc ((u.half d).chans.get a1.content.chan).out) a1.content.action = true →
      (a1.content.action = 4 → (u.half d).profValid a1.content.prof = true ∧ (u.half d).gainBad a1.content.pair a1.content.prof = false) →
      Machine.exec (.slotWrite m) s = .next ((u.setHalf { u.half d with
        slots := upd (u.half d).slots k (fun x => { x with staged := some a1.content }) } d).done a1 0 [])) ∧
    (∀ k ch, let u := taken 3 3 m s; let a := msgAsk 3 3 m; let d := halfOf (a.b 16);
      Heard 3 3 (fun _ => 24) m s → (slot (fun _ _ _ => []) a u).find? (·.1) = none → held a u k ch → Machine.exec (.slotFree m) s = .next (
        if ((u.half d).slots.get k).st = 1 ∨ ((u.half d).slots.get k).st = 7 then (u.onHalf d (Half.release k)).done a 0 []
        else u.setHalf { u.half d with slots := upd (u.half d).slots k (fun x => { x with freeSeq := x.freeSeq ++ [a.seq] }) } d)) ∧
    (∀ k ch, let u := taken 3 4 m s; let a := msgAsk 3 4 m;
      Heard 3 4 (fun _ => 24) m s → (slot (fun _ _ _ => []) a u).find? (·.1) = none → held a u k ch →
      ∃ w, Machine.exec (.slotRead m) s = .next (u.done a 0 w) ∧ w.take 20 = ((u.half (halfOf (a.b 16))).slots.get k).c.bytes) ∧
    (∀ i : Fin 32, let u := taken 3 0x10 m s; let a := msgAsk 3 0x10 m;
      Heard 3 0x10 (fun _ => 88) m s → u.basic 3 = false → u.reaches bothHalves = true → a.b 16 = i.1 → a.dirty 17 3 = false → a.profDirty = false →
      u.a.profRefused i.1 a.profile = false → u.b.profRefused i.1 a.profile = false → u.a.profNew.get i = none → u.b.profNew.get i = none →
      Machine.exec (.profileWrite m) s = .next { u with
        a := { u.a with profNew := put1 u.a.profNew i (some (a.profile, a.seq)) }, b := { u.b with profNew := put1 u.b.profNew i (some (a.profile, a.seq)) } }) ∧
    (∀ pw q, (s.half id).profNew.get p = some (pw, q) → s.now = s.hub.tick → s.live id = true → (s.half id).profIdle p = true →
      let t := s.setHalf { s.half id with profs := put1 (s.half id).profs p pw, profNew := put1 (s.half id).profNew p none } id;
      Machine.exec (.profileCopy id p) s = .next (if ((s.half id.other).profNew.get p).map (·.2) = some q then t else t.finish 3 q 0 [])) ∧
    Runs (.profileRead m) 3 0x11 (fun _ => 24) m s (fun a u => [u.levelCheck 3, (u.noHalf (a.b 17), 0x103), (31 < a.b 16 || 1 < a.b 17 || a.dirty 18 2, 0x104)])
      (fun a u => u.done a 0 (((u.half (halfOf (a.b 17))).prof (a.b 16)).toList.flatMap leW)) ∧
    (let u := taken 3 0x20 m s; let a := msgAsk 3 0x20 m;
      Heard 3 0x20 (fun _ => 24) m s → u.basic 1 = false → u.reaches bothHalves = true → a.b 16 ≤ 5 → a.b 17 = 0 ∨ (2 ≤ a.b 17 ∧ a.b 17 ≤ 4) →
      a.b 18 = 0 ∨ (30 ≤ a.b 18 ∧ a.b 18 ≤ 90) → a.b 19 = 0 ∨ (10 ≤ a.b 19 ∧ a.b 19 ≤ 127) →
      (u.trackerAhead .A).blankBreaks (a.b 16) (a.b 18) (a.b 19) = false → (u.trackerAhead .B).blankBreaks (a.b 16) (a.b 18) (a.b 19) = false →
      Machine.exec (.trackerSet m) s = .next (u.hubMap (fun x => { x with jobs := x.jobs ++ [⟨3, a.seq, [],
        [.tracker .A (Inp.ofCode (a.b 16)) (a.b 17) (a.b 18) (a.b 19), .tracker .B (Inp.ofCode (a.b 16)) (a.b 17) (a.b 18) (a.b 19)]⟩] }))) ∧
    Runs (.twistSet m) 3 0x21 (fun _ => 28) m s (fun a u => [u.levelCheck 2, (!u.reaches (u.twistHalves (a.b 16)), 0x103),
        ((u.twistHalves (a.b 16)).isEmpty || a.dirty 17 1, 0x104),
        (signed 16 (a.h 18) < -8192 || 24576 < signed 16 (a.h 18) || 131072 < (signed 32 (a.w 20)).natAbs, 0x126)])
      (fun a u => (eachOf (u.twistHalves (a.b 16)) (fun id t => t.setHalf ((t.half id).twistPend (a.b 16) (signed 16 (a.h 18)) (signed 32 (a.w 20))) id) u).done a 0 [])

/-- Accepted, with none of its conditions: ACQ_SET's DELAY is in force at once, STEP and PERIOD wait for the tick, MASK for an
idle sequencer; CL_SET sets a cylinder's loop; PROG_LOAD puts the program into the shadow bank and waits for its swap; SLUICE_CTL
starts, halts, restarts clocks at once or at the tick; SLUICE_XFER moves words into and out of the steward's buffers as room
allows; PIN_CLAIM and GPIO_SET are work for the tick; PIN_RELEASE ends a claim at once. (R201, R289, R334, R359, R361, R363,
R437, R438, R439, R440) -/
def Obligations.ExpertAcquisitionSluiceAndPins : Prop :=
  ∀ (m : Msg) (s : State),
    let acq (a : Ask) (u : State) (bad : Bool) : List (Bool × Nat) :=
      [u.levelCheck 4, (u.noHalf (a.b 16), 0x103), (1 < a.b 16 || 3 < a.b 17 || a.dirty 19 1 || bad, 0x104)]
    let a := msgAsk 3 0x30 m;
    let u := taken 3 0x30 m s;
    let id := halfOf (a.b 16);
    (Heard 3 0x30 (fun _ => 28) m s →
      (∀ q : Fin 9, acqItem m = 0 → a.b 18 = q.1 → (acq a u ((if q.1 = 0 then 4095 else if q.1 ≤ 6 then 15 else 63) < a.w 20)).find? (·.1) = none →
        (a.w 20 = 0 → (u.half id).targeted q = false) → ((u.half id).acq.seqs.get q).mask = none → Machine.exec (.acqSetMask m) s =
          .next (u.onHalf id (fun h => (h.seqMap q (fun x => { x with mask := some (a.w 20, a.seq, a.silent) })).maskApply q))) ∧
      (∀ t : Fin 32, acqItem m = 1 → a.b 18 = t.1 → (acq a u (65535 < a.w 20)).find? (·.1) = none →
        Machine.exec (.acqSetDelay m) s = .next ((u.putReg (.trgCfg1 id t) (put (a.w 20) 16 16)).done a 0 [])) ∧
      (acqItem m = 2 → (acq a u (4 < a.w 20 || !(u.half id).stepFits (a.w 20))).find? (·.1) = none →
        Machine.exec (.acqSetStep m) s = .next ((u.halfMap id (fun h => { h with acq := { h.acq with
          aclkNew := some ((h.acq.aclkNew.getD h.acq.aclk &&& 0x8FFFFFFF#32) ||| put (a.w 20) 3 28) } })).done a 0 [])) ∧
      (∀ n : Fin 4, acqItem m = 3 → a.b 18 = n.1 →
        (acq a u (a.w 20 < 400 || 16777215 < a.w 20 || (acqTmrFsync ((u.half id).acq.tmr.get n) && 8000 % a.w 20 ≠ 0))).find? (·.1) = none →
        Machine.exec (.acqSetPeriod m) s = .next ((u.halfMap id (fun h => { h with acq := { h.acq with
          tmrNew := put1 h.acq.tmrNew n (some ((h.acq.tmr.get n &&& 0xC0000000#32) ||| put (a.w 20) 24 0)) } })).done a 0 []))) ∧
    (∀ k : Fin 24, let a := msgAsk 3 0x40 m; let u := taken 3 0x40 m s;
      Heard 3 0x40 (fun _ => 32) m s → a.b 16 = k.1 + 1 → u.basic 5 = false → a.dirty 17 3 = false → clWordsBad k (a.reg 20) (a.reg 24) = false →
      (∀ id : HalfId, (u.half id).clRefused (u.a.ana.lanes.toList ++ u.b.ana.lanes.toList) (k.1 + 1) (a.reg 24) = false) →
      let t := (u.hubMap (fun x => { x with cl := upd x.cl k (ClSt.set (a.reg 20) (a.reg 24)) })).publish k;
      let t1 := if (t.hub.cl.get k).limit && !(u.hub.cl.get k).limit then t.raiseHub 0x74 locHub else t;
      Machine.exec (.clSet m) s = .next (if t1.combineBad.isEmpty then t1.done a 0 [] else u.done a 0x101 (comboPayload t1.combineBad))) ∧
    (∀ g : Fin 2, let a := msgAsk 3 0x50 m; let u := taken 3 0x50 m s; let id := halfOf (a.b 16);
      Heard 3 0x50 (fun _ => 252) m s → a.b 17 = g.1 → u.basic 6 = false → u.noHalf (a.b 16) = false → a.loadBad = false →
      (u.half id).loadRefused g (a.b 18 % 16) a.program (a.engCfgs g) = false → (u.half id).claimable (loadPins (a.engCfgs g)) = true → u.claimWaits id (loadPins (a.engCfgs g)) = false →
      let t := u.onHalf id (fun h => (h.claimAll (loadPins (a.engCfgs g))).loadShadow g a.program ⟨a.b 18 % 16, a.engCfgs g, 128 ≤ a.b 18,
        if 128 ≤ a.b 18 then some (u.now + a.h 20 * etPerMs) else none, (a.seq, a.silent)⟩)
      Machine.exec (.progLoad m) s = .next (if t.combineBad.isEmpty then t else u.done a 0x101 (comboPayload t.combineBad))) ∧
    (∀ g : Fin 2, let a := msgAsk 3 0x51 m; let u := taken 3 0x51 m s; let st := (ctlMasks m).1; let ha := (ctlMasks m).2.1; let cl := (ctlMasks m).2.2; let align := a.b 19 % 2 = 1;
      let w := put (a.b 18) 8 24 ||| put (a.b 19 / 16) 4 20 ||| putB align 19;
      let t := u.onHalf (halfOf (a.b 16)) (fun h => h.slgCtl g w (a.seq, true));
      let r : Host.Outcome State Fault Refusal := .next (if align then t else t.done a 0 []);
      Heard 3 0x51 (fun _ => 24) m s → a.b 17 = g.1 → u.basic 6 = false → u.reach (halfOf (a.b 16)) = true → a.b 16 ≤ 1 → a.b 19 / 2 % 8 = 0 →
      (st ≠ 0 → Machine.exec (.sluiceStart m) s = r) ∧ (ha ≠ 0 → Machine.exec (.sluiceHalt m) s = r) ∧
        (cl ≠ 0 → Machine.exec (.sluiceClockRestart m) s = r)) ∧
    (∀ e : Fin 8, let a := msgAsk 3 0x52 m; let u := taken 3 0x52 m s; let id := halfOf (a.b 16);
      let n := min (a.b 18) (64 - ((u.half id).eng e).txb.length); let got := ((u.half id).eng e).rxb.take (a.b 19);
      Heard 3 0x52 (fun a => 24 + 4 * a.b 18) m s → a.b 17 = e.1 → u.basic 6 = false → u.reach id = true → a.b 16 ≤ 1 → a.b 18 ≤ 64 → a.b 19 ≤ 64 →
      Machine.exec (.sluiceXfer m) s = .next ((u.halfMap id (Half.sleMap e (fun x => { x with
        txb := x.txb ++ (List.range n).map (fun i => a.reg (20 + 4 * i)), rxb := x.rxb.drop got.length }))).done a 0
          (le 1 n ++ le 1 got.length ++ zeros 2 ++ got.flatMap leW))) ∧
    Runs (.pinClaim m) 3 0x60 (fun _ => 24) m s (fun a u => let d := (pinOf (a.b 16) (a.b 17)).1
      [(a.b 18 = 4 && u.basic 6, 0x100), (!pinBad (a.b 16) (a.b 17) && !u.reach d, 0x103), (pinBad (a.b 16) (a.b 17) || (a.b 18 ≠ 4 && a.b 18 ≠ 5) ||
        (a.b 18 = 4 && a.b 19 / 8 ≠ d.num) || (a.b 18 = 5 && a.b 19 ≠ 0), 0x104)])
      (fun a u => u.hubMap (fun x => { x with jobs := x.jobs ++ [⟨3, a.seq, [],
        [.claim (pinOf (a.b 16) (a.b 17)).1 (pinOf (a.b 16) (a.b 17)).2 (a.b 18) (a.b 19 % 8)]⟩] })) ∧
    Runs (.pinRelease m) 3 0x61 (fun _ => 24) m s (fun a u => let p := pinOf (a.b 16) (a.b 17); let bad := pinBad (a.b 16) (a.b 17)
      [(!bad && !u.reach p.1, 0x103), (bad || a.dirty 18 2, 0x104), ((u.half p.1).inWindow p.2, 0x124)])
      (fun a u => (u.onHalf (pinOf (a.b 16) (a.b 17)).1 (Half.setClaim (pinOf (a.b 16) (a.b 17)).2 none)).done a 0 []) ∧
    (let a := msgAsk 3 0x62 m; let u := taken 3 0x62 m s; let p := pinOf (a.b 16) (a.b 17);
      let job (w : Job) : State := u.hubMap (fun x => { x with jobs := x.jobs ++ [⟨3, a.seq, [], [w]⟩] });
      Heard 3 0x62 (fun _ => 24) m s → pinBad (a.b 16) (a.b 17) = false → a.b 18 ≤ 1 → a.b 19 ≤ 1 → (a.b 16 = 0 → a.b 19 = 0) →
      u.reach p.1 = true → (u.half p.1).isGpio p.2 = true →
      (∀ n : Fin 16, p.2 = n.1 → Machine.exec (.gpioSet m) s = .next (job (.gpioSl p.1 n (a.b 18 = 1) (a.b 19 = 1)))) ∧
      (∀ n : Fin 48, p.2 = 16 + n.1 → Machine.exec (.gpioSet m) s = .next (job (.gpioEv p.1 n (a.b 18 = 1)))))

/-- Accepted, with none of its conditions: WHEEL_DIAG waits for its edges or a second; STATUS_READ answers a block's registers
and clears what reading clears; FAULT_READ and SENSOR_READ answer their entries; CAL_ALIGN and CAL_TWIST start the run they name,
CAL_ABORT ends both, CAL_APPLY applies a kept result; a SESSION opens to its timeout or closes, and closes when the timeout is
reached; SLICE_CAL waits for its group's next step; TDAC_TEST starts a test where none runs, MANUAL answering at its start;
TDAC_STOP ends MANUAL. (R148, R149, R298, R299, R441, R442, R443, R444, R445, R465) -/
def Obligations.StatusAndCalibrationMailbox : Prop :=
  ∀ (m : Msg) (id : HalfId) (s : State),
    Runs (.wheelDiag m) 4 1 (fun _ => 24) m s (fun a u => [(u.noHalf (a.b 16), 0x103), (1 < a.b 16 || 5 < a.b 17 || 32 < a.b 18 || a.dirty 19 1, 0x104)])
      (fun a u => (u.calMap (fun c => { c with diags := c.diags ++ [⟨(a.seq, a.silent), halfOf (a.b 16), Inp.ofCode (a.b 17), a.b 18, [], u.now + etPerSec⟩] })).diagsDone) ∧
    Runs (.statusRead m) 4 2 (fun _ => 24) m s (fun a u => [(u.noHalf (a.b 16), 0x103), (2 < a.b 16 || 9 < a.b 17 || a.dirty 18 2 || ((a.b 16 = 2) != (8 ≤ a.b 17)), 0x104)])
      (fun a u => let rs := blockRegs (halfOf (a.b 16)) (a.b 17)
        (eachOf rs State.clearRc u).done a 0 (le 2 rs.length ++ zeros 2 ++ rs.flatMap (fun r => leW (u.reg r)))) ∧
    Runs (.faultRead m) 4 3 (fun _ => 24) m s (fun a u => [(!u.reaches bothHalves, 0x103), (a.h 18 < 1 || 80 < a.h 18, 0x104)])
      (fun a u => u.done a 0 (((fltOrder.filter (fun x => a.h 16 ≤ x.1)).take (a.h 18)).flatMap (fun x => u.fltEntry x))) ∧
    Runs (.calAlign m) 4 0x10 (fun _ => 20) m s (fun _ u => [(!u.reaches bothHalves, 0x103), (u.hub.cal.align.isSome, 0x107)])
      (fun a u => u.calMap (fun c => { c with align := some ⟨(a.seq, a.silent), 0, (u.half u.primary).cyc, 0, 0, 0, 0, 0⟩ })) ∧
    (let a := msgAsk 4 0x11 m; let u := taken 4 0x11 m s; let cyls := maskCyls (a.b 20 + 256 * a.b 21 + 65536 * a.b 22);
      Heard 4 0x11 (fun _ => 32) m s → u.reaches bothHalves = true → a.b 16 = 0 → a.b 17 = 1 → 8 ≤ a.b 18 → cyls ≠ [] → a.dirty 23 1 = false →
      a.h 24 ≤ 2000 → 1 ≤ a.h 26 → a.h 26 ≤ 3600 → (∀ c ∈ cyls, u.twistHalves c ≠ [] ∧ u.fineLane c = true) → u.hub.cal.twist = none →
      Machine.exec (.calTwist m) s = .next (u.calMap (fun x => { x with twist := some ⟨(a.seq, a.silent), false, a.b 18, a.b 19, cyls, a.h 24,
        u.now + a.h 26 * etPerSec, [], [], [], none⟩ }))) ∧
    (∀ r, let a := msgAsk 4 0x12 m; let u := taken 4 0x12 m s;
      Heard 4 0x12 (fun _ => 28) m s → u.reaches bothHalves = true → a.dirty 23 1 = false → u.hub.cal.res.find? (fun r => r.id = a.w 16) = some r →
      r.align = none ∨ u.stopped = true →
      Machine.exec (.calApply m) s = .next ((u.applyResult r (maskCyls (a.b 20 + 256 * a.b 21 + 65536 * a.b 22))).done a 0 [])) ∧
    Runs (.calAbort m) 4 0x13 (fun _ => 20) m s (fun _ _ => []) (fun a u => u.calCancel.done a 0 []) ∧
    (let a := msgAsk 4 0x20 m; let u := taken 4 0x20 m s; let ids := sessionHalves (a.b 16);
      let r (v : Option Nat) : Host.Outcome State Fault Refusal :=
        .next ((eachOf ids (fun id t => t.halfMap id (Half.acqMap (fun x => { x with session := v }))) u).done a 0 []);
      Heard 4 0x20 (fun _ => 24) m s → u.reaches ids = true → a.b 16 ≤ 3 →
      (a.b 17 = 1 → 1 ≤ a.h 18 → a.h 18 ≤ 600 → Machine.exec (.sessionOpen m) s = r (some (u.now + a.h 18 * etPerSec))) ∧
      (a.b 17 = 0 → Machine.exec (.sessionClose m) s = r none)) ∧
    (∀ t, s.live id = true → (s.half id).acq.session = some t → Machine.exec (.sessionTimeout id) s =
      .next ((s.advanceTo t).onHalf id (fun h => { h with acq := { h.acq with session := none } }))) ∧
    (∀ g : Fin 3, let a := msgAsk 4 0x21 m; let u := taken 4 0x21 m s;
      Heard 4 0x21 (fun _ => 24) m s → u.noHalf (a.b 16) = false → a.b 16 ≤ 1 → a.b 17 = g.1 → a.b 18 < grpN g ∨ a.b 18 = 15 → a.dirty 19 1 = false →
      Machine.exec (.sliceCal m) s = .next (u.halfMap (halfOf (a.b 16)) (Half.calMap g (fun c => { c with
        asked := c.asked ++ [(if a.b 18 = 15 then grpN g else a.b 18, a.seq, a.silent)] })))) ∧
    (let a := msgAsk 4 0x22 m; let u := taken 4 0x22 m s; let d := halfOf (a.b 16); let t := (u.half d).acq.tdac;
      let w := putB true 31 ||| put (a.b 18) 2 29 ||| put (a.b 17) 6 23 ||| put (a.h 20) 12 11;
      let go (rq : Option (BitVec 16 × Bool)) : State :=
        (u.setHalf ({ u.half d with acq := { (u.half d).acq with tdac := { t with cfg := w, busy := true, req := rq } } } : Half).holds d).flush;
      Heard 4 0x22 (fun _ => 28) m s → u.noHalf (a.b 16) = false → a.b 16 ≤ 1 → a.b 17 ≤ 47 → a.dirty 19 1 = false → a.h 20 ≤ 4095 → a.dirty 22 2 = false →
      t.busy = false → tdacNeeds (a.b 18) (a.b 17) = false ∨ (u.half d).fg.latch = true ∨ (u.half d).trk.st = 0 →
      (a.b 18 = 0 → Machine.exec (.tdacOpenShort m) s = .next (go (some (a.seq, a.silent)))) ∧
      (a.b 18 = 1 → Machine.exec (.tdacGain m) s = .next (go (some (a.seq, a.silent)))) ∧
      (a.b 18 = 2 → Machine.exec (.tdacManual m) s = .next ((go none).done a 0 (zeros 4)))) ∧
    Runs (.tdacStop m) 4 0x23 (fun _ => 24) m s (fun a u => [(u.noHalf (a.b 16), 0x103), (1 < a.b 16 || a.dirty 17 3, 0x104)])
      (fun a u => (u.onHalf (halfOf (a.b 16)) Half.tdacStop).done a 0 []) ∧
    Runs (.sensorRead m) 4 0x30 (fun _ => 24) m s (fun a u => let xs := (u.sources.zipIdx.drop (a.b 16)).take (a.b 17)
      [(!u.reaches (xs.map (fun x => x.1.2.1.half)), 0x103), (a.b 17 < 1 || 60 < a.b 17 || a.dirty 18 2, 0x104)])
      (fun a u => u.done a 0 (((u.sources.zipIdx.drop (a.b 16)).take (a.b 17)).flatMap (fun x => u.libEntry x.2 x.1)))

/-- Accepted: TELEM_SET sets the selection, 0 stops it; TARN_INFO answers the ends of the rings. RECORD_READ names with CYL 0 the
newest record of any cylinder, else one of the cylinder; CONT_IDX above its NCONT is PARAM_RANGE; a target that is gone or lost
is TARN_GONE, else its bytes are the answer. TRACE_READ and TOOTHLOG_READ answer bytes and entries, or TARN_GONE where the block
or the entries have been overwritten. (R447) -/
def Obligations.RecordsMailbox : Prop :=
  ∀ (m : Msg) (s : State),
    Runs (.telemSet m) 5 1 (fun _ => 28) m s (fun a _ => [(15 < a.b 16 || 2 < a.b 17, 0x104)])
      (fun a u => (u.hubMap (fun x => { x with tel := ⟨if a.b 16 = 0 then none else some (a.b 16, a.b 17, a.h 18, a.w 20),
        x.tarn.recN, x.tarn.blockW, x.tarn.toothN, none, x.frame, x.frame, false⟩ })).done a 0 []) ∧
    (∃ pay : State → List Byte, Runs (.tarnInfo m) 5 2 (fun _ => 20) m s (fun _ _ => []) (fun a u => u.done a 0 (pay u)) ∧ ∀ u, (pay u).length = 28) ∧
    Runs (.recordRead m) 5 3 (fun _ => 28) m s
      (fun a u => let t := u.hub.tarn; let base := t.named (a.b 16) (a.w 20)
        [(24 < a.b 16 || a.dirty 18 2 || base.any (fun r => byteAt r.bytes 37 < a.b 17), 0x104),
          ((base.bind (fun r => t.recs.find? (fun x => x.idx = r.idx + a.b 17))).all (·.lost), 0x150)])
      (fun a u => let t := u.hub.tarn
        u.done a 0 ((((t.named (a.b 16) (a.w 20)).bind (fun r => t.recs.find? (fun x => x.idx = r.idx + a.b 17))).map (·.bytes)).getD [])) ∧
    (∀ (t : Tarn) (cyc : Nat), t.named 0 cyc = t.recs.find? (fun r => byteAt r.bytes 0 = 0)) ∧
    Runs (.traceRead m) 5 4 (fun _ => 32) m s
      (fun a u => let b := u.hub.tarn.blocks.find? (fun r => r.idx = a.w 16)
        [(a.h 24 < 2 || 992 < a.h 24 || a.dirty 26 2 || b.any (fun r => r.bytes.length < a.w 20 + a.h 24), 0x104), (b.all (·.lost), 0x150)])
      (fun a u => u.done a 0 (le 4 (a.w 16) ++ le 4 (a.w 20) ++ le 2 (a.h 24) ++ zeros 2 ++
        slice (((u.hub.tarn.blocks.find? (fun r => r.idx = a.w 16)).map (·.bytes)).getD []) (a.w 20) (a.h 24))) ∧
    (let ents (a : Ask) (u : State) : List ToothRec := (u.hub.tarn.teeth.reverse.filter (fun r =>
        r.h = halfOf (a.b 16) && r.inp = (Inp.ofCode (a.b 17)).ix.1 && frameDiff r.frame (a.reg 20) ≥ 0)).take (a.h 18);
      Runs (.toothlogRead m) 5 5 (fun _ => 28) m s
        (fun a u => let t := u.hub.tarn
          [(1 < a.b 16 || 5 < a.b 17 || a.h 18 < 1 || 124 < a.h 18, 0x104),
            ((t.teeth.length < t.toothN && t.teeth.getLast?.any (fun r => frameDiff r.frame (a.reg 20) > 0)) || (ents a u).any (·.lost), 0x150)])
        (fun a u => u.done a 0 (toothPay (ents a u))))

/-- Accepted, with none of its conditions: ATTEST answers digests, serial, boot state, FRAME, the nonce, and their signature;
IDENTITY the keys; OWNER_ENROL, none being enrolled and the authorisation verifying, enrols and logs; CHALLENGE answers a fresh
nonce good for 60 s; JTAG_UNLOCK with a fresh nonce, a verifying signature and the engine stopped opens JTAG for its duration and
uses the nonce up, and JTAG closes then; boundary scan acts on EV pins only while JTAG is open and the half's kill latch is set;
FW_BEGIN erases the idle slot and opens a transfer, FW_CHUNK joins it and writes the slot, FW_COMMIT of a whole, recognised,
verifying image not below the floor makes the slot TRIAL and logs. (R449, R450, R491, R492, R493, R498, R499, R500, R504) -/
def Obligations.SecurityMailbox : Prop :=
  ∀ (m : Msg) (s : State),
    Runs (.attest m) 6 1 (fun _ => 52) m s (fun _ _ => []) (fun a u =>
      u.done a 0 (u.attestBody (a.bytes 16 32) ++ padTo 64 (Config.identitySign (u.attestBody (a.bytes 16 32))))) ∧
    Runs (.identity m) 6 2 (fun _ => 20) m s (fun _ _ => []) (fun a u => u.done a 0 (padTo 32 Config.identityKey ++ padTo 64 Config.endorsement)) ∧
    Runs (.ownerEnrol m) 6 3 (fun _ => 116) m s
      (fun a u => [(u.hub.flash.owner.isSome, 0x161),
        (!Config.ed25519Ok Config.rootKey (le 8 Config.serial ++ a.bytes 16 32) (a.bytes 48 64), 0x160)])
      (fun a u => ((u.flashMap (fun f => { f with owner := some (a.bytes 16 32) })).log 0x32 0 0 u.hub.frame (keyId (a.bytes 16 32))).done a 0 []) ∧
    Runs (.challenge m) 6 4 (fun _ => 20) m s (fun _ _ => []) (fun a u =>
      let n := nonceBytes u.hub.sec.count;
      (u.hubMap (fun x => { x with sec := { x.sec with
        nonces := (n, u.now) :: x.sec.nonces.filter (fun y => u.now ≤ y.2 + 60 * etPerSec), count := x.sec.count + 1 } })).done a 0 n) ∧
    Runs (.jtagUnlock m) 6 5 (fun _ => 104) m s
      (fun a u => [(a.w 32 < 1 || 86400 < a.w 32, 0x104),
        (!u.hub.sec.nonces.any (fun x => x.1 = a.bytes 16 16 && decide (u.now ≤ x.2 + 60 * etPerSec)), 0x162), (!u.unlockOk a, 0x160), (!u.stopped, 0x102)])
      (fun a u => ((u.hubMap (fun x => { x with sec := { x.sec with
        nonces := x.sec.nonces.filter (fun y => y.1 ≠ a.bytes 16 16), jtag := some (u.now, u.now + a.w 32 * etPerSec) } })).log 0x33 0 0 u.hub.frame (le 4 (a.w 32))).done a 0 []) ∧
    (∀ f t, s.clocked = true → s.hub.sec.jtag = some (f, t) → Machine.exec .jtagClose s = .next ((s.advanceTo t).jtagShut)) ∧
    (s.hub.sec.jtag = none → s.jtagShut = s) ∧
    Runs (.fwBegin m) 6 0x10 (fun _ => 24) m s (fun a _ => [(8388608 < a.w 16, 0x104)]) (fun a u =>
      ((u.flashMap (fun x => { x with fw := upd x.fw u.idleSlot (fun _ => ⟨0, [], 0⟩) })).cfgMap (fun c => { c with fw := some ⟨a.w 16, []⟩ })).done a 0 []) ∧
    Runs (.fwChunk m) 6 0x11 (fun a => 28 + a.h 20) m s
      (fun a u => [(a.w 16 % 4 ≠ 0 || a.h 20 % 4 ≠ 0 || a.h 20 < 4 || 992 < a.h 20 || a.dirty 22 2, 0x104), (u.hub.cfg.fw.isNone, 0x117),
        (u.hub.cfg.fw.any (fun t => t.len < a.w 16 + a.h 20), 0x104)])
      (fun a u =>
        let x : Option Xfer := u.hub.cfg.fw.map (fun x => { x with chunks := (a.w 16, a.bytes 24 (a.h 20)) :: x.chunks })
        ((u.flashMap (fun y => { y with fw := upd y.fw u.idleSlot (fun f => { f with img := (x.map Xfer.bytes).getD f.img }) })).cfgMap
          (fun c => { c with fw := x })).done a 0 []) ∧
    (∀ (f : HalfId → Fin 48 → Bool) (id : HalfId) (k : Fin 48),
      (s.hub.sec.jtag ≠ none → (s.half id).fg.latch = true → s.scanLevel (some f) id k = f id k) ∧
      (s.hub.sec.jtag = none ∨ (s.half id).fg.latch = false → s.scanLevel (some f) id k = (s.half id).pinLevel k)) ∧
    (let b (u : State) : List Byte := (u.hub.cfg.fw.map Xfer.bytes).getD [];
      Runs (.fwCommit m) 6 0x12 (fun _ => 20) m s
        (fun _ u => [(u.hub.cfg.fw.isNone, 0x117), (!u.hub.cfg.fw.any Xfer.full, 0x110), (!fwHeader (b u), 0x111), (!fwVerify (b u), 0x112), (fwSecver (b u) < u.hub.flash.floor, 0x163)])
        (fun a u => (((u.flashMap (fun x => { x with fw := upd x.fw u.idleSlot (fun _ => ⟨2, b u, 0⟩) })).cfgMap (fun c => { c with fw := none })).log 0x31 0 0
          u.hub.frame (le 1 u.idleSlot.1 ++ le 1 (fwSecver (b u)))).done a 0 (le 1 u.idleSlot.1)))

/-- Accepted, with none of its conditions: SLEEP_NOTICE answers OK, and unless SILENT or another of mailbox 7 waits, the host
sleeps from that completion on; LINK_RESET makes the next frame of each named stream acceptable; RESET, the engine stopped and
its key right, answers OK, notifies, and the reset follows 10 ms later; LOG_READ answers entries from the first asked for. (R384,
R401, R451, R452, R485, R505) -/
def Obligations.ServiceMailbox : Prop :=
  ∀ (m : Msg) (s : State),
    Runs (.sleepNotice m) 7 1 (fun _ => 20) m s (fun _ _ => []) (fun a u => u.done a 0 []) ∧
    (∀ (r : HReq) (u : State) (p : List Byte), r.mb = 7 → r.cmd = 1 → (u.postReq r 0 p).hub.link.asleep = true) ∧
    Runs (.linkReset m) 7 2 (fun _ => 24) m s (fun a _ => [(1 < a.b 17 || a.dirty 18 2, 0x104)]) (fun a u =>
      (u.linkMap (fun l => { l with
        alive := Vector.ofFn (fun i : Fin 8 => if (a.b 16).testBit i.1 then none else l.alive.get i), canAlive := if a.b 17 = 1 then Vector.replicate 24 none else l.canAlive })).done a 0 []) ∧
    Runs (.reset m) 7 3 (fun _ => 28) m s (fun a u => [(a.b 16 ≠ 0 && u.noHalf (a.b 16 - 1), 0x103),
        (2 < a.b 16 || a.dirty 17 3 || a.w 20 ≠ 0x7A5C, 0x104), (!u.stopped, 0x102)]) (fun a u =>
      ((u.done a 0 []).notify).bootMap (fun b => { b with follow := b.follow ++ [(a.b 16, u.now + 10 * etPerMs)] })) ∧
    Runs (.logRead m) 7 4 (fun _ => 28) m s (fun a _ => [(a.h 20 < 1 || 30 < a.h 20 || a.dirty 22 2, 0x104)]) (fun a u =>
      let es := (u.hub.flash.log.reverse.filter (fun e => a.w 16 ≤ e.idx)).take (a.h 20);
      u.done a 0 (le 4 (match es with | e :: _ => e.idx | [] => a.w 16) ++ le 2 es.length ++ zeros 2 ++ es.flatMap LogE.bytes))

/-! ### Clocks, power, boot, resets, registers -/

/-- With the hub running: with PTP_EN a sync takes its offset; the 16th in a row within 1 us locks, one beyond 10 us while LOCKED
goes back to ACQUIRING and raises PTP_UNLOCK; after 3 s without a sync LOCK goes to FREE with PTP_UNLOCK unless PPS has it; with
PPS_IN chosen an edge puts LOCK at PPS; the time map, a second after the last, names FRAME and its reference time; a TCXO failure
raises CLOCK_HOLDOVER once. Nothing else changes. (R33, R34, R404, R405) -/
def Obligations.ReferenceTimeFollowsPtpAndPps : Prop :=
  ∀ (ofs : Int) (sec ns : Nat) (s : State), s.hubOn = true →
    let p := s.hub.ptp
    let n := if ofs.natAbs ≤ 1000 then p.run + 1 else 0
    let put_ (l : Nat) : State := s.ptpMap (fun q => { q with ofs := if q.lock = 3 then q.ofs else satI 30 ofs, run := n, syncAt := some s.now, lock := l })
    (s.hub.link.cfg.ptpEn = true →
      (p.lock ≤ 1 → n < 16 → Machine.exec (.ptpSync ofs) s = .next (put_ 1)) ∧
      (p.lock ≤ 1 → 16 ≤ n → Machine.exec (.ptpSync ofs) s = .next (put_ 2)) ∧
      (p.lock = 2 → ofs.natAbs ≤ 10000 → Machine.exec (.ptpSync ofs) s = .next (put_ 2)) ∧
      (p.lock = 2 → 10000 < ofs.natAbs → Machine.exec (.ptpSync ofs) s = .next ((put_ 1).raiseHub 0x67 locHub)) ∧
      (p.lock = 3 → Machine.exec (.ptpSync ofs) s = .next (put_ 3))) ∧
    (∀ t, p.syncAt = some t →
      let u := s.advanceTo (t + 3 * etPerSec)
      let free (l : Nat) : State := u.ptpMap (fun q => { q with syncAt := none, run := 0, lock := l })
      (u.hub.ptp.lock = 3 → Machine.exec .ptpSyncTimeout s = .next (free 3)) ∧
      (u.hub.ptp.lock ≠ 3 → Machine.exec .ptpSyncTimeout s = .next ((free 0).raiseHub 0x67 locHub))) ∧
    (s.hub.link.cfg.ppsIn = true → Machine.exec (.ppsPulse ofs) s = .next (s.ptpMap (fun q => { q with ppsAt := some s.now, lock := 3, ofs := satI 30 ofs }))) ∧
    (let u := s.advanceTo (p.mapDue s.now)
     Machine.exec (.timeMapWrite sec ns) s = .next (u.ptpMap (fun q => { q with
       mapF := u.hub.frame, mapS := sec % 2 ^ 48, mapNs := ns, mapAt := some u.now }))) ∧
    (p.mapAt = none → p.mapDue s.now = s.now) ∧ (∀ t, p.mapAt = some t → p.mapDue s.now = t + etPerSec) ∧
    (p.hold = false → Machine.exec .tcxoFail s = .next ((s.ptpMap (fun q => { q with hold := true })).raiseHub 0x72 locHub)) ∧
    (p.hold = true → Machine.exec .tcxoFail s = .next s)

/-- With the hub running: V_IN below the next level's threshold (14.0, 12.5, 11.0, 10.0 V) enters that level and raises
SUPPLY_SHED, level 2 deferring the scrub, level 4 switching off the supplies of SS_SHED; 0.5 V above the threshold the level is
left, level 4 queueing the supplies for restart in ascending order, 1 ms apart; the scrub resumes after SCRUB_DEFER seconds; P_IN
above 60 W for 100 ms raises POWER_OVER once; a supply in limit trips, and retries 1 s later. (R263, R264, R265, R489, R521) -/
def Obligations.ShedLevelsSuppliesAndPower : Prop :=
  ∀ (dV : Nat) (n : Fin 24) (s : State), s.hubOn = true →
    let p := s.hub.pwr
    let u := s.pwrMap (fun q => { q with vIn := dV })
    shedThr 1 = 140 ∧ shedThr 2 = 125 ∧ shedThr 3 = 110 ∧ shedThr 4 = 100 ∧
    (∀ k, 1 ≤ k → k ≤ 4 → p.shed + 1 = k → dV < shedThr k →
      let t := (u.setShed k).raiseHub 0x70 locHub
      (k = 1 ∨ k = 3 → Machine.exec (.shedEnter dV) s = .next t) ∧
      (k = 2 → Machine.exec (.shedEnter dV) s = .next (t.pwrMap (fun q => { q with scrub := some t.now }))) ∧
      (k = 4 → Machine.exec (.shedEnter dV) s = .next t.shed4)) ∧
    (∀ k, p.shed = k + 1 → k ≤ 3 → shedThr (k + 1) + 5 ≤ dV →
      let t := u.setShed k
      (k = 0 ∨ k = 2 → Machine.exec (.shedLeave dV) s = .next t) ∧
      (k = 1 → Machine.exec (.shedLeave dV) s = .next (t.pwrMap (fun q => { q with scrub := none }))) ∧
      (k = 3 → Machine.exec (.shedLeave dV) s = .next (t.pwrMap (fun q => { q with
        queue := (idxs 24).filter (fun i => q.off4.get i || q.queue.contains i), stepAt := t.now })))) ∧
    (∀ m rest, p.queue = m :: rest →
      let t := s.advanceTo p.stepAt
      Machine.exec .supplyRestartStep s = .next ((t.pwrMap (fun q => { q with queue := rest, stepAt := t.now + etPerMs })).ssOn m)) ∧
    (∀ t, p.scrub = some t →
      Machine.exec .scrubDeferExpire s = .next ((s.advanceTo (t + pwrCfgScrubDefer p.cfg * etPerSec)).pwrMap (fun q => { q with scrub := none }))) ∧
    (∀ t, p.overAt = some t →
      (p.raised = false → Machine.exec .powerOver s =
        .next (((s.advanceTo (t + 100 * etPerMs)).pwrMap (fun q => { q with raised := true })).raiseHub 0x71 locHub)) ∧
      (p.raised = true → Machine.exec .powerOver s = .next s)) ∧
    (p.on.get n = true → Machine.exec (.ssSupplyTrip n) s =
      .next ((s.pwrMap (fun q => { q with trip := put1 q.trip n true, tripAt := put1 q.tripAt n s.now })).ssOff n false)) ∧
    (p.mayRetry n = true → (∀ m, m ≠ n → p.mayRetry m = false) →
      let t := max s.now (p.retryDue n)
      Machine.exec (.ssSupplyRetry n) s =
        .next (((s.advanceTo t).pwrMap (fun q => { q with retryAt := some t, tripAt := put1 q.tripAt n t })).ssOn n)) ∧
    (p.off4.get n = true → Machine.exec (.ssSupplyRetry n) s = .next s)

/-- Supply with KEY low leaves the module asleep; KEY high at 13.0 V or more starts a cold boot, with the latches set and
RESET_CAUSE recorded. The ROM boots only a slot that verifies and lies at or above the floor, RECOVERY with none; a trial that
has failed after a hub reset resets the module first, with cause BOOT_FALLBACK; stages go 0, 1, 2, then 3 and READY, or NO_CONFIG
without a verified image. A trial confirmed at 60 s is ACTIVE and the floor does not fall. KEY low with both trackers in STOP
starts the wait of 2 s, SHUTDOWN logs and stops the dies; undervoltage logs and stops them. (R481, R482, R483, R484, R485, R488,
R489, R492, R493, R494) -/
def Obligations.SupplyKeyAndBootStages : Prop :=
  ∀ (dV : Nat) (key : Bool) (s : State),
    let b := s.hub.boot
    (s.clocked = false →
      Machine.exec (.supplyApply dV key) s = .next (s.bootMap (fun b => { b with
        v := dV, key := key, cause := 0, prev := 0, count := 0, keyAt := none, next := if key then 1 else 3 })) ∧
      (130 ≤ dV → Machine.exec (.keyHigh dV) s =
        .next (((s.bootMap (fun b => { b with v := dV, key := true, keyAt := none })).allReset).bootMap (fun x => { x.record b.next with awake := true })))) ∧
    (s.clocked = true → Machine.exec (.keyHigh dV) s = .next (s.bootMap (fun b => { b with v := dV, key := true, keyAt := none }))) ∧
    s.allReset.a.fg.latch = true ∧ s.allReset.b.fg.latch = true ∧ s.allReset.hub.flash = s.hub.flash ∧
    (∀ (f g : Flash) (i : Fin 2) (fb : Bool), f.select = (g, some i, fb) → f.boots_ i = true) ∧
    (s.clocked = true → b.stage = 0 → b.picked = false → s.hub.flash.endTrials.2 = true → b.warm = true →
      let v := (s.flashMap (fun f => f.endTrials.1)).moduleReset 13
      v.hub.boot.cause = 13 ∧ v.a.fg.latch = true ∧ v.b.fg.latch = true ∧ Machine.exec .coldBoot s = Machine.exec .coldBoot v) ∧
    (s.clocked = true → b.stage = 0 → b.picked = false → s.hub.flash.endTrials.2 = false ∨ b.warm = false →
      let r := s.hub.flash.endTrials.1.select
      let f : Flash := if b.warm then r.1 else { r.1 with boots := r.1.boots + 1 }
      let u := (s.flashMap (fun _ => f)).bootMap (BootSt.causeOf s.hub.flash.endTrials.2)
      (r.2.1 = none → Machine.exec .coldBoot s = .next (u.bootMap (fun b => { b with stage := 6, since := s.now }))) ∧
      (∀ i, r.2.1 = some i → Machine.exec .coldBoot s = .next (u.bootMap (fun b => { b with
        picked := true, slot := decide (i = 1), trial := decide ((f.fw.get i).st = 2), fwFall := r.2.2 })))) ∧
    (s.clocked = true →
      (b.stage = 0 → b.picked = true → Machine.exec .bootStageAdvance s = .next (s.bootMap (fun b => { b with stage := 1 }))) ∧
      (b.stage = 1 → Machine.exec .bootStageAdvance s = .next (s.bootMap (fun b => { b with stage := 2 }))) ∧
      (b.stage = 2 → s.hub.flash.store.find? (fun x => s.storedOk x) = none → b.warm = false →
        Machine.exec .bootStageAdvance s = .next ((s.startHalves.bootMap (fun b => { b with stage := 5, since := s.now })).logBoot)) ∧
      (∀ x, b.stage = 2 → s.hub.flash.store.find? (fun x => s.storedOk x) = some x → b.warm = false →
        Machine.exec .bootStageAdvance s = .next ((((((s.startHalves.bootImage x).bootMap (fun y => { y with stage := 3 })).fallback x).pwrMap
          (fun p => { p with wheel := true }))).settleStart)) ∧
      (b.stage = 3 → ∃ t, Machine.exec .bootStageAdvance s = .next t ∧ t.hub.boot.stage = 4 ∧
        (b.warm = false → t.hub.pwr.queue = idxs 24 ∧ t.hub.pwr.stepAt = s.now))) ∧
    (s.clocked = true → b.trial = true → b.stage = 4 ∨ b.stage = 5 →
      ∃ t, Machine.exec .trialConfirm s = .next t ∧ t.hub.boot.trial = false ∧ (t.hub.flash.fw.get (if b.slot then 1 else 0)).st = 3 ∧
        (s.advanceTo (b.since + 60 * etPerSec)).hub.flash.floor ≤ t.hub.flash.floor) ∧
    Machine.exec .keyLow s = .next (s.bootMap (fun b => { b with
      key := false, keyAt := if s.clocked && s.stopped then (if b.keyAt.isSome then b.keyAt else some s.now) else none })) ∧
    (∀ t, b.keyAt = some t → s.clocked = true → b.key = false →
      let u := (s.advanceTo (t + 2 * etPerSec)).flashEnds
      Machine.exec .shutdown s = .next ((u.log 0x02 0 0 u.hub.frame (le 2 (sat 16 u.hub.boot.v))).down 3)) ∧
    (s.clocked = true → Machine.exec .undervoltageShutdown s = .next ((s.log 0x03 0 0 s.hub.frame (le 2 (sat 16 b.v))).down 2)) ∧
    (∀ k, (s.down k).hub.boot.awake = false ∧ (s.down k).hub.boot.next = k)

/-- A watchdog of a working core resets its place 1.0 ms after its last service with the core's cause; a requested reset follows
its 10 ms; JTAG, unlocked, resets the module. A corrected error raises ECC_CORRECTED alone; an uncorrectable one raises
ECC_UNCORRECTED and resets its place, marks the Tarn's part lost, or withdraws or clears the slot. Where its place works, a write
changes a register's RW bits, clears RW1C bits written 1 and leaves the rest; a read clears the RC fields. (R4, R17, R73, R148,
R234, R452, R485, R486, R488, R500, R502) -/
def Obligations.ResetsErrorsAndRegisters : Prop :=
  (∀ s : State,
    (s.hubOn = true → Machine.exec (.watchdogExpire .s0) s = .next (s.watchdog 0 (State.hubReset 7)) ∧
      Machine.exec (.watchdogExpire .s1) s = .next (s.watchdog 1 (State.hubReset 7))) ∧
    (s.live .A = true → Machine.exec (.watchdogExpire .stewA) s = .next (s.watchdog 2 (State.halfReset .A 8))) ∧
    (s.live .B = true → Machine.exec (.watchdogExpire .stewB) s = .next (s.watchdog 3 (State.halfReset .B 9))) ∧
    (∀ t i rest, s.clocked = true → s.hub.boot.follow = (t, i) :: rest →
      let u := (s.advanceTo i).bootMap (fun b => { b with follow := rest })
      (t = 0 → Machine.exec .resetFollows s = .next (u.moduleReset 4)) ∧ (t = 1 → Machine.exec .resetFollows s = .next (u.halfReset .A 5)) ∧
        (t = 2 → Machine.exec .resetFollows s = .next (u.halfReset .B 6))) ∧
    (s.clocked = true → s.hub.sec.jtag.isSome = true → Machine.exec .jtagReset s = .next (s.moduleReset 14))) ∧
  (∀ (s : State) (c : Nat), (s.moduleReset c).hub.boot.cause = c ∧ (s.moduleReset c).hub.boot.prev = s.hub.boot.cause ∧
    (s.moduleReset c).hub.boot.stage = 0 ∧ (s.moduleReset c).a.fg.latch = true ∧ (s.moduleReset c).b.fg.latch = true) ∧
  (∀ (a : EccArea) (s : State), s.areaOn a = true →
    Machine.exec (.eccError a true) s = .next (s.eccRaise a 0x75) ∧ Machine.exec (.eccError a false) s = .next ((s.eccRaise a 0x76).eccLost a)) ∧
  (∀ (s : State) (id : HalfId) (k : Fin 1024),
    s.eccLost .hubSram = (s.trialAgain).hubReset 10 ∧ s.eccLost (.localSram .A) = (s.trialAgain).halfReset .A 11 ∧
    s.eccLost (.localSram .B) = (s.trialAgain).halfReset .B 12 ∧ s.eccLost (.slotStore id k) = s.onHalf id (Half.eccSlot k)) ∧
  (∀ (h : Half) (k : Fin 1024), let st := (h.slots.get k).st
    (st = 2 ∨ st = 3 ∨ st = 4 → h.eccSlot k = (h.withdraw k 9).slotMap k (fun s => { s with c := SlotC.zero })) ∧
    (st = 0 ∨ st = 1 ∨ st = 7 → h.eccSlot k = h.slotMap k Slot.wiped) ∧ (st = 5 → h.eccSlot k = h.slotMap k (fun s => { s with spoil := true }))) ∧
  (∀ (r : Reg) (v : Word) (s : State), s.placeOn r = true →
    Machine.exec (.registerWrite r v) s = .next (s.writeReg r v) ∧ Machine.exec (.registerRead r) s = .next (s.clearRc r)) ∧
  (∀ (id : HalfId) (v : Word) (m : Fin 48) (i : Inp) (s : State),
    s.writeReg (.trkCfg0 id) v = s.halfMap id (Half.trkMap (fun x => { x with cfg0 := (x.cfg0 &&& ~~~trkCfg0Rw) ||| (v &&& trkCfg0Rw) })) ∧
    s.writeReg (.schCh id m) v = s.halfMap id (Half.chanMap m (fun x => { x with sch := (x.sch &&& ~~~schChRw) ||| (v &&& schChRw) })) ∧
    s.writeReg (.linkStat id) v = s ∧ s.writeReg .resetCause v = s ∧ s.clearRc (.trkCfg0 id) = s ∧
    s.clearRc (.outStat id m) = s.halfMap id (Half.chanMap m (fun x => { x with edges := 0 })) ∧
    s.clearRc (.wrxEdgeSt id i) = s.halfMap id (Half.rcvMap i (fun x => { x with noise := 0 })))
end

