-- ==== Sys2Proof/Laws/Vectors.lean ====
section
/-! SUPPORT. Reading a vector of which one element has changed. -/

namespace Sys2Proof.Machine

open Sys2Proof

/-- The element that changed. -/
@[simp] theorem upd_get_self {α : Type} {n : Nat} (v : Vector α n) (i : Fin n) (f : α → α) : (upd v i f).get i = f (v.get i) := by
  show (v.set i.1 (f (v.get i)) i.2)[i.1] = _
  simp

/-- Another element. -/
theorem upd_get_ne {α : Type} {n : Nat} (v : Vector α n) (i j : Fin n) (f : α → α) (h : j ≠ i) : (upd v i f).get j = v.get j := by
  show (v.set i.1 (f (v.get i)) i.2)[j.1] = v[j.1]
  rw [Vector.getElem_set_ne]
  exact fun e => h (Fin.ext e.symm)

/-- Any element. -/
theorem upd_get {α : Type} {n : Nat} (v : Vector α n) (i j : Fin n) (f : α → α) :
    (upd v i f).get j = if j = i then f (v.get i) else v.get j := by
  split
  · next h => subst h; exact upd_get_self ..
  · next h => exact upd_get_ne v i j f h

/-- The element that was set. -/
@[simp] theorem put1_get_self {α : Type} {n : Nat} (v : Vector α n) (i : Fin n) (x : α) : (put1 v i x).get i = x := by
  show (v.set i.1 x i.2)[i.1] = _
  simp

/-- Another element. -/
theorem put1_get_ne {α : Type} {n : Nat} (v : Vector α n) (i j : Fin n) (x : α) (h : j ≠ i) : (put1 v i x).get j = v.get j := by
  show (v.set i.1 x i.2)[j.1] = v[j.1]
  rw [Vector.getElem_set_ne]
  exact fun e => h (Fin.ext e.symm)

/-- One element changed twice. -/
@[simp] theorem upd_upd {α : Type} {n : Nat} (v : Vector α n) (i : Fin n) (f g : α → α) : upd (upd v i f) i g = upd v i (fun x => g (f x)) := by
  have h : (upd v i f).get i = f (v.get i) := upd_get_self v i f
  show (upd v i f).set i.1 (g ((upd v i f).get i)) i.2 = v.set i.1 (g (f (v.get i))) i.2
  rw [h]
  show (v.set i.1 _ i.2).set i.1 _ i.2 = _
  simp

end Sys2Proof.Machine
end

