-- ==== Sys2Proof/Laws/State.lean ====
section
/-! SUPPORT. What each named update of the state leaves alone and what it puts in place: one lemma per field and update, so
that no proof unfolds a record update. -/

namespace Sys2Proof.Machine

open Sys2Proof

/-! ### The module -/

@[simp] theorem State.half_A (s : State) : s.half .A = s.a := rfl
@[simp] theorem State.half_B (s : State) : s.half .B = s.b := rfl
@[simp] theorem State.setHalf_half (s : State) (h : Half) (id : HalfId) : (s.setHalf h id).half id = h := by cases id <;> rfl
theorem State.setHalf_other (s : State) (h : Half) (id j : HalfId) (n : j ≠ id) : (s.setHalf h id).half j = s.half j := by
  cases id <;> cases j <;> first | rfl | exact absurd rfl n
@[simp] theorem State.setHalf_self (s : State) (id : HalfId) : s.setHalf (s.half id) id = s := by cases id <;> rfl
@[simp] theorem State.setHalf_setHalf (s : State) (h k : Half) (id : HalfId) : (s.setHalf h id).setHalf k id = s.setHalf k id := by
  cases id <;> rfl
@[simp] theorem State.setHalf_A (s : State) (h : Half) : s.setHalf h .A = { s with a := h } := rfl
@[simp] theorem State.setHalf_B (s : State) (h : Half) : s.setHalf h .B = { s with b := h } := rfl
@[simp] theorem State.setHalf_hub (s : State) (h : Half) (id : HalfId) : (s.setHalf h id).hub = s.hub := by cases id <;> rfl
@[simp] theorem State.setHalf_now (s : State) (h : Half) (id : HalfId) : (s.setHalf h id).now = s.now := by cases id <;> rfl
@[simp] theorem State.setHalf_freeCtr (s : State) (h : Half) (id : HalfId) : (s.setHalf h id).freeCtr = s.freeCtr := by cases id <;> rfl
@[simp] theorem State.setHalf_kept (s : State) (h : Half) (id : HalfId) : (s.setHalf h id).kept = s.kept := by cases id <;> rfl
@[simp] theorem State.setHalf_pending (s : State) (h : Half) (id : HalfId) : (s.setHalf h id).pending = s.pending := by cases id <;> rfl

/-! ### The hub -/

@[simp] theorem State.hubMap_hub (s : State) (f : Hub → Hub) : (s.hubMap f).hub = f s.hub := rfl
@[simp] theorem State.hubMap_a (s : State) (f : Hub → Hub) : (s.hubMap f).a = s.a := rfl
@[simp] theorem State.hubMap_b (s : State) (f : Hub → Hub) : (s.hubMap f).b = s.b := rfl
@[simp] theorem State.hubMap_now (s : State) (f : Hub → Hub) : (s.hubMap f).now = s.now := rfl
@[simp] theorem State.hubMap_freeCtr (s : State) (f : Hub → Hub) : (s.hubMap f).freeCtr = s.freeCtr := rfl
@[simp] theorem State.hubMap_kept (s : State) (f : Hub → Hub) : (s.hubMap f).kept = s.kept := rfl
@[simp] theorem State.hubMap_pending (s : State) (f : Hub → Hub) : (s.hubMap f).pending = s.pending := rfl
@[simp] theorem State.hubMap_half (s : State) (f : Hub → Hub) (id : HalfId) : (s.hubMap f).half id = s.half id := by cases id <;> rfl
@[simp] theorem State.linkMap_hub (s : State) (f : HostLink → HostLink) : (s.linkMap f).hub = { s.hub with link := f s.hub.link } := rfl
@[simp] theorem State.linkMap_a (s : State) (f : HostLink → HostLink) : (s.linkMap f).a = s.a := rfl
@[simp] theorem State.linkMap_b (s : State) (f : HostLink → HostLink) : (s.linkMap f).b = s.b := rfl
@[simp] theorem State.linkMap_now (s : State) (f : HostLink → HostLink) : (s.linkMap f).now = s.now := rfl
@[simp] theorem State.linkMap_freeCtr (s : State) (f : HostLink → HostLink) : (s.linkMap f).freeCtr = s.freeCtr := rfl
@[simp] theorem State.linkMap_kept (s : State) (f : HostLink → HostLink) : (s.linkMap f).kept = s.kept := rfl
@[simp] theorem State.linkMap_pending (s : State) (f : HostLink → HostLink) : (s.linkMap f).pending = s.pending := rfl
@[simp] theorem State.linkMap_half (s : State) (f : HostLink → HostLink) (id : HalfId) : (s.linkMap f).half id = s.half id := by cases id <;> rfl
@[simp] theorem State.fgMap_hub (s : State) (f : FgHub → FgHub) : (s.fgMap f).hub = { s.hub with fg := f s.hub.fg } := rfl
@[simp] theorem State.fgMap_a (s : State) (f : FgHub → FgHub) : (s.fgMap f).a = s.a := rfl
@[simp] theorem State.fgMap_b (s : State) (f : FgHub → FgHub) : (s.fgMap f).b = s.b := rfl
@[simp] theorem State.fgMap_now (s : State) (f : FgHub → FgHub) : (s.fgMap f).now = s.now := rfl
@[simp] theorem State.fgMap_freeCtr (s : State) (f : FgHub → FgHub) : (s.fgMap f).freeCtr = s.freeCtr := rfl
@[simp] theorem State.fgMap_kept (s : State) (f : FgHub → FgHub) : (s.fgMap f).kept = s.kept := rfl
@[simp] theorem State.fgMap_pending (s : State) (f : FgHub → FgHub) : (s.fgMap f).pending = s.pending := rfl
@[simp] theorem State.fgMap_half (s : State) (f : FgHub → FgHub) (id : HalfId) : (s.fgMap f).half id = s.half id := by cases id <;> rfl
@[simp] theorem State.tarnMap_hub (s : State) (f : Tarn → Tarn) : (s.tarnMap f).hub = { s.hub with tarn := f s.hub.tarn } := rfl
@[simp] theorem State.tarnMap_a (s : State) (f : Tarn → Tarn) : (s.tarnMap f).a = s.a := rfl
@[simp] theorem State.tarnMap_b (s : State) (f : Tarn → Tarn) : (s.tarnMap f).b = s.b := rfl
@[simp] theorem State.tarnMap_now (s : State) (f : Tarn → Tarn) : (s.tarnMap f).now = s.now := rfl
@[simp] theorem State.tarnMap_freeCtr (s : State) (f : Tarn → Tarn) : (s.tarnMap f).freeCtr = s.freeCtr := rfl
@[simp] theorem State.tarnMap_kept (s : State) (f : Tarn → Tarn) : (s.tarnMap f).kept = s.kept := rfl
@[simp] theorem State.tarnMap_pending (s : State) (f : Tarn → Tarn) : (s.tarnMap f).pending = s.pending := rfl
@[simp] theorem State.tarnMap_half (s : State) (f : Tarn → Tarn) (id : HalfId) : (s.tarnMap f).half id = s.half id := by cases id <;> rfl
@[simp] theorem State.recsMap_hub (s : State) (f : Recs → Recs) : (s.recsMap f).hub = { s.hub with recs := f s.hub.recs } := rfl
@[simp] theorem State.recsMap_a (s : State) (f : Recs → Recs) : (s.recsMap f).a = s.a := rfl
@[simp] theorem State.recsMap_b (s : State) (f : Recs → Recs) : (s.recsMap f).b = s.b := rfl
@[simp] theorem State.recsMap_now (s : State) (f : Recs → Recs) : (s.recsMap f).now = s.now := rfl
@[simp] theorem State.recsMap_freeCtr (s : State) (f : Recs → Recs) : (s.recsMap f).freeCtr = s.freeCtr := rfl
@[simp] theorem State.recsMap_kept (s : State) (f : Recs → Recs) : (s.recsMap f).kept = s.kept := rfl
@[simp] theorem State.recsMap_pending (s : State) (f : Recs → Recs) : (s.recsMap f).pending = s.pending := rfl
@[simp] theorem State.recsMap_half (s : State) (f : Recs → Recs) (id : HalfId) : (s.recsMap f).half id = s.half id := by cases id <;> rfl
@[simp] theorem State.weirMap_hub (s : State) (f : WeirSt → WeirSt) : (s.weirMap f).hub = { s.hub with weir := f s.hub.weir } := rfl
@[simp] theorem State.weirMap_a (s : State) (f : WeirSt → WeirSt) : (s.weirMap f).a = s.a := rfl
@[simp] theorem State.weirMap_b (s : State) (f : WeirSt → WeirSt) : (s.weirMap f).b = s.b := rfl
@[simp] theorem State.weirMap_now (s : State) (f : WeirSt → WeirSt) : (s.weirMap f).now = s.now := rfl
@[simp] theorem State.weirMap_freeCtr (s : State) (f : WeirSt → WeirSt) : (s.weirMap f).freeCtr = s.freeCtr := rfl
@[simp] theorem State.weirMap_kept (s : State) (f : WeirSt → WeirSt) : (s.weirMap f).kept = s.kept := rfl
@[simp] theorem State.weirMap_pending (s : State) (f : WeirSt → WeirSt) : (s.weirMap f).pending = s.pending := rfl
@[simp] theorem State.weirMap_half (s : State) (f : WeirSt → WeirSt) (id : HalfId) : (s.weirMap f).half id = s.half id := by cases id <;> rfl
@[simp] theorem State.calMap_hub (s : State) (f : CalSvc → CalSvc) : (s.calMap f).hub = { s.hub with cal := f s.hub.cal } := rfl
@[simp] theorem State.calMap_a (s : State) (f : CalSvc → CalSvc) : (s.calMap f).a = s.a := rfl
@[simp] theorem State.calMap_b (s : State) (f : CalSvc → CalSvc) : (s.calMap f).b = s.b := rfl
@[simp] theorem State.calMap_now (s : State) (f : CalSvc → CalSvc) : (s.calMap f).now = s.now := rfl
@[simp] theorem State.calMap_freeCtr (s : State) (f : CalSvc → CalSvc) : (s.calMap f).freeCtr = s.freeCtr := rfl
@[simp] theorem State.calMap_kept (s : State) (f : CalSvc → CalSvc) : (s.calMap f).kept = s.kept := rfl
@[simp] theorem State.calMap_pending (s : State) (f : CalSvc → CalSvc) : (s.calMap f).pending = s.pending := rfl
@[simp] theorem State.calMap_half (s : State) (f : CalSvc → CalSvc) (id : HalfId) : (s.calMap f).half id = s.half id := by cases id <;> rfl
@[simp] theorem State.bootMap_hub (s : State) (f : BootSt → BootSt) : (s.bootMap f).hub = { s.hub with boot := f s.hub.boot } := rfl
@[simp] theorem State.bootMap_a (s : State) (f : BootSt → BootSt) : (s.bootMap f).a = s.a := rfl
@[simp] theorem State.bootMap_b (s : State) (f : BootSt → BootSt) : (s.bootMap f).b = s.b := rfl
@[simp] theorem State.bootMap_now (s : State) (f : BootSt → BootSt) : (s.bootMap f).now = s.now := rfl
@[simp] theorem State.bootMap_freeCtr (s : State) (f : BootSt → BootSt) : (s.bootMap f).freeCtr = s.freeCtr := rfl
@[simp] theorem State.bootMap_kept (s : State) (f : BootSt → BootSt) : (s.bootMap f).kept = s.kept := rfl
@[simp] theorem State.bootMap_pending (s : State) (f : BootSt → BootSt) : (s.bootMap f).pending = s.pending := rfl
@[simp] theorem State.bootMap_half (s : State) (f : BootSt → BootSt) (id : HalfId) : (s.bootMap f).half id = s.half id := by cases id <;> rfl
@[simp] theorem State.flashMap_hub (s : State) (f : Flash → Flash) : (s.flashMap f).hub = { s.hub with flash := f s.hub.flash } := rfl
@[simp] theorem State.flashMap_a (s : State) (f : Flash → Flash) : (s.flashMap f).a = s.a := rfl
@[simp] theorem State.flashMap_b (s : State) (f : Flash → Flash) : (s.flashMap f).b = s.b := rfl
@[simp] theorem State.flashMap_now (s : State) (f : Flash → Flash) : (s.flashMap f).now = s.now := rfl
@[simp] theorem State.flashMap_freeCtr (s : State) (f : Flash → Flash) : (s.flashMap f).freeCtr = s.freeCtr := rfl
@[simp] theorem State.flashMap_kept (s : State) (f : Flash → Flash) : (s.flashMap f).kept = s.kept := rfl
@[simp] theorem State.flashMap_pending (s : State) (f : Flash → Flash) : (s.flashMap f).pending = s.pending := rfl
@[simp] theorem State.flashMap_half (s : State) (f : Flash → Flash) (id : HalfId) : (s.flashMap f).half id = s.half id := by cases id <;> rfl
@[simp] theorem State.cfgMap_hub (s : State) (f : CfgSt → CfgSt) : (s.cfgMap f).hub = { s.hub with cfg := f s.hub.cfg } := rfl
@[simp] theorem State.cfgMap_a (s : State) (f : CfgSt → CfgSt) : (s.cfgMap f).a = s.a := rfl
@[simp] theorem State.cfgMap_b (s : State) (f : CfgSt → CfgSt) : (s.cfgMap f).b = s.b := rfl
@[simp] theorem State.cfgMap_now (s : State) (f : CfgSt → CfgSt) : (s.cfgMap f).now = s.now := rfl
@[simp] theorem State.cfgMap_freeCtr (s : State) (f : CfgSt → CfgSt) : (s.cfgMap f).freeCtr = s.freeCtr := rfl
@[simp] theorem State.cfgMap_kept (s : State) (f : CfgSt → CfgSt) : (s.cfgMap f).kept = s.kept := rfl
@[simp] theorem State.cfgMap_pending (s : State) (f : CfgSt → CfgSt) : (s.cfgMap f).pending = s.pending := rfl
@[simp] theorem State.cfgMap_half (s : State) (f : CfgSt → CfgSt) (id : HalfId) : (s.cfgMap f).half id = s.half id := by cases id <;> rfl
@[simp] theorem State.pwrMap_hub (s : State) (f : Pwr → Pwr) : (s.pwrMap f).hub = { s.hub with pwr := f s.hub.pwr } := rfl
@[simp] theorem State.pwrMap_a (s : State) (f : Pwr → Pwr) : (s.pwrMap f).a = s.a := rfl
@[simp] theorem State.pwrMap_b (s : State) (f : Pwr → Pwr) : (s.pwrMap f).b = s.b := rfl
@[simp] theorem State.pwrMap_now (s : State) (f : Pwr → Pwr) : (s.pwrMap f).now = s.now := rfl
@[simp] theorem State.pwrMap_freeCtr (s : State) (f : Pwr → Pwr) : (s.pwrMap f).freeCtr = s.freeCtr := rfl
@[simp] theorem State.pwrMap_kept (s : State) (f : Pwr → Pwr) : (s.pwrMap f).kept = s.kept := rfl
@[simp] theorem State.pwrMap_pending (s : State) (f : Pwr → Pwr) : (s.pwrMap f).pending = s.pending := rfl
@[simp] theorem State.pwrMap_half (s : State) (f : Pwr → Pwr) (id : HalfId) : (s.pwrMap f).half id = s.half id := by cases id <;> rfl
@[simp] theorem State.ptpMap_hub (s : State) (f : PtpSt → PtpSt) : (s.ptpMap f).hub = { s.hub with ptp := f s.hub.ptp } := rfl
@[simp] theorem State.ptpMap_a (s : State) (f : PtpSt → PtpSt) : (s.ptpMap f).a = s.a := rfl
@[simp] theorem State.ptpMap_b (s : State) (f : PtpSt → PtpSt) : (s.ptpMap f).b = s.b := rfl
@[simp] theorem State.ptpMap_now (s : State) (f : PtpSt → PtpSt) : (s.ptpMap f).now = s.now := rfl
@[simp] theorem State.ptpMap_freeCtr (s : State) (f : PtpSt → PtpSt) : (s.ptpMap f).freeCtr = s.freeCtr := rfl
@[simp] theorem State.ptpMap_kept (s : State) (f : PtpSt → PtpSt) : (s.ptpMap f).kept = s.kept := rfl
@[simp] theorem State.ptpMap_pending (s : State) (f : PtpSt → PtpSt) : (s.ptpMap f).pending = s.pending := rfl
@[simp] theorem State.ptpMap_half (s : State) (f : PtpSt → PtpSt) (id : HalfId) : (s.ptpMap f).half id = s.half id := by cases id <;> rfl
@[simp] theorem State.telMap_hub (s : State) (f : Telem → Telem) : (s.telMap f).hub = { s.hub with tel := f s.hub.tel } := rfl
@[simp] theorem State.telMap_a (s : State) (f : Telem → Telem) : (s.telMap f).a = s.a := rfl
@[simp] theorem State.telMap_b (s : State) (f : Telem → Telem) : (s.telMap f).b = s.b := rfl
@[simp] theorem State.telMap_now (s : State) (f : Telem → Telem) : (s.telMap f).now = s.now := rfl
@[simp] theorem State.telMap_freeCtr (s : State) (f : Telem → Telem) : (s.telMap f).freeCtr = s.freeCtr := rfl
@[simp] theorem State.telMap_kept (s : State) (f : Telem → Telem) : (s.telMap f).kept = s.kept := rfl
@[simp] theorem State.telMap_pending (s : State) (f : Telem → Telem) : (s.telMap f).pending = s.pending := rfl
@[simp] theorem State.telMap_half (s : State) (f : Telem → Telem) (id : HalfId) : (s.telMap f).half id = s.half id := by cases id <;> rfl
@[simp] theorem State.secMap_hub (s : State) (f : SecSt → SecSt) : (s.secMap f).hub = { s.hub with sec := f s.hub.sec } := rfl
@[simp] theorem State.secMap_a (s : State) (f : SecSt → SecSt) : (s.secMap f).a = s.a := rfl
@[simp] theorem State.secMap_b (s : State) (f : SecSt → SecSt) : (s.secMap f).b = s.b := rfl
@[simp] theorem State.secMap_now (s : State) (f : SecSt → SecSt) : (s.secMap f).now = s.now := rfl
@[simp] theorem State.secMap_freeCtr (s : State) (f : SecSt → SecSt) : (s.secMap f).freeCtr = s.freeCtr := rfl
@[simp] theorem State.secMap_kept (s : State) (f : SecSt → SecSt) : (s.secMap f).kept = s.kept := rfl
@[simp] theorem State.secMap_pending (s : State) (f : SecSt → SecSt) : (s.secMap f).pending = s.pending := rfl
@[simp] theorem State.secMap_half (s : State) (f : SecSt → SecSt) (id : HalfId) : (s.secMap f).half id = s.half id := by cases id <;> rfl

/-! ### A half -/

@[simp] theorem Half.acqMap_id (f : Acq → Acq) (h : Half) : (h.acqMap f).id = h.id := rfl
@[simp] theorem Half.acqMap_on (f : Acq → Acq) (h : Half) : (h.acqMap f).on = h.on := rfl
@[simp] theorem Half.acqMap_now (f : Acq → Acq) (h : Half) : (h.acqMap f).now = h.now := rfl
@[simp] theorem Half.acqMap_frame (f : Acq → Acq) (h : Half) : (h.acqMap f).frame = h.frame := rfl
@[simp] theorem Half.acqMap_cfg (f : Acq → Acq) (h : Half) : (h.acqMap f).cfg = h.cfg := rfl
@[simp] theorem Half.acqMap_rcv (f : Acq → Acq) (h : Half) : (h.acqMap f).rcv = h.rcv := rfl
@[simp] theorem Half.acqMap_rev (f : Acq → Acq) (h : Half) : (h.acqMap f).rev = h.rev := rfl
@[simp] theorem Half.acqMap_trk (f : Acq → Acq) (h : Half) : (h.acqMap f).trk = h.trk := rfl
@[simp] theorem Half.acqMap_tws (f : Acq → Acq) (h : Half) : (h.acqMap f).tws = h.tws := rfl
@[simp] theorem Half.acqMap_schCfg (f : Acq → Acq) (h : Half) : (h.acqMap f).schCfg = h.schCfg := rfl
@[simp] theorem Half.acqMap_slots (f : Acq → Acq) (h : Half) : (h.acqMap f).slots = h.slots := rfl
@[simp] theorem Half.acqMap_cyls (f : Acq → Acq) (h : Half) : (h.acqMap f).cyls = h.cyls := rfl
@[simp] theorem Half.acqMap_banks (f : Acq → Acq) (h : Half) : (h.acqMap f).banks = h.banks := rfl
@[simp] theorem Half.acqMap_chans (f : Acq → Acq) (h : Half) : (h.acqMap f).chans = h.chans := rfl
@[simp] theorem Half.acqMap_pairs (f : Acq → Acq) (h : Half) : (h.acqMap f).pairs = h.pairs := rfl
@[simp] theorem Half.acqMap_profs (f : Acq → Acq) (h : Half) : (h.acqMap f).profs = h.profs := rfl
@[simp] theorem Half.acqMap_profNew (f : Acq → Acq) (h : Half) : (h.acqMap f).profNew = h.profNew := rfl
@[simp] theorem Half.acqMap_fg (f : Acq → Acq) (h : Half) : (h.acqMap f).fg = h.fg := rfl
@[simp] theorem Half.acqMap_links (f : Acq → Acq) (h : Half) : (h.acqMap f).links = h.links := rfl
@[simp] theorem Half.acqMap_flt (f : Acq → Acq) (h : Half) : (h.acqMap f).flt = h.flt := rfl
@[simp] theorem Half.acqMap_snap (f : Acq → Acq) (h : Half) : (h.acqMap f).snap = h.snap := rfl
@[simp] theorem Half.acqMap_proc (f : Acq → Acq) (h : Half) : (h.acqMap f).proc = h.proc := rfl
@[simp] theorem Half.acqMap_evq (f : Acq → Acq) (h : Half) : (h.acqMap f).evq = h.evq := rfl
@[simp] theorem Half.acqMap_evqLost (f : Acq → Acq) (h : Half) : (h.acqMap f).evqLost = h.evqLost := rfl
@[simp] theorem Half.acqMap_evqOvf (f : Acq → Acq) (h : Half) : (h.acqMap f).evqOvf = h.evqOvf := rfl
@[simp] theorem Half.acqMap_fired (f : Acq → Acq) (h : Half) : (h.acqMap f).fired = h.fired := rfl
@[simp] theorem Half.acqMap_pinElec (f : Acq → Acq) (h : Half) : (h.acqMap f).pinElec = h.pinElec := rfl
@[simp] theorem Half.acqMap_shed (f : Acq → Acq) (h : Half) : (h.acqMap f).shed = h.shed := rfl
@[simp] theorem Half.acqMap_led (f : Acq → Acq) (h : Half) : (h.acqMap f).led = h.led := rfl
@[simp] theorem Half.acqMap_ana (f : Acq → Acq) (h : Half) : (h.acqMap f).ana = h.ana := rfl
@[simp] theorem Half.acqMap_slu (f : Acq → Acq) (h : Half) : (h.acqMap f).slu = h.slu := rfl
@[simp] theorem Half.acqMap_out (f : Acq → Acq) (h : Half) : (h.acqMap f).out = h.out := rfl
@[simp] theorem Half.seqMap_id (q : Fin 9) (f : Seqr → Seqr) (h : Half) : (h.seqMap q f).id = h.id := rfl
@[simp] theorem Half.seqMap_on (q : Fin 9) (f : Seqr → Seqr) (h : Half) : (h.seqMap q f).on = h.on := rfl
@[simp] theorem Half.seqMap_now (q : Fin 9) (f : Seqr → Seqr) (h : Half) : (h.seqMap q f).now = h.now := rfl
@[simp] theorem Half.seqMap_frame (q : Fin 9) (f : Seqr → Seqr) (h : Half) : (h.seqMap q f).frame = h.frame := rfl
@[simp] theorem Half.seqMap_cfg (q : Fin 9) (f : Seqr → Seqr) (h : Half) : (h.seqMap q f).cfg = h.cfg := rfl
@[simp] theorem Half.seqMap_rcv (q : Fin 9) (f : Seqr → Seqr) (h : Half) : (h.seqMap q f).rcv = h.rcv := rfl
@[simp] theorem Half.seqMap_rev (q : Fin 9) (f : Seqr → Seqr) (h : Half) : (h.seqMap q f).rev = h.rev := rfl
@[simp] theorem Half.seqMap_trk (q : Fin 9) (f : Seqr → Seqr) (h : Half) : (h.seqMap q f).trk = h.trk := rfl
@[simp] theorem Half.seqMap_tws (q : Fin 9) (f : Seqr → Seqr) (h : Half) : (h.seqMap q f).tws = h.tws := rfl
@[simp] theorem Half.seqMap_schCfg (q : Fin 9) (f : Seqr → Seqr) (h : Half) : (h.seqMap q f).schCfg = h.schCfg := rfl
@[simp] theorem Half.seqMap_slots (q : Fin 9) (f : Seqr → Seqr) (h : Half) : (h.seqMap q f).slots = h.slots := rfl
@[simp] theorem Half.seqMap_cyls (q : Fin 9) (f : Seqr → Seqr) (h : Half) : (h.seqMap q f).cyls = h.cyls := rfl
@[simp] theorem Half.seqMap_banks (q : Fin 9) (f : Seqr → Seqr) (h : Half) : (h.seqMap q f).banks = h.banks := rfl
@[simp] theorem Half.seqMap_chans (q : Fin 9) (f : Seqr → Seqr) (h : Half) : (h.seqMap q f).chans = h.chans := rfl
@[simp] theorem Half.seqMap_pairs (q : Fin 9) (f : Seqr → Seqr) (h : Half) : (h.seqMap q f).pairs = h.pairs := rfl
@[simp] theorem Half.seqMap_profs (q : Fin 9) (f : Seqr → Seqr) (h : Half) : (h.seqMap q f).profs = h.profs := rfl
@[simp] theorem Half.seqMap_profNew (q : Fin 9) (f : Seqr → Seqr) (h : Half) : (h.seqMap q f).profNew = h.profNew := rfl
@[simp] theorem Half.seqMap_fg (q : Fin 9) (f : Seqr → Seqr) (h : Half) : (h.seqMap q f).fg = h.fg := rfl
@[simp] theorem Half.seqMap_links (q : Fin 9) (f : Seqr → Seqr) (h : Half) : (h.seqMap q f).links = h.links := rfl
@[simp] theorem Half.seqMap_flt (q : Fin 9) (f : Seqr → Seqr) (h : Half) : (h.seqMap q f).flt = h.flt := rfl
@[simp] theorem Half.seqMap_snap (q : Fin 9) (f : Seqr → Seqr) (h : Half) : (h.seqMap q f).snap = h.snap := rfl
@[simp] theorem Half.seqMap_proc (q : Fin 9) (f : Seqr → Seqr) (h : Half) : (h.seqMap q f).proc = h.proc := rfl
@[simp] theorem Half.seqMap_evq (q : Fin 9) (f : Seqr → Seqr) (h : Half) : (h.seqMap q f).evq = h.evq := rfl
@[simp] theorem Half.seqMap_evqLost (q : Fin 9) (f : Seqr → Seqr) (h : Half) : (h.seqMap q f).evqLost = h.evqLost := rfl
@[simp] theorem Half.seqMap_evqOvf (q : Fin 9) (f : Seqr → Seqr) (h : Half) : (h.seqMap q f).evqOvf = h.evqOvf := rfl
@[simp] theorem Half.seqMap_fired (q : Fin 9) (f : Seqr → Seqr) (h : Half) : (h.seqMap q f).fired = h.fired := rfl
@[simp] theorem Half.seqMap_pinElec (q : Fin 9) (f : Seqr → Seqr) (h : Half) : (h.seqMap q f).pinElec = h.pinElec := rfl
@[simp] theorem Half.seqMap_shed (q : Fin 9) (f : Seqr → Seqr) (h : Half) : (h.seqMap q f).shed = h.shed := rfl
@[simp] theorem Half.seqMap_led (q : Fin 9) (f : Seqr → Seqr) (h : Half) : (h.seqMap q f).led = h.led := rfl
@[simp] theorem Half.seqMap_ana (q : Fin 9) (f : Seqr → Seqr) (h : Half) : (h.seqMap q f).ana = h.ana := rfl
@[simp] theorem Half.seqMap_slu (q : Fin 9) (f : Seqr → Seqr) (h : Half) : (h.seqMap q f).slu = h.slu := rfl
@[simp] theorem Half.seqMap_out (q : Fin 9) (f : Seqr → Seqr) (h : Half) : (h.seqMap q f).out = h.out := rfl
@[simp] theorem Half.calMap_id (g : Fin 3) (f : GrpCal → GrpCal) (h : Half) : (h.calMap g f).id = h.id := rfl
@[simp] theorem Half.calMap_on (g : Fin 3) (f : GrpCal → GrpCal) (h : Half) : (h.calMap g f).on = h.on := rfl
@[simp] theorem Half.calMap_now (g : Fin 3) (f : GrpCal → GrpCal) (h : Half) : (h.calMap g f).now = h.now := rfl
@[simp] theorem Half.calMap_frame (g : Fin 3) (f : GrpCal → GrpCal) (h : Half) : (h.calMap g f).frame = h.frame := rfl
@[simp] theorem Half.calMap_cfg (g : Fin 3) (f : GrpCal → GrpCal) (h : Half) : (h.calMap g f).cfg = h.cfg := rfl
@[simp] theorem Half.calMap_rcv (g : Fin 3) (f : GrpCal → GrpCal) (h : Half) : (h.calMap g f).rcv = h.rcv := rfl
@[simp] theorem Half.calMap_rev (g : Fin 3) (f : GrpCal → GrpCal) (h : Half) : (h.calMap g f).rev = h.rev := rfl
@[simp] theorem Half.calMap_trk (g : Fin 3) (f : GrpCal → GrpCal) (h : Half) : (h.calMap g f).trk = h.trk := rfl
@[simp] theorem Half.calMap_tws (g : Fin 3) (f : GrpCal → GrpCal) (h : Half) : (h.calMap g f).tws = h.tws := rfl
@[simp] theorem Half.calMap_schCfg (g : Fin 3) (f : GrpCal → GrpCal) (h : Half) : (h.calMap g f).schCfg = h.schCfg := rfl
@[simp] theorem Half.calMap_slots (g : Fin 3) (f : GrpCal → GrpCal) (h : Half) : (h.calMap g f).slots = h.slots := rfl
@[simp] theorem Half.calMap_cyls (g : Fin 3) (f : GrpCal → GrpCal) (h : Half) : (h.calMap g f).cyls = h.cyls := rfl
@[simp] theorem Half.calMap_banks (g : Fin 3) (f : GrpCal → GrpCal) (h : Half) : (h.calMap g f).banks = h.banks := rfl
@[simp] theorem Half.calMap_chans (g : Fin 3) (f : GrpCal → GrpCal) (h : Half) : (h.calMap g f).chans = h.chans := rfl
@[simp] theorem Half.calMap_pairs (g : Fin 3) (f : GrpCal → GrpCal) (h : Half) : (h.calMap g f).pairs = h.pairs := rfl
@[simp] theorem Half.calMap_profs (g : Fin 3) (f : GrpCal → GrpCal) (h : Half) : (h.calMap g f).profs = h.profs := rfl
@[simp] theorem Half.calMap_profNew (g : Fin 3) (f : GrpCal → GrpCal) (h : Half) : (h.calMap g f).profNew = h.profNew := rfl
@[simp] theorem Half.calMap_fg (g : Fin 3) (f : GrpCal → GrpCal) (h : Half) : (h.calMap g f).fg = h.fg := rfl
@[simp] theorem Half.calMap_links (g : Fin 3) (f : GrpCal → GrpCal) (h : Half) : (h.calMap g f).links = h.links := rfl
@[simp] theorem Half.calMap_flt (g : Fin 3) (f : GrpCal → GrpCal) (h : Half) : (h.calMap g f).flt = h.flt := rfl
@[simp] theorem Half.calMap_snap (g : Fin 3) (f : GrpCal → GrpCal) (h : Half) : (h.calMap g f).snap = h.snap := rfl
@[simp] theorem Half.calMap_proc (g : Fin 3) (f : GrpCal → GrpCal) (h : Half) : (h.calMap g f).proc = h.proc := rfl
@[simp] theorem Half.calMap_evq (g : Fin 3) (f : GrpCal → GrpCal) (h : Half) : (h.calMap g f).evq = h.evq := rfl
@[simp] theorem Half.calMap_evqLost (g : Fin 3) (f : GrpCal → GrpCal) (h : Half) : (h.calMap g f).evqLost = h.evqLost := rfl
@[simp] theorem Half.calMap_evqOvf (g : Fin 3) (f : GrpCal → GrpCal) (h : Half) : (h.calMap g f).evqOvf = h.evqOvf := rfl
@[simp] theorem Half.calMap_fired (g : Fin 3) (f : GrpCal → GrpCal) (h : Half) : (h.calMap g f).fired = h.fired := rfl
@[simp] theorem Half.calMap_pinElec (g : Fin 3) (f : GrpCal → GrpCal) (h : Half) : (h.calMap g f).pinElec = h.pinElec := rfl
@[simp] theorem Half.calMap_shed (g : Fin 3) (f : GrpCal → GrpCal) (h : Half) : (h.calMap g f).shed = h.shed := rfl
@[simp] theorem Half.calMap_led (g : Fin 3) (f : GrpCal → GrpCal) (h : Half) : (h.calMap g f).led = h.led := rfl
@[simp] theorem Half.calMap_ana (g : Fin 3) (f : GrpCal → GrpCal) (h : Half) : (h.calMap g f).ana = h.ana := rfl
@[simp] theorem Half.calMap_slu (g : Fin 3) (f : GrpCal → GrpCal) (h : Half) : (h.calMap g f).slu = h.slu := rfl
@[simp] theorem Half.calMap_out (g : Fin 3) (f : GrpCal → GrpCal) (h : Half) : (h.calMap g f).out = h.out := rfl
@[simp] theorem Half.resMap_id (r : Fin 8) (f : ResSt → ResSt) (h : Half) : (h.resMap r f).id = h.id := rfl
@[simp] theorem Half.resMap_on (r : Fin 8) (f : ResSt → ResSt) (h : Half) : (h.resMap r f).on = h.on := rfl
@[simp] theorem Half.resMap_now (r : Fin 8) (f : ResSt → ResSt) (h : Half) : (h.resMap r f).now = h.now := rfl
@[simp] theorem Half.resMap_frame (r : Fin 8) (f : ResSt → ResSt) (h : Half) : (h.resMap r f).frame = h.frame := rfl
@[simp] theorem Half.resMap_cfg (r : Fin 8) (f : ResSt → ResSt) (h : Half) : (h.resMap r f).cfg = h.cfg := rfl
@[simp] theorem Half.resMap_rcv (r : Fin 8) (f : ResSt → ResSt) (h : Half) : (h.resMap r f).rcv = h.rcv := rfl
@[simp] theorem Half.resMap_rev (r : Fin 8) (f : ResSt → ResSt) (h : Half) : (h.resMap r f).rev = h.rev := rfl
@[simp] theorem Half.resMap_trk (r : Fin 8) (f : ResSt → ResSt) (h : Half) : (h.resMap r f).trk = h.trk := rfl
@[simp] theorem Half.resMap_tws (r : Fin 8) (f : ResSt → ResSt) (h : Half) : (h.resMap r f).tws = h.tws := rfl
@[simp] theorem Half.resMap_schCfg (r : Fin 8) (f : ResSt → ResSt) (h : Half) : (h.resMap r f).schCfg = h.schCfg := rfl
@[simp] theorem Half.resMap_slots (r : Fin 8) (f : ResSt → ResSt) (h : Half) : (h.resMap r f).slots = h.slots := rfl
@[simp] theorem Half.resMap_cyls (r : Fin 8) (f : ResSt → ResSt) (h : Half) : (h.resMap r f).cyls = h.cyls := rfl
@[simp] theorem Half.resMap_banks (r : Fin 8) (f : ResSt → ResSt) (h : Half) : (h.resMap r f).banks = h.banks := rfl
@[simp] theorem Half.resMap_chans (r : Fin 8) (f : ResSt → ResSt) (h : Half) : (h.resMap r f).chans = h.chans := rfl
@[simp] theorem Half.resMap_pairs (r : Fin 8) (f : ResSt → ResSt) (h : Half) : (h.resMap r f).pairs = h.pairs := rfl
@[simp] theorem Half.resMap_profs (r : Fin 8) (f : ResSt → ResSt) (h : Half) : (h.resMap r f).profs = h.profs := rfl
@[simp] theorem Half.resMap_profNew (r : Fin 8) (f : ResSt → ResSt) (h : Half) : (h.resMap r f).profNew = h.profNew := rfl
@[simp] theorem Half.resMap_fg (r : Fin 8) (f : ResSt → ResSt) (h : Half) : (h.resMap r f).fg = h.fg := rfl
@[simp] theorem Half.resMap_links (r : Fin 8) (f : ResSt → ResSt) (h : Half) : (h.resMap r f).links = h.links := rfl
@[simp] theorem Half.resMap_flt (r : Fin 8) (f : ResSt → ResSt) (h : Half) : (h.resMap r f).flt = h.flt := rfl
@[simp] theorem Half.resMap_snap (r : Fin 8) (f : ResSt → ResSt) (h : Half) : (h.resMap r f).snap = h.snap := rfl
@[simp] theorem Half.resMap_proc (r : Fin 8) (f : ResSt → ResSt) (h : Half) : (h.resMap r f).proc = h.proc := rfl
@[simp] theorem Half.resMap_evq (r : Fin 8) (f : ResSt → ResSt) (h : Half) : (h.resMap r f).evq = h.evq := rfl
@[simp] theorem Half.resMap_evqLost (r : Fin 8) (f : ResSt → ResSt) (h : Half) : (h.resMap r f).evqLost = h.evqLost := rfl
@[simp] theorem Half.resMap_evqOvf (r : Fin 8) (f : ResSt → ResSt) (h : Half) : (h.resMap r f).evqOvf = h.evqOvf := rfl
@[simp] theorem Half.resMap_fired (r : Fin 8) (f : ResSt → ResSt) (h : Half) : (h.resMap r f).fired = h.fired := rfl
@[simp] theorem Half.resMap_pinElec (r : Fin 8) (f : ResSt → ResSt) (h : Half) : (h.resMap r f).pinElec = h.pinElec := rfl
@[simp] theorem Half.resMap_shed (r : Fin 8) (f : ResSt → ResSt) (h : Half) : (h.resMap r f).shed = h.shed := rfl
@[simp] theorem Half.resMap_acq (r : Fin 8) (f : ResSt → ResSt) (h : Half) : (h.resMap r f).acq = h.acq := rfl
@[simp] theorem Half.resMap_ana (r : Fin 8) (f : ResSt → ResSt) (h : Half) : (h.resMap r f).ana = h.ana := rfl
@[simp] theorem Half.resMap_slu (r : Fin 8) (f : ResSt → ResSt) (h : Half) : (h.resMap r f).slu = h.slu := rfl
@[simp] theorem Half.resMap_out (r : Fin 8) (f : ResSt → ResSt) (h : Half) : (h.resMap r f).out = h.out := rfl
@[simp] theorem Half.laneMap_id (j : Fin 12) (f : Lane → Lane) (h : Half) : (h.laneMap j f).id = h.id := rfl
@[simp] theorem Half.laneMap_on (j : Fin 12) (f : Lane → Lane) (h : Half) : (h.laneMap j f).on = h.on := rfl
@[simp] theorem Half.laneMap_now (j : Fin 12) (f : Lane → Lane) (h : Half) : (h.laneMap j f).now = h.now := rfl
@[simp] theorem Half.laneMap_frame (j : Fin 12) (f : Lane → Lane) (h : Half) : (h.laneMap j f).frame = h.frame := rfl
@[simp] theorem Half.laneMap_cfg (j : Fin 12) (f : Lane → Lane) (h : Half) : (h.laneMap j f).cfg = h.cfg := rfl
@[simp] theorem Half.laneMap_rcv (j : Fin 12) (f : Lane → Lane) (h : Half) : (h.laneMap j f).rcv = h.rcv := rfl
@[simp] theorem Half.laneMap_rev (j : Fin 12) (f : Lane → Lane) (h : Half) : (h.laneMap j f).rev = h.rev := rfl
@[simp] theorem Half.laneMap_trk (j : Fin 12) (f : Lane → Lane) (h : Half) : (h.laneMap j f).trk = h.trk := rfl
@[simp] theorem Half.laneMap_tws (j : Fin 12) (f : Lane → Lane) (h : Half) : (h.laneMap j f).tws = h.tws := rfl
@[simp] theorem Half.laneMap_schCfg (j : Fin 12) (f : Lane → Lane) (h : Half) : (h.laneMap j f).schCfg = h.schCfg := rfl
@[simp] theorem Half.laneMap_slots (j : Fin 12) (f : Lane → Lane) (h : Half) : (h.laneMap j f).slots = h.slots := rfl
@[simp] theorem Half.laneMap_cyls (j : Fin 12) (f : Lane → Lane) (h : Half) : (h.laneMap j f).cyls = h.cyls := rfl
@[simp] theorem Half.laneMap_banks (j : Fin 12) (f : Lane → Lane) (h : Half) : (h.laneMap j f).banks = h.banks := rfl
@[simp] theorem Half.laneMap_chans (j : Fin 12) (f : Lane → Lane) (h : Half) : (h.laneMap j f).chans = h.chans := rfl
@[simp] theorem Half.laneMap_pairs (j : Fin 12) (f : Lane → Lane) (h : Half) : (h.laneMap j f).pairs = h.pairs := rfl
@[simp] theorem Half.laneMap_profs (j : Fin 12) (f : Lane → Lane) (h : Half) : (h.laneMap j f).profs = h.profs := rfl
@[simp] theorem Half.laneMap_profNew (j : Fin 12) (f : Lane → Lane) (h : Half) : (h.laneMap j f).profNew = h.profNew := rfl
@[simp] theorem Half.laneMap_fg (j : Fin 12) (f : Lane → Lane) (h : Half) : (h.laneMap j f).fg = h.fg := rfl
@[simp] theorem Half.laneMap_links (j : Fin 12) (f : Lane → Lane) (h : Half) : (h.laneMap j f).links = h.links := rfl
@[simp] theorem Half.laneMap_flt (j : Fin 12) (f : Lane → Lane) (h : Half) : (h.laneMap j f).flt = h.flt := rfl
@[simp] theorem Half.laneMap_snap (j : Fin 12) (f : Lane → Lane) (h : Half) : (h.laneMap j f).snap = h.snap := rfl
@[simp] theorem Half.laneMap_proc (j : Fin 12) (f : Lane → Lane) (h : Half) : (h.laneMap j f).proc = h.proc := rfl
@[simp] theorem Half.laneMap_evq (j : Fin 12) (f : Lane → Lane) (h : Half) : (h.laneMap j f).evq = h.evq := rfl
@[simp] theorem Half.laneMap_evqLost (j : Fin 12) (f : Lane → Lane) (h : Half) : (h.laneMap j f).evqLost = h.evqLost := rfl
@[simp] theorem Half.laneMap_evqOvf (j : Fin 12) (f : Lane → Lane) (h : Half) : (h.laneMap j f).evqOvf = h.evqOvf := rfl
@[simp] theorem Half.laneMap_fired (j : Fin 12) (f : Lane → Lane) (h : Half) : (h.laneMap j f).fired = h.fired := rfl
@[simp] theorem Half.laneMap_pinElec (j : Fin 12) (f : Lane → Lane) (h : Half) : (h.laneMap j f).pinElec = h.pinElec := rfl
@[simp] theorem Half.laneMap_shed (j : Fin 12) (f : Lane → Lane) (h : Half) : (h.laneMap j f).shed = h.shed := rfl
@[simp] theorem Half.laneMap_led (j : Fin 12) (f : Lane → Lane) (h : Half) : (h.laneMap j f).led = h.led := rfl
@[simp] theorem Half.laneMap_acq (j : Fin 12) (f : Lane → Lane) (h : Half) : (h.laneMap j f).acq = h.acq := rfl
@[simp] theorem Half.laneMap_slu (j : Fin 12) (f : Lane → Lane) (h : Half) : (h.laneMap j f).slu = h.slu := rfl
@[simp] theorem Half.laneMap_out (j : Fin 12) (f : Lane → Lane) (h : Half) : (h.laneMap j f).out = h.out := rfl
@[simp] theorem Half.cylMap_id (k : Fin 24) (f : CylSt → CylSt) (h : Half) : (h.cylMap k f).id = h.id := rfl
@[simp] theorem Half.cylMap_on (k : Fin 24) (f : CylSt → CylSt) (h : Half) : (h.cylMap k f).on = h.on := rfl
@[simp] theorem Half.cylMap_now (k : Fin 24) (f : CylSt → CylSt) (h : Half) : (h.cylMap k f).now = h.now := rfl
@[simp] theorem Half.cylMap_frame (k : Fin 24) (f : CylSt → CylSt) (h : Half) : (h.cylMap k f).frame = h.frame := rfl
@[simp] theorem Half.cylMap_cfg (k : Fin 24) (f : CylSt → CylSt) (h : Half) : (h.cylMap k f).cfg = h.cfg := rfl
@[simp] theorem Half.cylMap_rcv (k : Fin 24) (f : CylSt → CylSt) (h : Half) : (h.cylMap k f).rcv = h.rcv := rfl
@[simp] theorem Half.cylMap_rev (k : Fin 24) (f : CylSt → CylSt) (h : Half) : (h.cylMap k f).rev = h.rev := rfl
@[simp] theorem Half.cylMap_trk (k : Fin 24) (f : CylSt → CylSt) (h : Half) : (h.cylMap k f).trk = h.trk := rfl
@[simp] theorem Half.cylMap_tws (k : Fin 24) (f : CylSt → CylSt) (h : Half) : (h.cylMap k f).tws = h.tws := rfl
@[simp] theorem Half.cylMap_schCfg (k : Fin 24) (f : CylSt → CylSt) (h : Half) : (h.cylMap k f).schCfg = h.schCfg := rfl
@[simp] theorem Half.cylMap_slots (k : Fin 24) (f : CylSt → CylSt) (h : Half) : (h.cylMap k f).slots = h.slots := rfl
@[simp] theorem Half.cylMap_banks (k : Fin 24) (f : CylSt → CylSt) (h : Half) : (h.cylMap k f).banks = h.banks := rfl
@[simp] theorem Half.cylMap_chans (k : Fin 24) (f : CylSt → CylSt) (h : Half) : (h.cylMap k f).chans = h.chans := rfl
@[simp] theorem Half.cylMap_pairs (k : Fin 24) (f : CylSt → CylSt) (h : Half) : (h.cylMap k f).pairs = h.pairs := rfl
@[simp] theorem Half.cylMap_profs (k : Fin 24) (f : CylSt → CylSt) (h : Half) : (h.cylMap k f).profs = h.profs := rfl
@[simp] theorem Half.cylMap_profNew (k : Fin 24) (f : CylSt → CylSt) (h : Half) : (h.cylMap k f).profNew = h.profNew := rfl
@[simp] theorem Half.cylMap_fg (k : Fin 24) (f : CylSt → CylSt) (h : Half) : (h.cylMap k f).fg = h.fg := rfl
@[simp] theorem Half.cylMap_links (k : Fin 24) (f : CylSt → CylSt) (h : Half) : (h.cylMap k f).links = h.links := rfl
@[simp] theorem Half.cylMap_flt (k : Fin 24) (f : CylSt → CylSt) (h : Half) : (h.cylMap k f).flt = h.flt := rfl
@[simp] theorem Half.cylMap_snap (k : Fin 24) (f : CylSt → CylSt) (h : Half) : (h.cylMap k f).snap = h.snap := rfl
@[simp] theorem Half.cylMap_proc (k : Fin 24) (f : CylSt → CylSt) (h : Half) : (h.cylMap k f).proc = h.proc := rfl
@[simp] theorem Half.cylMap_evq (k : Fin 24) (f : CylSt → CylSt) (h : Half) : (h.cylMap k f).evq = h.evq := rfl
@[simp] theorem Half.cylMap_evqLost (k : Fin 24) (f : CylSt → CylSt) (h : Half) : (h.cylMap k f).evqLost = h.evqLost := rfl
@[simp] theorem Half.cylMap_evqOvf (k : Fin 24) (f : CylSt → CylSt) (h : Half) : (h.cylMap k f).evqOvf = h.evqOvf := rfl
@[simp] theorem Half.cylMap_fired (k : Fin 24) (f : CylSt → CylSt) (h : Half) : (h.cylMap k f).fired = h.fired := rfl
@[simp] theorem Half.cylMap_pinElec (k : Fin 24) (f : CylSt → CylSt) (h : Half) : (h.cylMap k f).pinElec = h.pinElec := rfl
@[simp] theorem Half.cylMap_shed (k : Fin 24) (f : CylSt → CylSt) (h : Half) : (h.cylMap k f).shed = h.shed := rfl
@[simp] theorem Half.cylMap_led (k : Fin 24) (f : CylSt → CylSt) (h : Half) : (h.cylMap k f).led = h.led := rfl
@[simp] theorem Half.cylMap_acq (k : Fin 24) (f : CylSt → CylSt) (h : Half) : (h.cylMap k f).acq = h.acq := rfl
@[simp] theorem Half.cylMap_ana (k : Fin 24) (f : CylSt → CylSt) (h : Half) : (h.cylMap k f).ana = h.ana := rfl
@[simp] theorem Half.cylMap_slu (k : Fin 24) (f : CylSt → CylSt) (h : Half) : (h.cylMap k f).slu = h.slu := rfl
@[simp] theorem Half.cylMap_out (k : Fin 24) (f : CylSt → CylSt) (h : Half) : (h.cylMap k f).out = h.out := rfl
@[simp] theorem Half.pairMap_id (p : Fin 24) (f : Pair → Pair) (h : Half) : (h.pairMap p f).id = h.id := rfl
@[simp] theorem Half.pairMap_on (p : Fin 24) (f : Pair → Pair) (h : Half) : (h.pairMap p f).on = h.on := rfl
@[simp] theorem Half.pairMap_now (p : Fin 24) (f : Pair → Pair) (h : Half) : (h.pairMap p f).now = h.now := rfl
@[simp] theorem Half.pairMap_frame (p : Fin 24) (f : Pair → Pair) (h : Half) : (h.pairMap p f).frame = h.frame := rfl
@[simp] theorem Half.pairMap_cfg (p : Fin 24) (f : Pair → Pair) (h : Half) : (h.pairMap p f).cfg = h.cfg := rfl
@[simp] theorem Half.pairMap_rcv (p : Fin 24) (f : Pair → Pair) (h : Half) : (h.pairMap p f).rcv = h.rcv := rfl
@[simp] theorem Half.pairMap_rev (p : Fin 24) (f : Pair → Pair) (h : Half) : (h.pairMap p f).rev = h.rev := rfl
@[simp] theorem Half.pairMap_trk (p : Fin 24) (f : Pair → Pair) (h : Half) : (h.pairMap p f).trk = h.trk := rfl
@[simp] theorem Half.pairMap_tws (p : Fin 24) (f : Pair → Pair) (h : Half) : (h.pairMap p f).tws = h.tws := rfl
@[simp] theorem Half.pairMap_schCfg (p : Fin 24) (f : Pair → Pair) (h : Half) : (h.pairMap p f).schCfg = h.schCfg := rfl
@[simp] theorem Half.pairMap_slots (p : Fin 24) (f : Pair → Pair) (h : Half) : (h.pairMap p f).slots = h.slots := rfl
@[simp] theorem Half.pairMap_cyls (p : Fin 24) (f : Pair → Pair) (h : Half) : (h.pairMap p f).cyls = h.cyls := rfl
@[simp] theorem Half.pairMap_banks (p : Fin 24) (f : Pair → Pair) (h : Half) : (h.pairMap p f).banks = h.banks := rfl
@[simp] theorem Half.pairMap_chans (p : Fin 24) (f : Pair → Pair) (h : Half) : (h.pairMap p f).chans = h.chans := rfl
@[simp] theorem Half.pairMap_profs (p : Fin 24) (f : Pair → Pair) (h : Half) : (h.pairMap p f).profs = h.profs := rfl
@[simp] theorem Half.pairMap_profNew (p : Fin 24) (f : Pair → Pair) (h : Half) : (h.pairMap p f).profNew = h.profNew := rfl
@[simp] theorem Half.pairMap_fg (p : Fin 24) (f : Pair → Pair) (h : Half) : (h.pairMap p f).fg = h.fg := rfl
@[simp] theorem Half.pairMap_links (p : Fin 24) (f : Pair → Pair) (h : Half) : (h.pairMap p f).links = h.links := rfl
@[simp] theorem Half.pairMap_flt (p : Fin 24) (f : Pair → Pair) (h : Half) : (h.pairMap p f).flt = h.flt := rfl
@[simp] theorem Half.pairMap_snap (p : Fin 24) (f : Pair → Pair) (h : Half) : (h.pairMap p f).snap = h.snap := rfl
@[simp] theorem Half.pairMap_proc (p : Fin 24) (f : Pair → Pair) (h : Half) : (h.pairMap p f).proc = h.proc := rfl
@[simp] theorem Half.pairMap_evq (p : Fin 24) (f : Pair → Pair) (h : Half) : (h.pairMap p f).evq = h.evq := rfl
@[simp] theorem Half.pairMap_evqLost (p : Fin 24) (f : Pair → Pair) (h : Half) : (h.pairMap p f).evqLost = h.evqLost := rfl
@[simp] theorem Half.pairMap_evqOvf (p : Fin 24) (f : Pair → Pair) (h : Half) : (h.pairMap p f).evqOvf = h.evqOvf := rfl
@[simp] theorem Half.pairMap_fired (p : Fin 24) (f : Pair → Pair) (h : Half) : (h.pairMap p f).fired = h.fired := rfl
@[simp] theorem Half.pairMap_pinElec (p : Fin 24) (f : Pair → Pair) (h : Half) : (h.pairMap p f).pinElec = h.pinElec := rfl
@[simp] theorem Half.pairMap_shed (p : Fin 24) (f : Pair → Pair) (h : Half) : (h.pairMap p f).shed = h.shed := rfl
@[simp] theorem Half.pairMap_led (p : Fin 24) (f : Pair → Pair) (h : Half) : (h.pairMap p f).led = h.led := rfl
@[simp] theorem Half.pairMap_acq (p : Fin 24) (f : Pair → Pair) (h : Half) : (h.pairMap p f).acq = h.acq := rfl
@[simp] theorem Half.pairMap_ana (p : Fin 24) (f : Pair → Pair) (h : Half) : (h.pairMap p f).ana = h.ana := rfl
@[simp] theorem Half.pairMap_slu (p : Fin 24) (f : Pair → Pair) (h : Half) : (h.pairMap p f).slu = h.slu := rfl
@[simp] theorem Half.pairMap_out (p : Fin 24) (f : Pair → Pair) (h : Half) : (h.pairMap p f).out = h.out := rfl
@[simp] theorem Half.chanMap_id (m : Fin 48) (f : Chan → Chan) (h : Half) : (h.chanMap m f).id = h.id := rfl
@[simp] theorem Half.chanMap_on (m : Fin 48) (f : Chan → Chan) (h : Half) : (h.chanMap m f).on = h.on := rfl
@[simp] theorem Half.chanMap_now (m : Fin 48) (f : Chan → Chan) (h : Half) : (h.chanMap m f).now = h.now := rfl
@[simp] theorem Half.chanMap_frame (m : Fin 48) (f : Chan → Chan) (h : Half) : (h.chanMap m f).frame = h.frame := rfl
@[simp] theorem Half.chanMap_cfg (m : Fin 48) (f : Chan → Chan) (h : Half) : (h.chanMap m f).cfg = h.cfg := rfl
@[simp] theorem Half.chanMap_rcv (m : Fin 48) (f : Chan → Chan) (h : Half) : (h.chanMap m f).rcv = h.rcv := rfl
@[simp] theorem Half.chanMap_rev (m : Fin 48) (f : Chan → Chan) (h : Half) : (h.chanMap m f).rev = h.rev := rfl
@[simp] theorem Half.chanMap_trk (m : Fin 48) (f : Chan → Chan) (h : Half) : (h.chanMap m f).trk = h.trk := rfl
@[simp] theorem Half.chanMap_tws (m : Fin 48) (f : Chan → Chan) (h : Half) : (h.chanMap m f).tws = h.tws := rfl
@[simp] theorem Half.chanMap_schCfg (m : Fin 48) (f : Chan → Chan) (h : Half) : (h.chanMap m f).schCfg = h.schCfg := rfl
@[simp] theorem Half.chanMap_slots (m : Fin 48) (f : Chan → Chan) (h : Half) : (h.chanMap m f).slots = h.slots := rfl
@[simp] theorem Half.chanMap_cyls (m : Fin 48) (f : Chan → Chan) (h : Half) : (h.chanMap m f).cyls = h.cyls := rfl
@[simp] theorem Half.chanMap_banks (m : Fin 48) (f : Chan → Chan) (h : Half) : (h.chanMap m f).banks = h.banks := rfl
@[simp] theorem Half.chanMap_pairs (m : Fin 48) (f : Chan → Chan) (h : Half) : (h.chanMap m f).pairs = h.pairs := rfl
@[simp] theorem Half.chanMap_profs (m : Fin 48) (f : Chan → Chan) (h : Half) : (h.chanMap m f).profs = h.profs := rfl
@[simp] theorem Half.chanMap_profNew (m : Fin 48) (f : Chan → Chan) (h : Half) : (h.chanMap m f).profNew = h.profNew := rfl
@[simp] theorem Half.chanMap_fg (m : Fin 48) (f : Chan → Chan) (h : Half) : (h.chanMap m f).fg = h.fg := rfl
@[simp] theorem Half.chanMap_links (m : Fin 48) (f : Chan → Chan) (h : Half) : (h.chanMap m f).links = h.links := rfl
@[simp] theorem Half.chanMap_flt (m : Fin 48) (f : Chan → Chan) (h : Half) : (h.chanMap m f).flt = h.flt := rfl
@[simp] theorem Half.chanMap_snap (m : Fin 48) (f : Chan → Chan) (h : Half) : (h.chanMap m f).snap = h.snap := rfl
@[simp] theorem Half.chanMap_proc (m : Fin 48) (f : Chan → Chan) (h : Half) : (h.chanMap m f).proc = h.proc := rfl
@[simp] theorem Half.chanMap_evq (m : Fin 48) (f : Chan → Chan) (h : Half) : (h.chanMap m f).evq = h.evq := rfl
@[simp] theorem Half.chanMap_evqLost (m : Fin 48) (f : Chan → Chan) (h : Half) : (h.chanMap m f).evqLost = h.evqLost := rfl
@[simp] theorem Half.chanMap_evqOvf (m : Fin 48) (f : Chan → Chan) (h : Half) : (h.chanMap m f).evqOvf = h.evqOvf := rfl
@[simp] theorem Half.chanMap_fired (m : Fin 48) (f : Chan → Chan) (h : Half) : (h.chanMap m f).fired = h.fired := rfl
@[simp] theorem Half.chanMap_pinElec (m : Fin 48) (f : Chan → Chan) (h : Half) : (h.chanMap m f).pinElec = h.pinElec := rfl
@[simp] theorem Half.chanMap_shed (m : Fin 48) (f : Chan → Chan) (h : Half) : (h.chanMap m f).shed = h.shed := rfl
@[simp] theorem Half.chanMap_led (m : Fin 48) (f : Chan → Chan) (h : Half) : (h.chanMap m f).led = h.led := rfl
@[simp] theorem Half.chanMap_acq (m : Fin 48) (f : Chan → Chan) (h : Half) : (h.chanMap m f).acq = h.acq := rfl
@[simp] theorem Half.chanMap_ana (m : Fin 48) (f : Chan → Chan) (h : Half) : (h.chanMap m f).ana = h.ana := rfl
@[simp] theorem Half.chanMap_slu (m : Fin 48) (f : Chan → Chan) (h : Half) : (h.chanMap m f).slu = h.slu := rfl
@[simp] theorem Half.chanMap_out (m : Fin 48) (f : Chan → Chan) (h : Half) : (h.chanMap m f).out = h.out := rfl
@[simp] theorem Half.rcvMap_id (i : Inp) (f : Rcv → Rcv) (h : Half) : (h.rcvMap i f).id = h.id := rfl
@[simp] theorem Half.rcvMap_on (i : Inp) (f : Rcv → Rcv) (h : Half) : (h.rcvMap i f).on = h.on := rfl
@[simp] theorem Half.rcvMap_now (i : Inp) (f : Rcv → Rcv) (h : Half) : (h.rcvMap i f).now = h.now := rfl
@[simp] theorem Half.rcvMap_frame (i : Inp) (f : Rcv → Rcv) (h : Half) : (h.rcvMap i f).frame = h.frame := rfl
@[simp] theorem Half.rcvMap_cfg (i : Inp) (f : Rcv → Rcv) (h : Half) : (h.rcvMap i f).cfg = h.cfg := rfl
@[simp] theorem Half.rcvMap_rev (i : Inp) (f : Rcv → Rcv) (h : Half) : (h.rcvMap i f).rev = h.rev := rfl
@[simp] theorem Half.rcvMap_trk (i : Inp) (f : Rcv → Rcv) (h : Half) : (h.rcvMap i f).trk = h.trk := rfl
@[simp] theorem Half.rcvMap_tws (i : Inp) (f : Rcv → Rcv) (h : Half) : (h.rcvMap i f).tws = h.tws := rfl
@[simp] theorem Half.rcvMap_schCfg (i : Inp) (f : Rcv → Rcv) (h : Half) : (h.rcvMap i f).schCfg = h.schCfg := rfl
@[simp] theorem Half.rcvMap_slots (i : Inp) (f : Rcv → Rcv) (h : Half) : (h.rcvMap i f).slots = h.slots := rfl
@[simp] theorem Half.rcvMap_cyls (i : Inp) (f : Rcv → Rcv) (h : Half) : (h.rcvMap i f).cyls = h.cyls := rfl
@[simp] theorem Half.rcvMap_banks (i : Inp) (f : Rcv → Rcv) (h : Half) : (h.rcvMap i f).banks = h.banks := rfl
@[simp] theorem Half.rcvMap_chans (i : Inp) (f : Rcv → Rcv) (h : Half) : (h.rcvMap i f).chans = h.chans := rfl
@[simp] theorem Half.rcvMap_pairs (i : Inp) (f : Rcv → Rcv) (h : Half) : (h.rcvMap i f).pairs = h.pairs := rfl
@[simp] theorem Half.rcvMap_profs (i : Inp) (f : Rcv → Rcv) (h : Half) : (h.rcvMap i f).profs = h.profs := rfl
@[simp] theorem Half.rcvMap_profNew (i : Inp) (f : Rcv → Rcv) (h : Half) : (h.rcvMap i f).profNew = h.profNew := rfl
@[simp] theorem Half.rcvMap_fg (i : Inp) (f : Rcv → Rcv) (h : Half) : (h.rcvMap i f).fg = h.fg := rfl
@[simp] theorem Half.rcvMap_links (i : Inp) (f : Rcv → Rcv) (h : Half) : (h.rcvMap i f).links = h.links := rfl
@[simp] theorem Half.rcvMap_flt (i : Inp) (f : Rcv → Rcv) (h : Half) : (h.rcvMap i f).flt = h.flt := rfl
@[simp] theorem Half.rcvMap_snap (i : Inp) (f : Rcv → Rcv) (h : Half) : (h.rcvMap i f).snap = h.snap := rfl
@[simp] theorem Half.rcvMap_proc (i : Inp) (f : Rcv → Rcv) (h : Half) : (h.rcvMap i f).proc = h.proc := rfl
@[simp] theorem Half.rcvMap_evq (i : Inp) (f : Rcv → Rcv) (h : Half) : (h.rcvMap i f).evq = h.evq := rfl
@[simp] theorem Half.rcvMap_evqLost (i : Inp) (f : Rcv → Rcv) (h : Half) : (h.rcvMap i f).evqLost = h.evqLost := rfl
@[simp] theorem Half.rcvMap_evqOvf (i : Inp) (f : Rcv → Rcv) (h : Half) : (h.rcvMap i f).evqOvf = h.evqOvf := rfl
@[simp] theorem Half.rcvMap_fired (i : Inp) (f : Rcv → Rcv) (h : Half) : (h.rcvMap i f).fired = h.fired := rfl
@[simp] theorem Half.rcvMap_pinElec (i : Inp) (f : Rcv → Rcv) (h : Half) : (h.rcvMap i f).pinElec = h.pinElec := rfl
@[simp] theorem Half.rcvMap_shed (i : Inp) (f : Rcv → Rcv) (h : Half) : (h.rcvMap i f).shed = h.shed := rfl
@[simp] theorem Half.rcvMap_led (i : Inp) (f : Rcv → Rcv) (h : Half) : (h.rcvMap i f).led = h.led := rfl
@[simp] theorem Half.rcvMap_acq (i : Inp) (f : Rcv → Rcv) (h : Half) : (h.rcvMap i f).acq = h.acq := rfl
@[simp] theorem Half.rcvMap_ana (i : Inp) (f : Rcv → Rcv) (h : Half) : (h.rcvMap i f).ana = h.ana := rfl
@[simp] theorem Half.rcvMap_slu (i : Inp) (f : Rcv → Rcv) (h : Half) : (h.rcvMap i f).slu = h.slu := rfl
@[simp] theorem Half.rcvMap_out (i : Inp) (f : Rcv → Rcv) (h : Half) : (h.rcvMap i f).out = h.out := rfl
@[simp] theorem Half.revMap_id (i : Inp) (f : RevChk → RevChk) (h : Half) : (h.revMap i f).id = h.id := rfl
@[simp] theorem Half.revMap_on (i : Inp) (f : RevChk → RevChk) (h : Half) : (h.revMap i f).on = h.on := rfl
@[simp] theorem Half.revMap_now (i : Inp) (f : RevChk → RevChk) (h : Half) : (h.revMap i f).now = h.now := rfl
@[simp] theorem Half.revMap_frame (i : Inp) (f : RevChk → RevChk) (h : Half) : (h.revMap i f).frame = h.frame := rfl
@[simp] theorem Half.revMap_cfg (i : Inp) (f : RevChk → RevChk) (h : Half) : (h.revMap i f).cfg = h.cfg := rfl
@[simp] theorem Half.revMap_rcv (i : Inp) (f : RevChk → RevChk) (h : Half) : (h.revMap i f).rcv = h.rcv := rfl
@[simp] theorem Half.revMap_trk (i : Inp) (f : RevChk → RevChk) (h : Half) : (h.revMap i f).trk = h.trk := rfl
@[simp] theorem Half.revMap_tws (i : Inp) (f : RevChk → RevChk) (h : Half) : (h.revMap i f).tws = h.tws := rfl
@[simp] theorem Half.revMap_schCfg (i : Inp) (f : RevChk → RevChk) (h : Half) : (h.revMap i f).schCfg = h.schCfg := rfl
@[simp] theorem Half.revMap_slots (i : Inp) (f : RevChk → RevChk) (h : Half) : (h.revMap i f).slots = h.slots := rfl
@[simp] theorem Half.revMap_cyls (i : Inp) (f : RevChk → RevChk) (h : Half) : (h.revMap i f).cyls = h.cyls := rfl
@[simp] theorem Half.revMap_banks (i : Inp) (f : RevChk → RevChk) (h : Half) : (h.revMap i f).banks = h.banks := rfl
@[simp] theorem Half.revMap_chans (i : Inp) (f : RevChk → RevChk) (h : Half) : (h.revMap i f).chans = h.chans := rfl
@[simp] theorem Half.revMap_pairs (i : Inp) (f : RevChk → RevChk) (h : Half) : (h.revMap i f).pairs = h.pairs := rfl
@[simp] theorem Half.revMap_profs (i : Inp) (f : RevChk → RevChk) (h : Half) : (h.revMap i f).profs = h.profs := rfl
@[simp] theorem Half.revMap_profNew (i : Inp) (f : RevChk → RevChk) (h : Half) : (h.revMap i f).profNew = h.profNew := rfl
@[simp] theorem Half.revMap_fg (i : Inp) (f : RevChk → RevChk) (h : Half) : (h.revMap i f).fg = h.fg := rfl
@[simp] theorem Half.revMap_links (i : Inp) (f : RevChk → RevChk) (h : Half) : (h.revMap i f).links = h.links := rfl
@[simp] theorem Half.revMap_flt (i : Inp) (f : RevChk → RevChk) (h : Half) : (h.revMap i f).flt = h.flt := rfl
@[simp] theorem Half.revMap_snap (i : Inp) (f : RevChk → RevChk) (h : Half) : (h.revMap i f).snap = h.snap := rfl
@[simp] theorem Half.revMap_proc (i : Inp) (f : RevChk → RevChk) (h : Half) : (h.revMap i f).proc = h.proc := rfl
@[simp] theorem Half.revMap_evq (i : Inp) (f : RevChk → RevChk) (h : Half) : (h.revMap i f).evq = h.evq := rfl
@[simp] theorem Half.revMap_evqLost (i : Inp) (f : RevChk → RevChk) (h : Half) : (h.revMap i f).evqLost = h.evqLost := rfl
@[simp] theorem Half.revMap_evqOvf (i : Inp) (f : RevChk → RevChk) (h : Half) : (h.revMap i f).evqOvf = h.evqOvf := rfl
@[simp] theorem Half.revMap_fired (i : Inp) (f : RevChk → RevChk) (h : Half) : (h.revMap i f).fired = h.fired := rfl
@[simp] theorem Half.revMap_pinElec (i : Inp) (f : RevChk → RevChk) (h : Half) : (h.revMap i f).pinElec = h.pinElec := rfl
@[simp] theorem Half.revMap_shed (i : Inp) (f : RevChk → RevChk) (h : Half) : (h.revMap i f).shed = h.shed := rfl
@[simp] theorem Half.revMap_led (i : Inp) (f : RevChk → RevChk) (h : Half) : (h.revMap i f).led = h.led := rfl
@[simp] theorem Half.revMap_acq (i : Inp) (f : RevChk → RevChk) (h : Half) : (h.revMap i f).acq = h.acq := rfl
@[simp] theorem Half.revMap_ana (i : Inp) (f : RevChk → RevChk) (h : Half) : (h.revMap i f).ana = h.ana := rfl
@[simp] theorem Half.revMap_slu (i : Inp) (f : RevChk → RevChk) (h : Half) : (h.revMap i f).slu = h.slu := rfl
@[simp] theorem Half.revMap_out (i : Inp) (f : RevChk → RevChk) (h : Half) : (h.revMap i f).out = h.out := rfl
@[simp] theorem Half.slotMap_id (k : Fin 1024) (f : Slot → Slot) (h : Half) : (h.slotMap k f).id = h.id := rfl
@[simp] theorem Half.slotMap_on (k : Fin 1024) (f : Slot → Slot) (h : Half) : (h.slotMap k f).on = h.on := rfl
@[simp] theorem Half.slotMap_now (k : Fin 1024) (f : Slot → Slot) (h : Half) : (h.slotMap k f).now = h.now := rfl
@[simp] theorem Half.slotMap_frame (k : Fin 1024) (f : Slot → Slot) (h : Half) : (h.slotMap k f).frame = h.frame := rfl
@[simp] theorem Half.slotMap_cfg (k : Fin 1024) (f : Slot → Slot) (h : Half) : (h.slotMap k f).cfg = h.cfg := rfl
@[simp] theorem Half.slotMap_rcv (k : Fin 1024) (f : Slot → Slot) (h : Half) : (h.slotMap k f).rcv = h.rcv := rfl
@[simp] theorem Half.slotMap_rev (k : Fin 1024) (f : Slot → Slot) (h : Half) : (h.slotMap k f).rev = h.rev := rfl
@[simp] theorem Half.slotMap_trk (k : Fin 1024) (f : Slot → Slot) (h : Half) : (h.slotMap k f).trk = h.trk := rfl
@[simp] theorem Half.slotMap_tws (k : Fin 1024) (f : Slot → Slot) (h : Half) : (h.slotMap k f).tws = h.tws := rfl
@[simp] theorem Half.slotMap_schCfg (k : Fin 1024) (f : Slot → Slot) (h : Half) : (h.slotMap k f).schCfg = h.schCfg := rfl
@[simp] theorem Half.slotMap_cyls (k : Fin 1024) (f : Slot → Slot) (h : Half) : (h.slotMap k f).cyls = h.cyls := rfl
@[simp] theorem Half.slotMap_banks (k : Fin 1024) (f : Slot → Slot) (h : Half) : (h.slotMap k f).banks = h.banks := rfl
@[simp] theorem Half.slotMap_chans (k : Fin 1024) (f : Slot → Slot) (h : Half) : (h.slotMap k f).chans = h.chans := rfl
@[simp] theorem Half.slotMap_pairs (k : Fin 1024) (f : Slot → Slot) (h : Half) : (h.slotMap k f).pairs = h.pairs := rfl
@[simp] theorem Half.slotMap_profs (k : Fin 1024) (f : Slot → Slot) (h : Half) : (h.slotMap k f).profs = h.profs := rfl
@[simp] theorem Half.slotMap_profNew (k : Fin 1024) (f : Slot → Slot) (h : Half) : (h.slotMap k f).profNew = h.profNew := rfl
@[simp] theorem Half.slotMap_fg (k : Fin 1024) (f : Slot → Slot) (h : Half) : (h.slotMap k f).fg = h.fg := rfl
@[simp] theorem Half.slotMap_links (k : Fin 1024) (f : Slot → Slot) (h : Half) : (h.slotMap k f).links = h.links := rfl
@[simp] theorem Half.slotMap_flt (k : Fin 1024) (f : Slot → Slot) (h : Half) : (h.slotMap k f).flt = h.flt := rfl
@[simp] theorem Half.slotMap_snap (k : Fin 1024) (f : Slot → Slot) (h : Half) : (h.slotMap k f).snap = h.snap := rfl
@[simp] theorem Half.slotMap_proc (k : Fin 1024) (f : Slot → Slot) (h : Half) : (h.slotMap k f).proc = h.proc := rfl
@[simp] theorem Half.slotMap_evq (k : Fin 1024) (f : Slot → Slot) (h : Half) : (h.slotMap k f).evq = h.evq := rfl
@[simp] theorem Half.slotMap_evqLost (k : Fin 1024) (f : Slot → Slot) (h : Half) : (h.slotMap k f).evqLost = h.evqLost := rfl
@[simp] theorem Half.slotMap_evqOvf (k : Fin 1024) (f : Slot → Slot) (h : Half) : (h.slotMap k f).evqOvf = h.evqOvf := rfl
@[simp] theorem Half.slotMap_fired (k : Fin 1024) (f : Slot → Slot) (h : Half) : (h.slotMap k f).fired = h.fired := rfl
@[simp] theorem Half.slotMap_pinElec (k : Fin 1024) (f : Slot → Slot) (h : Half) : (h.slotMap k f).pinElec = h.pinElec := rfl
@[simp] theorem Half.slotMap_shed (k : Fin 1024) (f : Slot → Slot) (h : Half) : (h.slotMap k f).shed = h.shed := rfl
@[simp] theorem Half.slotMap_led (k : Fin 1024) (f : Slot → Slot) (h : Half) : (h.slotMap k f).led = h.led := rfl
@[simp] theorem Half.slotMap_acq (k : Fin 1024) (f : Slot → Slot) (h : Half) : (h.slotMap k f).acq = h.acq := rfl
@[simp] theorem Half.slotMap_ana (k : Fin 1024) (f : Slot → Slot) (h : Half) : (h.slotMap k f).ana = h.ana := rfl
@[simp] theorem Half.slotMap_slu (k : Fin 1024) (f : Slot → Slot) (h : Half) : (h.slotMap k f).slu = h.slu := rfl
@[simp] theorem Half.slotMap_out (k : Fin 1024) (f : Slot → Slot) (h : Half) : (h.slotMap k f).out = h.out := rfl
@[simp] theorem Half.sleMap_id (e : Fin 8) (f : Sle → Sle) (h : Half) : (h.sleMap e f).id = h.id := rfl
@[simp] theorem Half.sleMap_on (e : Fin 8) (f : Sle → Sle) (h : Half) : (h.sleMap e f).on = h.on := rfl
@[simp] theorem Half.sleMap_now (e : Fin 8) (f : Sle → Sle) (h : Half) : (h.sleMap e f).now = h.now := rfl
@[simp] theorem Half.sleMap_frame (e : Fin 8) (f : Sle → Sle) (h : Half) : (h.sleMap e f).frame = h.frame := rfl
@[simp] theorem Half.sleMap_cfg (e : Fin 8) (f : Sle → Sle) (h : Half) : (h.sleMap e f).cfg = h.cfg := rfl
@[simp] theorem Half.sleMap_rcv (e : Fin 8) (f : Sle → Sle) (h : Half) : (h.sleMap e f).rcv = h.rcv := rfl
@[simp] theorem Half.sleMap_rev (e : Fin 8) (f : Sle → Sle) (h : Half) : (h.sleMap e f).rev = h.rev := rfl
@[simp] theorem Half.sleMap_trk (e : Fin 8) (f : Sle → Sle) (h : Half) : (h.sleMap e f).trk = h.trk := rfl
@[simp] theorem Half.sleMap_tws (e : Fin 8) (f : Sle → Sle) (h : Half) : (h.sleMap e f).tws = h.tws := rfl
@[simp] theorem Half.sleMap_schCfg (e : Fin 8) (f : Sle → Sle) (h : Half) : (h.sleMap e f).schCfg = h.schCfg := rfl
@[simp] theorem Half.sleMap_slots (e : Fin 8) (f : Sle → Sle) (h : Half) : (h.sleMap e f).slots = h.slots := rfl
@[simp] theorem Half.sleMap_cyls (e : Fin 8) (f : Sle → Sle) (h : Half) : (h.sleMap e f).cyls = h.cyls := rfl
@[simp] theorem Half.sleMap_banks (e : Fin 8) (f : Sle → Sle) (h : Half) : (h.sleMap e f).banks = h.banks := rfl
@[simp] theorem Half.sleMap_chans (e : Fin 8) (f : Sle → Sle) (h : Half) : (h.sleMap e f).chans = h.chans := rfl
@[simp] theorem Half.sleMap_pairs (e : Fin 8) (f : Sle → Sle) (h : Half) : (h.sleMap e f).pairs = h.pairs := rfl
@[simp] theorem Half.sleMap_profs (e : Fin 8) (f : Sle → Sle) (h : Half) : (h.sleMap e f).profs = h.profs := rfl
@[simp] theorem Half.sleMap_profNew (e : Fin 8) (f : Sle → Sle) (h : Half) : (h.sleMap e f).profNew = h.profNew := rfl
@[simp] theorem Half.sleMap_fg (e : Fin 8) (f : Sle → Sle) (h : Half) : (h.sleMap e f).fg = h.fg := rfl
@[simp] theorem Half.sleMap_links (e : Fin 8) (f : Sle → Sle) (h : Half) : (h.sleMap e f).links = h.links := rfl
@[simp] theorem Half.sleMap_flt (e : Fin 8) (f : Sle → Sle) (h : Half) : (h.sleMap e f).flt = h.flt := rfl
@[simp] theorem Half.sleMap_snap (e : Fin 8) (f : Sle → Sle) (h : Half) : (h.sleMap e f).snap = h.snap := rfl
@[simp] theorem Half.sleMap_proc (e : Fin 8) (f : Sle → Sle) (h : Half) : (h.sleMap e f).proc = h.proc := rfl
@[simp] theorem Half.sleMap_evq (e : Fin 8) (f : Sle → Sle) (h : Half) : (h.sleMap e f).evq = h.evq := rfl
@[simp] theorem Half.sleMap_evqLost (e : Fin 8) (f : Sle → Sle) (h : Half) : (h.sleMap e f).evqLost = h.evqLost := rfl
@[simp] theorem Half.sleMap_evqOvf (e : Fin 8) (f : Sle → Sle) (h : Half) : (h.sleMap e f).evqOvf = h.evqOvf := rfl
@[simp] theorem Half.sleMap_fired (e : Fin 8) (f : Sle → Sle) (h : Half) : (h.sleMap e f).fired = h.fired := rfl
@[simp] theorem Half.sleMap_pinElec (e : Fin 8) (f : Sle → Sle) (h : Half) : (h.sleMap e f).pinElec = h.pinElec := rfl
@[simp] theorem Half.sleMap_shed (e : Fin 8) (f : Sle → Sle) (h : Half) : (h.sleMap e f).shed = h.shed := rfl
@[simp] theorem Half.sleMap_led (e : Fin 8) (f : Sle → Sle) (h : Half) : (h.sleMap e f).led = h.led := rfl
@[simp] theorem Half.sleMap_acq (e : Fin 8) (f : Sle → Sle) (h : Half) : (h.sleMap e f).acq = h.acq := rfl
@[simp] theorem Half.sleMap_ana (e : Fin 8) (f : Sle → Sle) (h : Half) : (h.sleMap e f).ana = h.ana := rfl
@[simp] theorem Half.sleMap_out (e : Fin 8) (f : Sle → Sle) (h : Half) : (h.sleMap e f).out = h.out := rfl
@[simp] theorem Half.slgMap_id (g : Fin 2) (f : Slg → Slg) (h : Half) : (h.slgMap g f).id = h.id := rfl
@[simp] theorem Half.slgMap_on (g : Fin 2) (f : Slg → Slg) (h : Half) : (h.slgMap g f).on = h.on := rfl
@[simp] theorem Half.slgMap_now (g : Fin 2) (f : Slg → Slg) (h : Half) : (h.slgMap g f).now = h.now := rfl
@[simp] theorem Half.slgMap_frame (g : Fin 2) (f : Slg → Slg) (h : Half) : (h.slgMap g f).frame = h.frame := rfl
@[simp] theorem Half.slgMap_cfg (g : Fin 2) (f : Slg → Slg) (h : Half) : (h.slgMap g f).cfg = h.cfg := rfl
@[simp] theorem Half.slgMap_rcv (g : Fin 2) (f : Slg → Slg) (h : Half) : (h.slgMap g f).rcv = h.rcv := rfl
@[simp] theorem Half.slgMap_rev (g : Fin 2) (f : Slg → Slg) (h : Half) : (h.slgMap g f).rev = h.rev := rfl
@[simp] theorem Half.slgMap_trk (g : Fin 2) (f : Slg → Slg) (h : Half) : (h.slgMap g f).trk = h.trk := rfl
@[simp] theorem Half.slgMap_tws (g : Fin 2) (f : Slg → Slg) (h : Half) : (h.slgMap g f).tws = h.tws := rfl
@[simp] theorem Half.slgMap_schCfg (g : Fin 2) (f : Slg → Slg) (h : Half) : (h.slgMap g f).schCfg = h.schCfg := rfl
@[simp] theorem Half.slgMap_slots (g : Fin 2) (f : Slg → Slg) (h : Half) : (h.slgMap g f).slots = h.slots := rfl
@[simp] theorem Half.slgMap_cyls (g : Fin 2) (f : Slg → Slg) (h : Half) : (h.slgMap g f).cyls = h.cyls := rfl
@[simp] theorem Half.slgMap_banks (g : Fin 2) (f : Slg → Slg) (h : Half) : (h.slgMap g f).banks = h.banks := rfl
@[simp] theorem Half.slgMap_chans (g : Fin 2) (f : Slg → Slg) (h : Half) : (h.slgMap g f).chans = h.chans := rfl
@[simp] theorem Half.slgMap_pairs (g : Fin 2) (f : Slg → Slg) (h : Half) : (h.slgMap g f).pairs = h.pairs := rfl
@[simp] theorem Half.slgMap_profs (g : Fin 2) (f : Slg → Slg) (h : Half) : (h.slgMap g f).profs = h.profs := rfl
@[simp] theorem Half.slgMap_profNew (g : Fin 2) (f : Slg → Slg) (h : Half) : (h.slgMap g f).profNew = h.profNew := rfl
@[simp] theorem Half.slgMap_fg (g : Fin 2) (f : Slg → Slg) (h : Half) : (h.slgMap g f).fg = h.fg := rfl
@[simp] theorem Half.slgMap_links (g : Fin 2) (f : Slg → Slg) (h : Half) : (h.slgMap g f).links = h.links := rfl
@[simp] theorem Half.slgMap_flt (g : Fin 2) (f : Slg → Slg) (h : Half) : (h.slgMap g f).flt = h.flt := rfl
@[simp] theorem Half.slgMap_snap (g : Fin 2) (f : Slg → Slg) (h : Half) : (h.slgMap g f).snap = h.snap := rfl
@[simp] theorem Half.slgMap_proc (g : Fin 2) (f : Slg → Slg) (h : Half) : (h.slgMap g f).proc = h.proc := rfl
@[simp] theorem Half.slgMap_evq (g : Fin 2) (f : Slg → Slg) (h : Half) : (h.slgMap g f).evq = h.evq := rfl
@[simp] theorem Half.slgMap_evqLost (g : Fin 2) (f : Slg → Slg) (h : Half) : (h.slgMap g f).evqLost = h.evqLost := rfl
@[simp] theorem Half.slgMap_evqOvf (g : Fin 2) (f : Slg → Slg) (h : Half) : (h.slgMap g f).evqOvf = h.evqOvf := rfl
@[simp] theorem Half.slgMap_fired (g : Fin 2) (f : Slg → Slg) (h : Half) : (h.slgMap g f).fired = h.fired := rfl
@[simp] theorem Half.slgMap_pinElec (g : Fin 2) (f : Slg → Slg) (h : Half) : (h.slgMap g f).pinElec = h.pinElec := rfl
@[simp] theorem Half.slgMap_shed (g : Fin 2) (f : Slg → Slg) (h : Half) : (h.slgMap g f).shed = h.shed := rfl
@[simp] theorem Half.slgMap_led (g : Fin 2) (f : Slg → Slg) (h : Half) : (h.slgMap g f).led = h.led := rfl
@[simp] theorem Half.slgMap_acq (g : Fin 2) (f : Slg → Slg) (h : Half) : (h.slgMap g f).acq = h.acq := rfl
@[simp] theorem Half.slgMap_ana (g : Fin 2) (f : Slg → Slg) (h : Half) : (h.slgMap g f).ana = h.ana := rfl
@[simp] theorem Half.slgMap_out (g : Fin 2) (f : Slg → Slg) (h : Half) : (h.slgMap g f).out = h.out := rfl
@[simp] theorem Half.trkMap_id (f : Trk → Trk) (h : Half) : (h.trkMap f).id = h.id := rfl
@[simp] theorem Half.trkMap_on (f : Trk → Trk) (h : Half) : (h.trkMap f).on = h.on := rfl
@[simp] theorem Half.trkMap_now (f : Trk → Trk) (h : Half) : (h.trkMap f).now = h.now := rfl
@[simp] theorem Half.trkMap_frame (f : Trk → Trk) (h : Half) : (h.trkMap f).frame = h.frame := rfl
@[simp] theorem Half.trkMap_cfg (f : Trk → Trk) (h : Half) : (h.trkMap f).cfg = h.cfg := rfl
@[simp] theorem Half.trkMap_rcv (f : Trk → Trk) (h : Half) : (h.trkMap f).rcv = h.rcv := rfl
@[simp] theorem Half.trkMap_rev (f : Trk → Trk) (h : Half) : (h.trkMap f).rev = h.rev := rfl
@[simp] theorem Half.trkMap_tws (f : Trk → Trk) (h : Half) : (h.trkMap f).tws = h.tws := rfl
@[simp] theorem Half.trkMap_schCfg (f : Trk → Trk) (h : Half) : (h.trkMap f).schCfg = h.schCfg := rfl
@[simp] theorem Half.trkMap_slots (f : Trk → Trk) (h : Half) : (h.trkMap f).slots = h.slots := rfl
@[simp] theorem Half.trkMap_cyls (f : Trk → Trk) (h : Half) : (h.trkMap f).cyls = h.cyls := rfl
@[simp] theorem Half.trkMap_banks (f : Trk → Trk) (h : Half) : (h.trkMap f).banks = h.banks := rfl
@[simp] theorem Half.trkMap_chans (f : Trk → Trk) (h : Half) : (h.trkMap f).chans = h.chans := rfl
@[simp] theorem Half.trkMap_pairs (f : Trk → Trk) (h : Half) : (h.trkMap f).pairs = h.pairs := rfl
@[simp] theorem Half.trkMap_profs (f : Trk → Trk) (h : Half) : (h.trkMap f).profs = h.profs := rfl
@[simp] theorem Half.trkMap_profNew (f : Trk → Trk) (h : Half) : (h.trkMap f).profNew = h.profNew := rfl
@[simp] theorem Half.trkMap_fg (f : Trk → Trk) (h : Half) : (h.trkMap f).fg = h.fg := rfl
@[simp] theorem Half.trkMap_links (f : Trk → Trk) (h : Half) : (h.trkMap f).links = h.links := rfl
@[simp] theorem Half.trkMap_flt (f : Trk → Trk) (h : Half) : (h.trkMap f).flt = h.flt := rfl
@[simp] theorem Half.trkMap_snap (f : Trk → Trk) (h : Half) : (h.trkMap f).snap = h.snap := rfl
@[simp] theorem Half.trkMap_proc (f : Trk → Trk) (h : Half) : (h.trkMap f).proc = h.proc := rfl
@[simp] theorem Half.trkMap_evq (f : Trk → Trk) (h : Half) : (h.trkMap f).evq = h.evq := rfl
@[simp] theorem Half.trkMap_evqLost (f : Trk → Trk) (h : Half) : (h.trkMap f).evqLost = h.evqLost := rfl
@[simp] theorem Half.trkMap_evqOvf (f : Trk → Trk) (h : Half) : (h.trkMap f).evqOvf = h.evqOvf := rfl
@[simp] theorem Half.trkMap_fired (f : Trk → Trk) (h : Half) : (h.trkMap f).fired = h.fired := rfl
@[simp] theorem Half.trkMap_pinElec (f : Trk → Trk) (h : Half) : (h.trkMap f).pinElec = h.pinElec := rfl
@[simp] theorem Half.trkMap_shed (f : Trk → Trk) (h : Half) : (h.trkMap f).shed = h.shed := rfl
@[simp] theorem Half.trkMap_led (f : Trk → Trk) (h : Half) : (h.trkMap f).led = h.led := rfl
@[simp] theorem Half.trkMap_acq (f : Trk → Trk) (h : Half) : (h.trkMap f).acq = h.acq := rfl
@[simp] theorem Half.trkMap_ana (f : Trk → Trk) (h : Half) : (h.trkMap f).ana = h.ana := rfl
@[simp] theorem Half.trkMap_slu (f : Trk → Trk) (h : Half) : (h.trkMap f).slu = h.slu := rfl
@[simp] theorem Half.trkMap_out (f : Trk → Trk) (h : Half) : (h.trkMap f).out = h.out := rfl
@[simp] theorem Half.srcMap_id (f : TUnit → TUnit) (h : Half) : (h.srcMap f).id = h.id := rfl
@[simp] theorem Half.srcMap_on (f : TUnit → TUnit) (h : Half) : (h.srcMap f).on = h.on := rfl
@[simp] theorem Half.srcMap_now (f : TUnit → TUnit) (h : Half) : (h.srcMap f).now = h.now := rfl
@[simp] theorem Half.srcMap_frame (f : TUnit → TUnit) (h : Half) : (h.srcMap f).frame = h.frame := rfl
@[simp] theorem Half.srcMap_cfg (f : TUnit → TUnit) (h : Half) : (h.srcMap f).cfg = h.cfg := rfl
@[simp] theorem Half.srcMap_rcv (f : TUnit → TUnit) (h : Half) : (h.srcMap f).rcv = h.rcv := rfl
@[simp] theorem Half.srcMap_rev (f : TUnit → TUnit) (h : Half) : (h.srcMap f).rev = h.rev := rfl
@[simp] theorem Half.srcMap_tws (f : TUnit → TUnit) (h : Half) : (h.srcMap f).tws = h.tws := rfl
@[simp] theorem Half.srcMap_schCfg (f : TUnit → TUnit) (h : Half) : (h.srcMap f).schCfg = h.schCfg := rfl
@[simp] theorem Half.srcMap_slots (f : TUnit → TUnit) (h : Half) : (h.srcMap f).slots = h.slots := rfl
@[simp] theorem Half.srcMap_cyls (f : TUnit → TUnit) (h : Half) : (h.srcMap f).cyls = h.cyls := rfl
@[simp] theorem Half.srcMap_banks (f : TUnit → TUnit) (h : Half) : (h.srcMap f).banks = h.banks := rfl
@[simp] theorem Half.srcMap_chans (f : TUnit → TUnit) (h : Half) : (h.srcMap f).chans = h.chans := rfl
@[simp] theorem Half.srcMap_pairs (f : TUnit → TUnit) (h : Half) : (h.srcMap f).pairs = h.pairs := rfl
@[simp] theorem Half.srcMap_profs (f : TUnit → TUnit) (h : Half) : (h.srcMap f).profs = h.profs := rfl
@[simp] theorem Half.srcMap_profNew (f : TUnit → TUnit) (h : Half) : (h.srcMap f).profNew = h.profNew := rfl
@[simp] theorem Half.srcMap_fg (f : TUnit → TUnit) (h : Half) : (h.srcMap f).fg = h.fg := rfl
@[simp] theorem Half.srcMap_links (f : TUnit → TUnit) (h : Half) : (h.srcMap f).links = h.links := rfl
@[simp] theorem Half.srcMap_flt (f : TUnit → TUnit) (h : Half) : (h.srcMap f).flt = h.flt := rfl
@[simp] theorem Half.srcMap_snap (f : TUnit → TUnit) (h : Half) : (h.srcMap f).snap = h.snap := rfl
@[simp] theorem Half.srcMap_proc (f : TUnit → TUnit) (h : Half) : (h.srcMap f).proc = h.proc := rfl
@[simp] theorem Half.srcMap_evq (f : TUnit → TUnit) (h : Half) : (h.srcMap f).evq = h.evq := rfl
@[simp] theorem Half.srcMap_evqLost (f : TUnit → TUnit) (h : Half) : (h.srcMap f).evqLost = h.evqLost := rfl
@[simp] theorem Half.srcMap_evqOvf (f : TUnit → TUnit) (h : Half) : (h.srcMap f).evqOvf = h.evqOvf := rfl
@[simp] theorem Half.srcMap_fired (f : TUnit → TUnit) (h : Half) : (h.srcMap f).fired = h.fired := rfl
@[simp] theorem Half.srcMap_pinElec (f : TUnit → TUnit) (h : Half) : (h.srcMap f).pinElec = h.pinElec := rfl
@[simp] theorem Half.srcMap_shed (f : TUnit → TUnit) (h : Half) : (h.srcMap f).shed = h.shed := rfl
@[simp] theorem Half.srcMap_led (f : TUnit → TUnit) (h : Half) : (h.srcMap f).led = h.led := rfl
@[simp] theorem Half.srcMap_acq (f : TUnit → TUnit) (h : Half) : (h.srcMap f).acq = h.acq := rfl
@[simp] theorem Half.srcMap_ana (f : TUnit → TUnit) (h : Half) : (h.srcMap f).ana = h.ana := rfl
@[simp] theorem Half.srcMap_slu (f : TUnit → TUnit) (h : Half) : (h.srcMap f).slu = h.slu := rfl
@[simp] theorem Half.srcMap_out (f : TUnit → TUnit) (h : Half) : (h.srcMap f).out = h.out := rfl
@[simp] theorem Half.secMap_id (f : TUnit → TUnit) (h : Half) : (h.secMap f).id = h.id := rfl
@[simp] theorem Half.secMap_on (f : TUnit → TUnit) (h : Half) : (h.secMap f).on = h.on := rfl
@[simp] theorem Half.secMap_now (f : TUnit → TUnit) (h : Half) : (h.secMap f).now = h.now := rfl
@[simp] theorem Half.secMap_frame (f : TUnit → TUnit) (h : Half) : (h.secMap f).frame = h.frame := rfl
@[simp] theorem Half.secMap_cfg (f : TUnit → TUnit) (h : Half) : (h.secMap f).cfg = h.cfg := rfl
@[simp] theorem Half.secMap_rcv (f : TUnit → TUnit) (h : Half) : (h.secMap f).rcv = h.rcv := rfl
@[simp] theorem Half.secMap_rev (f : TUnit → TUnit) (h : Half) : (h.secMap f).rev = h.rev := rfl
@[simp] theorem Half.secMap_tws (f : TUnit → TUnit) (h : Half) : (h.secMap f).tws = h.tws := rfl
@[simp] theorem Half.secMap_schCfg (f : TUnit → TUnit) (h : Half) : (h.secMap f).schCfg = h.schCfg := rfl
@[simp] theorem Half.secMap_slots (f : TUnit → TUnit) (h : Half) : (h.secMap f).slots = h.slots := rfl
@[simp] theorem Half.secMap_cyls (f : TUnit → TUnit) (h : Half) : (h.secMap f).cyls = h.cyls := rfl
@[simp] theorem Half.secMap_banks (f : TUnit → TUnit) (h : Half) : (h.secMap f).banks = h.banks := rfl
@[simp] theorem Half.secMap_chans (f : TUnit → TUnit) (h : Half) : (h.secMap f).chans = h.chans := rfl
@[simp] theorem Half.secMap_pairs (f : TUnit → TUnit) (h : Half) : (h.secMap f).pairs = h.pairs := rfl
@[simp] theorem Half.secMap_profs (f : TUnit → TUnit) (h : Half) : (h.secMap f).profs = h.profs := rfl
@[simp] theorem Half.secMap_profNew (f : TUnit → TUnit) (h : Half) : (h.secMap f).profNew = h.profNew := rfl
@[simp] theorem Half.secMap_fg (f : TUnit → TUnit) (h : Half) : (h.secMap f).fg = h.fg := rfl
@[simp] theorem Half.secMap_links (f : TUnit → TUnit) (h : Half) : (h.secMap f).links = h.links := rfl
@[simp] theorem Half.secMap_flt (f : TUnit → TUnit) (h : Half) : (h.secMap f).flt = h.flt := rfl
@[simp] theorem Half.secMap_snap (f : TUnit → TUnit) (h : Half) : (h.secMap f).snap = h.snap := rfl
@[simp] theorem Half.secMap_proc (f : TUnit → TUnit) (h : Half) : (h.secMap f).proc = h.proc := rfl
@[simp] theorem Half.secMap_evq (f : TUnit → TUnit) (h : Half) : (h.secMap f).evq = h.evq := rfl
@[simp] theorem Half.secMap_evqLost (f : TUnit → TUnit) (h : Half) : (h.secMap f).evqLost = h.evqLost := rfl
@[simp] theorem Half.secMap_evqOvf (f : TUnit → TUnit) (h : Half) : (h.secMap f).evqOvf = h.evqOvf := rfl
@[simp] theorem Half.secMap_fired (f : TUnit → TUnit) (h : Half) : (h.secMap f).fired = h.fired := rfl
@[simp] theorem Half.secMap_pinElec (f : TUnit → TUnit) (h : Half) : (h.secMap f).pinElec = h.pinElec := rfl
@[simp] theorem Half.secMap_shed (f : TUnit → TUnit) (h : Half) : (h.secMap f).shed = h.shed := rfl
@[simp] theorem Half.secMap_led (f : TUnit → TUnit) (h : Half) : (h.secMap f).led = h.led := rfl
@[simp] theorem Half.secMap_acq (f : TUnit → TUnit) (h : Half) : (h.secMap f).acq = h.acq := rfl
@[simp] theorem Half.secMap_ana (f : TUnit → TUnit) (h : Half) : (h.secMap f).ana = h.ana := rfl
@[simp] theorem Half.secMap_slu (f : TUnit → TUnit) (h : Half) : (h.secMap f).slu = h.slu := rfl
@[simp] theorem Half.secMap_out (f : TUnit → TUnit) (h : Half) : (h.secMap f).out = h.out := rfl
@[simp] theorem Half.twsMap_id (f : Tws → Tws) (h : Half) : (h.twsMap f).id = h.id := rfl
@[simp] theorem Half.twsMap_on (f : Tws → Tws) (h : Half) : (h.twsMap f).on = h.on := rfl
@[simp] theorem Half.twsMap_now (f : Tws → Tws) (h : Half) : (h.twsMap f).now = h.now := rfl
@[simp] theorem Half.twsMap_frame (f : Tws → Tws) (h : Half) : (h.twsMap f).frame = h.frame := rfl
@[simp] theorem Half.twsMap_cfg (f : Tws → Tws) (h : Half) : (h.twsMap f).cfg = h.cfg := rfl
@[simp] theorem Half.twsMap_rcv (f : Tws → Tws) (h : Half) : (h.twsMap f).rcv = h.rcv := rfl
@[simp] theorem Half.twsMap_rev (f : Tws → Tws) (h : Half) : (h.twsMap f).rev = h.rev := rfl
@[simp] theorem Half.twsMap_trk (f : Tws → Tws) (h : Half) : (h.twsMap f).trk = h.trk := rfl
@[simp] theorem Half.twsMap_schCfg (f : Tws → Tws) (h : Half) : (h.twsMap f).schCfg = h.schCfg := rfl
@[simp] theorem Half.twsMap_slots (f : Tws → Tws) (h : Half) : (h.twsMap f).slots = h.slots := rfl
@[simp] theorem Half.twsMap_cyls (f : Tws → Tws) (h : Half) : (h.twsMap f).cyls = h.cyls := rfl
@[simp] theorem Half.twsMap_banks (f : Tws → Tws) (h : Half) : (h.twsMap f).banks = h.banks := rfl
@[simp] theorem Half.twsMap_chans (f : Tws → Tws) (h : Half) : (h.twsMap f).chans = h.chans := rfl
@[simp] theorem Half.twsMap_pairs (f : Tws → Tws) (h : Half) : (h.twsMap f).pairs = h.pairs := rfl
@[simp] theorem Half.twsMap_profs (f : Tws → Tws) (h : Half) : (h.twsMap f).profs = h.profs := rfl
@[simp] theorem Half.twsMap_profNew (f : Tws → Tws) (h : Half) : (h.twsMap f).profNew = h.profNew := rfl
@[simp] theorem Half.twsMap_fg (f : Tws → Tws) (h : Half) : (h.twsMap f).fg = h.fg := rfl
@[simp] theorem Half.twsMap_links (f : Tws → Tws) (h : Half) : (h.twsMap f).links = h.links := rfl
@[simp] theorem Half.twsMap_flt (f : Tws → Tws) (h : Half) : (h.twsMap f).flt = h.flt := rfl
@[simp] theorem Half.twsMap_snap (f : Tws → Tws) (h : Half) : (h.twsMap f).snap = h.snap := rfl
@[simp] theorem Half.twsMap_proc (f : Tws → Tws) (h : Half) : (h.twsMap f).proc = h.proc := rfl
@[simp] theorem Half.twsMap_evq (f : Tws → Tws) (h : Half) : (h.twsMap f).evq = h.evq := rfl
@[simp] theorem Half.twsMap_evqLost (f : Tws → Tws) (h : Half) : (h.twsMap f).evqLost = h.evqLost := rfl
@[simp] theorem Half.twsMap_evqOvf (f : Tws → Tws) (h : Half) : (h.twsMap f).evqOvf = h.evqOvf := rfl
@[simp] theorem Half.twsMap_fired (f : Tws → Tws) (h : Half) : (h.twsMap f).fired = h.fired := rfl
@[simp] theorem Half.twsMap_pinElec (f : Tws → Tws) (h : Half) : (h.twsMap f).pinElec = h.pinElec := rfl
@[simp] theorem Half.twsMap_shed (f : Tws → Tws) (h : Half) : (h.twsMap f).shed = h.shed := rfl
@[simp] theorem Half.twsMap_led (f : Tws → Tws) (h : Half) : (h.twsMap f).led = h.led := rfl
@[simp] theorem Half.twsMap_acq (f : Tws → Tws) (h : Half) : (h.twsMap f).acq = h.acq := rfl
@[simp] theorem Half.twsMap_ana (f : Tws → Tws) (h : Half) : (h.twsMap f).ana = h.ana := rfl
@[simp] theorem Half.twsMap_slu (f : Tws → Tws) (h : Half) : (h.twsMap f).slu = h.slu := rfl
@[simp] theorem Half.twsMap_out (f : Tws → Tws) (h : Half) : (h.twsMap f).out = h.out := rfl
@[simp] theorem Half.acqMap_acq (f : Acq → Acq) (h : Half) : (h.acqMap f).acq = f h.acq := rfl
@[simp] theorem Half.trkMap_trk (f : Trk → Trk) (h : Half) : (h.trkMap f).trk = f h.trk := rfl
@[simp] theorem Half.twsMap_tws (f : Tws → Tws) (h : Half) : (h.twsMap f).tws = f h.tws := rfl
@[simp] theorem Half.cylMap_cyls (k : Fin 24) (f : CylSt → CylSt) (h : Half) : (h.cylMap k f).cyls = upd h.cyls k f := rfl
@[simp] theorem Half.pairMap_pairs (p : Fin 24) (f : Pair → Pair) (h : Half) : (h.pairMap p f).pairs = upd h.pairs p f := rfl
@[simp] theorem Half.chanMap_chans (m : Fin 48) (f : Chan → Chan) (h : Half) : (h.chanMap m f).chans = upd h.chans m f := rfl
@[simp] theorem Half.slotMap_slots (k : Fin 1024) (f : Slot → Slot) (h : Half) : (h.slotMap k f).slots = upd h.slots k f := rfl
@[simp] theorem Half.rcvMap_rcv (i : Inp) (f : Rcv → Rcv) (h : Half) : (h.rcvMap i f).rcv = upd h.rcv i.ix f := rfl
@[simp] theorem Half.revMap_rev (i : Inp) (f : RevChk → RevChk) (h : Half) : (h.revMap i f).rev = upd h.rev i.ix f := rfl
@[simp] theorem Half.emit_id (x : Out) (h : Half) : (h.emit x).id = h.id := rfl
@[simp] theorem Half.emit_on (x : Out) (h : Half) : (h.emit x).on = h.on := rfl
@[simp] theorem Half.emit_now (x : Out) (h : Half) : (h.emit x).now = h.now := rfl
@[simp] theorem Half.emit_frame (x : Out) (h : Half) : (h.emit x).frame = h.frame := rfl
@[simp] theorem Half.emit_cfg (x : Out) (h : Half) : (h.emit x).cfg = h.cfg := rfl
@[simp] theorem Half.emit_rcv (x : Out) (h : Half) : (h.emit x).rcv = h.rcv := rfl
@[simp] theorem Half.emit_rev (x : Out) (h : Half) : (h.emit x).rev = h.rev := rfl
@[simp] theorem Half.emit_trk (x : Out) (h : Half) : (h.emit x).trk = h.trk := rfl
@[simp] theorem Half.emit_tws (x : Out) (h : Half) : (h.emit x).tws = h.tws := rfl
@[simp] theorem Half.emit_schCfg (x : Out) (h : Half) : (h.emit x).schCfg = h.schCfg := rfl
@[simp] theorem Half.emit_slots (x : Out) (h : Half) : (h.emit x).slots = h.slots := rfl
@[simp] theorem Half.emit_cyls (x : Out) (h : Half) : (h.emit x).cyls = h.cyls := rfl
@[simp] theorem Half.emit_banks (x : Out) (h : Half) : (h.emit x).banks = h.banks := rfl
@[simp] theorem Half.emit_chans (x : Out) (h : Half) : (h.emit x).chans = h.chans := rfl
@[simp] theorem Half.emit_pairs (x : Out) (h : Half) : (h.emit x).pairs = h.pairs := rfl
@[simp] theorem Half.emit_profs (x : Out) (h : Half) : (h.emit x).profs = h.profs := rfl
@[simp] theorem Half.emit_profNew (x : Out) (h : Half) : (h.emit x).profNew = h.profNew := rfl
@[simp] theorem Half.emit_fg (x : Out) (h : Half) : (h.emit x).fg = h.fg := rfl
@[simp] theorem Half.emit_links (x : Out) (h : Half) : (h.emit x).links = h.links := rfl
@[simp] theorem Half.emit_flt (x : Out) (h : Half) : (h.emit x).flt = h.flt := rfl
@[simp] theorem Half.emit_snap (x : Out) (h : Half) : (h.emit x).snap = h.snap := rfl
@[simp] theorem Half.emit_proc (x : Out) (h : Half) : (h.emit x).proc = h.proc := rfl
@[simp] theorem Half.emit_evq (x : Out) (h : Half) : (h.emit x).evq = h.evq := rfl
@[simp] theorem Half.emit_evqLost (x : Out) (h : Half) : (h.emit x).evqLost = h.evqLost := rfl
@[simp] theorem Half.emit_evqOvf (x : Out) (h : Half) : (h.emit x).evqOvf = h.evqOvf := rfl
@[simp] theorem Half.emit_fired (x : Out) (h : Half) : (h.emit x).fired = h.fired := rfl
@[simp] theorem Half.emit_pinElec (x : Out) (h : Half) : (h.emit x).pinElec = h.pinElec := rfl
@[simp] theorem Half.emit_shed (x : Out) (h : Half) : (h.emit x).shed = h.shed := rfl
@[simp] theorem Half.emit_led (x : Out) (h : Half) : (h.emit x).led = h.led := rfl
@[simp] theorem Half.emit_acq (x : Out) (h : Half) : (h.emit x).acq = h.acq := rfl
@[simp] theorem Half.emit_ana (x : Out) (h : Half) : (h.emit x).ana = h.ana := rfl
@[simp] theorem Half.emit_slu (x : Out) (h : Half) : (h.emit x).slu = h.slu := rfl
@[simp] theorem Half.emit_out (x : Out) (h : Half) : (h.emit x).out = h.out ++ [x] := rfl
@[simp] theorem Half.raise_id (c : Nat) (loc : Word) (h : Half) : (h.raise c loc).id = h.id := by
  unfold Half.raise; simp only []; split <;> split <;> rfl
@[simp] theorem Half.raise_on (c : Nat) (loc : Word) (h : Half) : (h.raise c loc).on = h.on := by
  unfold Half.raise; simp only []; split <;> split <;> rfl
@[simp] theorem Half.raise_now (c : Nat) (loc : Word) (h : Half) : (h.raise c loc).now = h.now := by
  unfold Half.raise; simp only []; split <;> split <;> rfl
@[simp] theorem Half.raise_frame (c : Nat) (loc : Word) (h : Half) : (h.raise c loc).frame = h.frame := by
  unfold Half.raise; simp only []; split <;> split <;> rfl
@[simp] theorem Half.raise_cfg (c : Nat) (loc : Word) (h : Half) : (h.raise c loc).cfg = h.cfg := by
  unfold Half.raise; simp only []; split <;> split <;> rfl
@[simp] theorem Half.raise_rcv (c : Nat) (loc : Word) (h : Half) : (h.raise c loc).rcv = h.rcv := by
  unfold Half.raise; simp only []; split <;> split <;> rfl
@[simp] theorem Half.raise_rev (c : Nat) (loc : Word) (h : Half) : (h.raise c loc).rev = h.rev := by
  unfold Half.raise; simp only []; split <;> split <;> rfl
@[simp] theorem Half.raise_trk (c : Nat) (loc : Word) (h : Half) : (h.raise c loc).trk = h.trk := by
  unfold Half.raise; simp only []; split <;> split <;> rfl
@[simp] theorem Half.raise_tws (c : Nat) (loc : Word) (h : Half) : (h.raise c loc).tws = h.tws := by
  unfold Half.raise; simp only []; split <;> split <;> rfl
@[simp] theorem Half.raise_schCfg (c : Nat) (loc : Word) (h : Half) : (h.raise c loc).schCfg = h.schCfg := by
  unfold Half.raise; simp only []; split <;> split <;> rfl
@[simp] theorem Half.raise_slots (c : Nat) (loc : Word) (h : Half) : (h.raise c loc).slots = h.slots := by
  unfold Half.raise; simp only []; split <;> split <;> rfl
@[simp] theorem Half.raise_cyls (c : Nat) (loc : Word) (h : Half) : (h.raise c loc).cyls = h.cyls := by
  unfold Half.raise; simp only []; split <;> split <;> rfl
@[simp] theorem Half.raise_banks (c : Nat) (loc : Word) (h : Half) : (h.raise c loc).banks = h.banks := by
  unfold Half.raise; simp only []; split <;> split <;> rfl
@[simp] theorem Half.raise_chans (c : Nat) (loc : Word) (h : Half) : (h.raise c loc).chans = h.chans := by
  unfold Half.raise; simp only []; split <;> split <;> rfl
@[simp] theorem Half.raise_pairs (c : Nat) (loc : Word) (h : Half) : (h.raise c loc).pairs = h.pairs := by
  unfold Half.raise; simp only []; split <;> split <;> rfl
@[simp] theorem Half.raise_profs (c : Nat) (loc : Word) (h : Half) : (h.raise c loc).profs = h.profs := by
  unfold Half.raise; simp only []; split <;> split <;> rfl
@[simp] theorem Half.raise_profNew (c : Nat) (loc : Word) (h : Half) : (h.raise c loc).profNew = h.profNew := by
  unfold Half.raise; simp only []; split <;> split <;> rfl
@[simp] theorem Half.raise_fg (c : Nat) (loc : Word) (h : Half) : (h.raise c loc).fg = h.fg := by
  unfold Half.raise; simp only []; split <;> split <;> rfl
@[simp] theorem Half.raise_links (c : Nat) (loc : Word) (h : Half) : (h.raise c loc).links = h.links := by
  unfold Half.raise; simp only []; split <;> split <;> rfl
@[simp] theorem Half.raise_snap (c : Nat) (loc : Word) (h : Half) : (h.raise c loc).snap = h.snap := by
  unfold Half.raise; simp only []; split <;> split <;> rfl
@[simp] theorem Half.raise_proc (c : Nat) (loc : Word) (h : Half) : (h.raise c loc).proc = h.proc := by
  unfold Half.raise; simp only []; split <;> split <;> rfl
@[simp] theorem Half.raise_evq (c : Nat) (loc : Word) (h : Half) : (h.raise c loc).evq = h.evq := by
  unfold Half.raise; simp only []; split <;> split <;> rfl
@[simp] theorem Half.raise_evqLost (c : Nat) (loc : Word) (h : Half) : (h.raise c loc).evqLost = h.evqLost := by
  unfold Half.raise; simp only []; split <;> split <;> rfl
@[simp] theorem Half.raise_evqOvf (c : Nat) (loc : Word) (h : Half) : (h.raise c loc).evqOvf = h.evqOvf := by
  unfold Half.raise; simp only []; split <;> split <;> rfl
@[simp] theorem Half.raise_fired (c : Nat) (loc : Word) (h : Half) : (h.raise c loc).fired = h.fired := by
  unfold Half.raise; simp only []; split <;> split <;> rfl
@[simp] theorem Half.raise_pinElec (c : Nat) (loc : Word) (h : Half) : (h.raise c loc).pinElec = h.pinElec := by
  unfold Half.raise; simp only []; split <;> split <;> rfl
@[simp] theorem Half.raise_shed (c : Nat) (loc : Word) (h : Half) : (h.raise c loc).shed = h.shed := by
  unfold Half.raise; simp only []; split <;> split <;> rfl
@[simp] theorem Half.raise_led (c : Nat) (loc : Word) (h : Half) : (h.raise c loc).led = h.led := by
  unfold Half.raise; simp only []; split <;> split <;> rfl
@[simp] theorem Half.raise_acq (c : Nat) (loc : Word) (h : Half) : (h.raise c loc).acq = h.acq := by
  unfold Half.raise; simp only []; split <;> split <;> rfl
@[simp] theorem Half.raise_ana (c : Nat) (loc : Word) (h : Half) : (h.raise c loc).ana = h.ana := by
  unfold Half.raise; simp only []; split <;> split <;> rfl
@[simp] theorem Half.raise_slu (c : Nat) (loc : Word) (h : Half) : (h.raise c loc).slu = h.slu := by
  unfold Half.raise; simp only []; split <;> split <;> rfl

/-! ### The Weir -/

/-- An append to a hub queue touches the Weir and the fault counting alone. -/
theorem Hub.append_is (now : Word) (q : Fin 4) (r : WeirRec) (u : Hub) : ∃ w f, u.append now q r = { u with weir := w, flt := f } := by
  unfold Hub.append Hub.overflow
  split
  · exact ⟨_, u.flt, rfl⟩
  · exact ⟨_, _, rfl⟩

/-- A write to the Weir touches the Weir and the fault counting alone. -/
theorem Hub.weirWrite_is (now : Word) (src kind : Nat) (level halfQ : Bool) (frame ts payload : Word) (u : Hub) :
    ∃ w f, u.weirWrite now src kind level halfQ frame ts payload = { u with weir := w, flt := f } := by
  unfold Hub.weirWrite
  simp only []
  split
  · exact ⟨u.weir, u.flt, rfl⟩
  · split
    · exact Hub.append_is ..
    · exact ⟨u.weir, u.flt, rfl⟩

end Sys2Proof.Machine
end

