-- ==== Sys2Proof/Laws/Vault.lean ====
section
/-! SUPPORT. What almost every operation of the module leaves alone: the queue of commands, the firmware slots, the owner key,
the rollback floor, FRAME and the instant of the last tick. One lemma per operation. -/

namespace Sys2Proof.Machine

open Sys2Proof

set_option linter.unusedTactic false
set_option linter.unreachableTactic false

/-- The queue, the firmware slots, the owner key, the rollback floor, FRAME, the last tick. -/
structure Vault where
  pending : List Instr
  fw      : Vector FwSlot 2
  owner   : Option (List Byte)
  floor   : Nat
  frame   : Word
  tick    : Nat

/-- They, of a state. -/
def State.vault (s : State) : Vault := ⟨s.pending, s.hub.flash.fw, s.hub.flash.owner, s.hub.flash.floor, s.hub.frame, s.hub.tick⟩

theorem vault_of_eq {s t : State} (h : t.vault = s.vault) :
    t.pending = s.pending ∧ t.hub.flash.fw = s.hub.flash.fw ∧ t.hub.flash.owner = s.hub.flash.owner ∧ t.hub.flash.floor = s.hub.flash.floor ∧
      t.hub.frame = s.hub.frame ∧ t.hub.tick = s.hub.tick := by
  simp only [State.vault, Vault.mk.injEq] at h
  exact h

theorem vault_same {s t : State} (hp : t.pending = s.pending) (hf : t.hub.flash = s.hub.flash) (hr : t.hub.frame = s.hub.frame)
    (ht : t.hub.tick = s.hub.tick) : t.vault = s.vault := by
  simp [State.vault, hp, hf, hr, ht]

theorem vault_mk (s : State) (a b : Half) (u : Hub) (n f : Nat) (k : List (HalfId × Out)) (h : u.flash = s.hub.flash)
    (hr : u.frame = s.hub.frame) (ht : u.tick = s.hub.tick) : State.vault ⟨a, b, u, n, f, k, s.pending⟩ = s.vault := by
  simp [State.vault, h, hr, ht]

/-- The same but for FRAME and the instant of the last tick. -/
def Vault.clock (v : Vault) (f : Word) (t : Nat) : Vault := { v with frame := f, tick := t }

/-- A state that keeps the rest. -/
theorem clock_mk {s t v : State} (h : s.vault = v.vault) (hp : t.pending = s.pending) (hf : t.hub.flash = s.hub.flash) :
    t.vault = v.vault.clock t.hub.frame t.hub.tick := by
  rw [← h]
  simp [State.vault, Vault.clock, hp, hf]

/-- What follows keeps all of it. -/
theorem clock_of {s t u : State} (h : u.vault = t.vault) (e : t.vault = s.vault.clock t.hub.frame t.hub.tick) :
    u.vault = s.vault.clock u.hub.frame u.hub.tick := by
  have k := vault_of_eq h
  rw [h, e, k.2.2.2.2.1, k.2.2.2.2.2]

/-- Named by the state's own FRAME and tick. -/
theorem clock_self {t : State} {v : Vault} {f : Word} {n : Nat} (h : t.vault = v.clock f n) : t.vault = v.clock t.hub.frame t.hub.tick := by
  have hf : t.vault.frame = f := by rw [h]; rfl
  have ht : t.vault.tick = n := by rw [h]; rfl
  rw [h, ← hf, ← ht]
  rfl

/-! ### Folds -/

@[simp] theorem eachOf_vault {α : Type} (l : List α) (f : α → State → State) (h : ∀ x t, (f x t).vault = t.vault) (s : State) :
    (eachOf l f s).vault = s.vault := by
  unfold eachOf
  induction l generalizing s with
  | nil => rfl
  | cons x l ih => simp only [List.foldl_cons]; rw [ih, h]

@[simp] theorem foldl_vault {α : Type} (l : List α) (f : State → α → State) (h : ∀ t x, (f t x).vault = t.vault) (s : State) :
    (l.foldl f s).vault = s.vault := by
  induction l generalizing s with
  | nil => rfl
  | cons x l ih => simp only [List.foldl_cons]; rw [ih, h]

@[simp] theorem eachIdx_vault (n : Nat) (f : Fin n → State → State) (h : ∀ x t, (f x t).vault = t.vault) (s : State) :
    (eachIdx n f s).vault = s.vault := foldl_vault _ _ (fun t x => h x t) s

@[simp] theorem ite_vault (c : Prop) [Decidable c] (x y : State) : (if c then x else y).vault = if c then x.vault else y.vault := by
  split <;> rfl

/-! ### Updates -/

@[simp] theorem State.hubMap_vault (f : Hub → Hub) (s : State) :
    (s.hubMap f).vault = ⟨s.pending, (f s.hub).flash.fw, (f s.hub).flash.owner, (f s.hub).flash.floor, (f s.hub).frame, (f s.hub).tick⟩ := rfl
theorem State.hubMap_keep (f : Hub → Hub) (s : State) (h : ∀ u, (f u).flash = u.flash) (hr : ∀ u, (f u).frame = u.frame)
    (ht : ∀ u, (f u).tick = u.tick) : (s.hubMap f).vault = s.vault := by
  simp [State.hubMap, State.vault, h, hr, ht]
@[simp] theorem State.setHalf_vault (h : Half) (id : HalfId) (s : State) : (s.setHalf h id).vault = s.vault := by cases id <;> rfl
theorem State.flashMap_vault (f : Flash → Flash) (s : State) (h : (f s.hub.flash).fw = s.hub.flash.fw)
    (h2 : (f s.hub.flash).owner = s.hub.flash.owner) (h3 : (f s.hub.flash).floor = s.hub.flash.floor) : (s.flashMap f).vault = s.vault := by
  simp [State.flashMap, State.vault, h, h2, h3]

/-! ### Operations -/

@[simp] theorem State.linkMap_vault (f : HostLink → HostLink) (s : State) : (State.linkMap f s).vault = s.vault := by
  unfold State.linkMap
  (try simp only [])
  repeat' split
  all_goals first | (simp; done) | (simp; rfl) | rfl

@[simp] theorem State.fgMap_vault (f : FgHub → FgHub) (s : State) : (State.fgMap f s).vault = s.vault := by
  unfold State.fgMap
  (try simp only [])
  repeat' split
  all_goals first | (simp; done) | (simp; rfl) | rfl

@[simp] theorem State.tarnMap_vault (f : Tarn → Tarn) (s : State) : (State.tarnMap f s).vault = s.vault := by
  unfold State.tarnMap
  (try simp only [])
  repeat' split
  all_goals first | (simp; done) | (simp; rfl) | rfl

@[simp] theorem State.recsMap_vault (f : Recs → Recs) (s : State) : (State.recsMap f s).vault = s.vault := by
  unfold State.recsMap
  (try simp only [])
  repeat' split
  all_goals first | (simp; done) | (simp; rfl) | rfl

@[simp] theorem State.weirMap_vault (f : WeirSt → WeirSt) (s : State) : (State.weirMap f s).vault = s.vault := by
  unfold State.weirMap
  (try simp only [])
  repeat' split
  all_goals first | (simp; done) | (simp; rfl) | rfl

@[simp] theorem State.calMap_vault (f : CalSvc → CalSvc) (s : State) : (State.calMap f s).vault = s.vault := by
  unfold State.calMap
  (try simp only [])
  repeat' split
  all_goals first | (simp; done) | (simp; rfl) | rfl

@[simp] theorem State.bootMap_vault (f : BootSt → BootSt) (s : State) : (State.bootMap f s).vault = s.vault := by
  unfold State.bootMap
  (try simp only [])
  repeat' split
  all_goals first | (simp; done) | (simp; rfl) | rfl

@[simp] theorem State.cfgMap_vault (f : CfgSt → CfgSt) (s : State) : (State.cfgMap f s).vault = s.vault := by
  unfold State.cfgMap
  (try simp only [])
  repeat' split
  all_goals first | (simp; done) | (simp; rfl) | rfl

@[simp] theorem State.pwrMap_vault (f : Pwr → Pwr) (s : State) : (State.pwrMap f s).vault = s.vault := by
  unfold State.pwrMap
  (try simp only [])
  repeat' split
  all_goals first | (simp; done) | (simp; rfl) | rfl

theorem Flash.write_keeps (typ place code : Nat) (frame : Word) (data : List Byte) (f : Flash) :
    (f.write typ place code frame data).fw = f.fw ∧ (f.write typ place code frame data).owner = f.owner ∧
      (f.write typ place code frame data).floor = f.floor := ⟨rfl, rfl, rfl⟩

theorem Flash.add_keeps (sec typ place code : Nat) (frame : Word) (data : List Byte) (f : Flash) :
    (f.add sec typ place code frame data).fw = f.fw ∧ (f.add sec typ place code frame data).owner = f.owner ∧
      (f.add sec typ place code frame data).floor = f.floor := by
  unfold Flash.add
  simp only []
  split <;> split <;> (try split) <;> exact ⟨rfl, rfl, rfl⟩

@[simp] theorem State.log_vault (typ place code : Nat) (frame : Word) (data : List Byte) (s : State) :
    (s.log typ place code frame data).vault = s.vault := by
  have h := Flash.add_keeps (s.now / etPerSec) typ place code frame data s.hub.flash
  exact State.flashMap_vault _ s h.1 h.2.1 h.2.2

@[simp] theorem Hub.weirWrite_flash (now : Word) (src kind : Nat) (level halfQ : Bool) (frame ts payload : Word) (u : Hub) :
    (u.weirWrite now src kind level halfQ frame ts payload).flash = u.flash := by
  obtain ⟨w, f, h⟩ := Hub.weirWrite_is now src kind level halfQ frame ts payload u
  rw [h]

@[simp] theorem Hub.weirWrite_frame (now : Word) (src kind : Nat) (level halfQ : Bool) (frame ts payload : Word) (u : Hub) :
    (u.weirWrite now src kind level halfQ frame ts payload).frame = u.frame := by
  obtain ⟨w, f, h⟩ := Hub.weirWrite_is now src kind level halfQ frame ts payload u
  rw [h]

@[simp] theorem Hub.weirWrite_tick (now : Word) (src kind : Nat) (level halfQ : Bool) (frame ts payload : Word) (u : Hub) :
    (u.weirWrite now src kind level halfQ frame ts payload).tick = u.tick := by
  obtain ⟨w, f, h⟩ := Hub.weirWrite_is now src kind level halfQ frame ts payload u
  rw [h]

@[simp] theorem State.weir_vault (src kind : Nat) (level : Bool) (payload : Word) (s : State) :
    (s.weir src kind level payload).vault = s.vault := by
  simp [State.weir]
  rfl

theorem State.setHub_vault (f : Hub → Hub) (s : State) (h : (f s.hub).flash = s.hub.flash) (hr : (f s.hub).frame = s.hub.frame)
    (ht : (f s.hub).tick = s.hub.tick) : (s.hubMap f).vault = s.vault := by
  simp [State.hubMap, State.vault, h, hr, ht]

@[simp] theorem State.raiseHub_vault (c : Nat) (loc : Word) (s : State) : (s.raiseHub c loc).vault = s.vault := by
  unfold State.raiseHub
  rw [State.setHub_vault _ _ rfl rfl rfl, State.weir_vault]

@[simp] theorem State.coalesce_vault (s : State) : (State.coalesce s).vault = s.vault := by
  unfold State.coalesce
  (try simp only [])
  repeat' split
  all_goals first | (simp; done) | (simp; rfl) | rfl

@[simp] theorem State.datagram_vault (from_ : Nat) (s : State) : (State.datagram from_ s).vault = s.vault := by
  unfold State.datagram
  (try simp only [])
  repeat' split
  all_goals first | (simp; done) | (simp; rfl) | rfl

@[simp] theorem State.notify_vault (s : State) : (State.notify s).vault = s.vault := by
  unfold State.notify
  (try simp only [])
  repeat' split
  all_goals first | (simp; done) | (simp; rfl) | rfl

@[simp] theorem State.postEntry_vault (mb cmd : Nat) (unsol wake : Bool) (seq : BitVec 16) (status : Nat) (frame : Word) (payload : List Byte) (s : State) : (State.postEntry mb cmd unsol wake seq status frame payload s).vault = s.vault := by
  unfold State.postEntry
  (try simp only [])
  repeat' split
  all_goals first | (simp; done) | (simp; rfl) | rfl

@[simp] theorem State.unsol_vault (mb cmd : Nat) (frame : Word) (payload : List Byte) (wake : Bool) (s : State) : (State.unsol mb cmd frame payload wake s).vault = s.vault := by
  unfold State.unsol
  (try simp only [])
  repeat' split
  all_goals first | (simp; done) | (simp; rfl) | rfl

@[simp] theorem State.postReq_vault (r : HReq) (status : Nat) (payload : List Byte) (s : State) : (State.postReq r status payload s).vault = s.vault := by
  unfold State.postReq
  (try simp only [])
  repeat' split
  all_goals first | (simp; done) | (simp; rfl) | rfl

@[simp] theorem State.postDone_vault (mb n : Nat) (s : State) : (State.postDone mb n s).vault = s.vault := by
  induction n generalizing s with
  | zero => rfl
  | succ n ih =>
    unfold State.postDone
    simp only []
    split
    · rfl
    · split
      · rfl
      · rw [ih, State.postReq_vault, State.linkMap_vault]

@[simp] theorem State.finish_vault (mb : Nat) (seq : BitVec 16) (status : Nat) (payload : List Byte) (s : State) :
    (s.finish mb seq status payload).vault = s.vault := by
  simp [State.finish]

@[simp] theorem State.setLatches_vault (cause : Nat) (s : State) : (State.setLatches cause s).vault = s.vault := by
  unfold State.setLatches
  (try simp only [])
  repeat' split
  all_goals first | (simp; done) | (simp; rfl) | rfl

@[simp] theorem State.dropRelease_vault (s : State) : (State.dropRelease s).vault = s.vault := by
  unfold State.dropRelease
  (try simp only [])
  repeat' split
  all_goals first | (simp; done) | (simp; rfl) | rfl

@[simp] theorem State.kill_vault (cause : Nat) (s : State) : (State.kill cause s).vault = s.vault := by
  unfold State.kill
  (try simp only [])
  repeat' split
  all_goals first | (simp; done) | (simp; rfl) | rfl

@[simp] theorem State.openMap_vault (p : CycRec → Bool) (f : CycRec → CycRec) (s : State) : (State.openMap p f s).vault = s.vault := by
  unfold State.openMap
  (try simp only [])
  repeat' split
  all_goals first | (simp; done) | (simp; rfl) | rfl

@[simp] theorem State.openRec_vault (id : HalfId) (o : OpenRec) (s : State) : (State.openRec id o s).vault = s.vault := by
  unfold State.openRec
  (try simp only [])
  repeat' split
  all_goals first | (simp; done) | (simp; rfl) | rfl

@[simp] theorem State.addEntry_vault (id : HalfId) (cyl cyc : Nat) (bytes : List Byte) (key : Nat × Nat) (s : State) : (State.addEntry id cyl cyc bytes key s).vault = s.vault := by
  unfold State.addEntry
  (try simp only [])
  repeat' split
  all_goals first | (simp; done) | (simp; rfl) | rfl

@[simp] theorem State.editEntry_vault (id : HalfId) (cyl : Nat) (key : Nat × Nat) (f : List Byte → List Byte) (s : State) : (State.editEntry id cyl key f s).vault = s.vault := by
  unfold State.editEntry
  (try simp only [])
  repeat' split
  all_goals first | (simp; done) | (simp; rfl) | rfl

@[simp] theorem State.fileResult_vault (id : HalfId) (r : ResOut) (s : State) : (State.fileResult id r s).vault = s.vault := by
  unfold State.fileResult
  (try simp only [])
  repeat' split
  all_goals first | (simp; done) | (simp; rfl) | rfl

@[simp] theorem State.newTrace_vault (id : HalfId) (cyl cyc : Nat) (s : State) : (State.newTrace id cyl cyc s).vault = s.vault := by
  unfold State.newTrace
  (try simp only [])
  repeat' split
  all_goals first | (simp; done) | (simp; rfl) | rfl

@[simp] theorem State.decimTrace_vault (cyl : Nat) (s : State) : (State.decimTrace cyl s).vault = s.vault := by
  unfold State.decimTrace
  (try simp only [])
  repeat' split
  all_goals first | (simp; done) | (simp; rfl) | rfl

@[simp] theorem State.addTrace_vault (id : HalfId) (cyl : Nat) (bytes : List Byte) (s : State) : (State.addTrace id cyl bytes s).vault = s.vault := by
  unfold State.addTrace
  (try simp only [])
  repeat' split
  all_goals first | (simp; done) | (simp; rfl) | rfl

@[simp] theorem State.cyclePeak_vault (id : HalfId) (x : Nat × Nat × Nat × Option Int × Rat) (s : State) : (State.cyclePeak id x s).vault = s.vault := by
  unfold State.cyclePeak
  (try simp only [])
  repeat' split
  all_goals first | (simp; done) | (simp; rfl) | rfl

@[simp] theorem State.moveCount_vault (id : HalfId) (cyl old new : Nat) (ks : List Nat) (s : State) : (State.moveCount id cyl old new ks s).vault = s.vault := by
  unfold State.moveCount
  (try simp only [])
  repeat' split
  all_goals first | (simp; done) | (simp; rfl) | rfl

@[simp] theorem State.cutSample_vault (id : HalfId) (cyl cyc : Nat) (ap : Int) (pts : List (Rat × Rat × Bool)) (ast : Bool) (s : State) : (State.cutSample id cyl cyc ap pts ast s).vault = s.vault := by
  unfold State.cutSample
  (try simp only [])
  repeat' split
  all_goals first | (simp; done) | (simp; rfl) | rfl

@[simp] theorem State.cutCount_vault (cyl cyc : Nat) (flags : Nat) (s : State) : (State.cutCount cyl cyc flags s).vault = s.vault := by
  unfold State.cutCount
  (try simp only [])
  repeat' split
  all_goals first | (simp; done) | (simp; rfl) | rfl

@[simp] theorem State.boostStart_vault (id : HalfId) (pair prof k : Nat) (s : State) : (State.boostStart id pair prof k s).vault = s.vault := by
  unfold State.boostStart
  (try simp only [])
  repeat' split
  all_goals first | (simp; done) | (simp; rfl) | rfl

@[simp] theorem State.boostEnd_vault (id : HalfId) (pair : Nat) (drop : Bool) (s : State) : (State.boostEnd id pair drop s).vault = s.vault := by
  unfold State.boostEnd
  (try simp only [])
  repeat' split
  all_goals first | (simp; done) | (simp; rfl) | rfl

@[simp] theorem State.tooth_vault (id : HalfId) (i : Nat) (ts : Word) (pol first : Bool) (cls pos : Nat) (s : State) : (State.tooth id i ts pol first cls pos s).vault = s.vault := by
  unfold State.tooth
  (try simp only [])
  repeat' split
  all_goals first | (simp; done) | (simp; rfl) | rfl

@[simp] theorem State.fuelAsk_vault (id : HalfId) (j : Fin 12) (cyl cyc : Nat) (s : State) : (s.fuelAsk id j cyl cyc).vault = s.vault := by
  unfold State.fuelAsk
  split <;> simp

@[simp] theorem State.take_vault (id : HalfId) (o : Out) (s : State) : (s.take id o).vault = s.vault := by
  unfold State.take
  simp only []
  split <;> (try split) <;> first | rfl | (simp; done) | (simp; rfl) | (split <;> first | (simp; done) | (simp; rfl))

@[simp] theorem State.takeAll_vault (id : HalfId) (s : State) : (State.takeAll id s).vault = s.vault := by
  unfold State.takeAll
  (try simp only [])
  repeat' split
  all_goals first | (simp; done) | (simp; rfl) | rfl

@[simp] theorem State.flush_vault (s : State) : (State.flush s).vault = s.vault := by
  unfold State.flush
  (try simp only [])
  repeat' split
  all_goals first | (simp; done) | (simp; rfl) | rfl

@[simp] theorem State.onHalf_vault (id : HalfId) (f : Half → Half) (s : State) : (State.onHalf id f s).vault = s.vault := by
  unfold State.onHalf
  (try simp only [])
  repeat' split
  all_goals first | (simp; done) | (simp; rfl) | rfl

@[simp] theorem State.onHalves_vault (f : Half → Half) (s : State) : (State.onHalves f s).vault = s.vault := by
  unfold State.onHalves
  (try simp only [])
  repeat' split
  all_goals first | (simp; done) | (simp; rfl) | rfl

@[simp] theorem State.advance_vault (n : Nat) (s : State) : (State.advance n s).vault = s.vault := by
  unfold State.advance
  (try simp only [])
  repeat' split
  all_goals first | (simp; done) | (simp; rfl) | rfl

@[simp] theorem State.advanceTo_vault (t : Nat) (s : State) : (State.advanceTo t s).vault = s.vault := by
  unfold State.advanceTo
  (try simp only [])
  repeat' split
  all_goals first | (simp; done) | (simp; rfl) | rfl

@[simp] theorem State.act_vault (id : HalfId) (f : Half → Half) (s : State) : (State.act id f s).vault = s.vault := by
  unfold State.act
  (try simp only [])
  repeat' split
  all_goals first | (simp; done) | (simp; rfl) | rfl

@[simp] theorem State.due_vault (id : HalfId) (t : Half → Option Nat) (f : Half → Half) (s : State) : (State.due id t f s).vault = s.vault := by
  unfold State.due
  (try simp only [])
  repeat' split
  all_goals first | (simp; done) | (simp; rfl) | rfl

@[simp] theorem State.diagsDone_vault (s : State) : (State.diagsDone s).vault = s.vault := by
  unfold State.diagsDone
  (try simp only [])
  repeat' split
  all_goals first | (simp; done) | (simp; rfl) | rfl

@[simp] theorem State.probeSample_vault (id : HalfId) (t : TwistRun) (t1 : Nat) (s : State) : (State.probeSample id t t1 s).vault = s.vault := by
  unfold State.probeSample
  (try simp only [])
  repeat' split
  all_goals first | (simp; done) | (simp; rfl) | rfl

@[simp] theorem State.probe_vault (id : HalfId) (g : Fin 12) (rising : Bool) (s : State) : (State.probe id g rising s).vault = s.vault := by
  unfold State.probe
  (try simp only [])
  repeat' split
  all_goals first | (simp; done) | (simp; rfl) | rfl

@[simp] theorem State.costDone_vault (id : HalfId) (m : Meas) (lv : Rat) (ta : Nat) (s : State) : (State.costDone id m lv ta s).vault = s.vault := by
  unfold State.costDone
  (try simp only [])
  repeat' split
  all_goals first | (simp; done) | (simp; rfl) | rfl

@[simp] theorem State.costs_vault (src id : HalfId) (s : State) : (s.costs src id).vault = s.vault := by
  unfold State.costs
  simp only []
  split
  · rfl
  rw [State.setHalf_vault, foldl_vault, State.setHalf_vault]
  intro t m
  split
  · exact State.costDone_vault ..
  · rfl

@[simp] theorem State.slRow_vault (id : HalfId) (e : Fin 8) (edges : List SlEdge) (sel : BitVec 24 → Bool) (s : State) : (State.slRow id e edges sel s).vault = s.vault := by
  unfold State.slRow
  (try simp only [])
  repeat' split
  all_goals first | (simp; done) | (simp; rfl) | rfl

@[simp] theorem State.levelRecord_vault (src : Nat) (s : State) : (State.levelRecord src s).vault = s.vault := by
  unfold State.levelRecord
  (try simp only [])
  repeat' split
  all_goals first | (simp; done) | (simp; rfl) | rfl

@[simp] theorem State.levelLost_vault (src : Nat) (s : State) : (s.levelLost src).vault = s.vault := by
  unfold State.levelLost
  split
  · rfl
  · rename_i id _ _
    extract_lets s1
    have e1 : s1.vault = s.vault := by
      simp only [s1]
      split
      · exact State.setHub_vault _ _ rfl rfl rfl
      · rfl
    split
    · exact e1
    · rw [State.onHalf_vault, e1]

@[simp] theorem State.levelTry_vault (src : Nat) (s : State) : (State.levelTry src s).vault = s.vault := by
  unfold State.levelTry
  (try simp only [])
  repeat' split
  all_goals first | (simp; done) | (simp; rfl) | rfl

@[simp] theorem State.levelUp_vault (src : Nat) (s : State) : (State.levelUp src s).vault = s.vault := by
  unfold State.levelUp
  (try simp only [])
  repeat' split
  all_goals first | (simp; done) | (simp; rfl) | rfl

@[simp] theorem State.done_vault (a : Ask) (status : Nat) (payload : List Byte) (s : State) : (State.done a status payload s).vault = s.vault := by
  unfold State.done
  (try simp only [])
  repeat' split
  all_goals first | (simp; done) | (simp; rfl) | rfl

theorem State.checked_vault (a : Ask) (cs : List (Bool × Nat)) (ok : State → State) (s : State) (h : ∀ t, (ok t).vault = t.vault) :
    (s.checked a cs ok).vault = s.vault := by
  unfold State.checked
  split
  · exact State.done_vault ..
  · exact h s

@[simp] theorem State.refuse_vault (mb cmd : Nat) (seq : BitVec 16) (status : Nat) (s : State) : (State.refuse mb cmd seq status s).vault = s.vault := by
  unfold State.refuse
  (try simp only [])
  repeat' split
  all_goals first | (simp; done) | (simp; rfl) | rfl

@[simp] theorem State.checkFail_vault (stream : Option (Fin 9)) (s : State) : (State.checkFail stream s).vault = s.vault := by
  unfold State.checkFail
  (try simp only [])
  repeat' split
  all_goals first | (simp; done) | (simp; rfl) | rfl

@[simp] theorem State.wake_vault (s : State) : (State.wake s).vault = s.vault := by
  unfold State.wake
  (try simp only [])
  repeat' split
  all_goals first | (simp; done) | (simp; rfl) | rfl

@[simp] theorem State.aliveCheck_vault (mb : Fin 8) (cmd : Nat) (m : Msg) (s : State) : (s.aliveCheck mb cmd m).1.vault = s.vault := by
  unfold State.aliveCheck
  simp only []
  split
  · simp
  · repeat' split
    all_goals simp

@[simp] theorem State.doorbell_vault (mb : Fin 8) (s : State) : (State.doorbell mb s).vault = s.vault := by
  unfold State.doorbell
  (try simp only [])
  repeat' split
  all_goals first | (simp; done) | (simp; rfl) | rfl

@[simp] theorem State.hear_vault (mb : Fin 8) (cmd : Nat) (m : Msg) (s : State) : (s.hear mb cmd m).1.vault = s.vault := by
  have h := State.aliveCheck_vault mb cmd m s
  unfold State.hear
  simp only []
  split
  · rfl
  · split
    · exact State.checkFail_vault ..
    · split
      · rfl
      · split <;> simp [h]

@[simp] theorem State.accept_vault (a : Ask) (lenOk : Bool) (serve : Ask → State → State) (s : State) (h : ∀ a t, (serve a t).vault = t.vault) :
    (s.accept a lenOk serve).vault = s.vault := by
  unfold State.accept
  simp only []
  split
  · simp
  · split
    · simp
    · split
      · simp
      · split
        · simp
        · rw [h, State.linkMap_vault]

@[simp] theorem State.request_vault (mb : Fin 8) (cmd : Nat) (len : Ask → Nat) (serve : Ask → State → State) (m : Msg) (s : State)
    (h : ∀ a t, (serve a t).vault = t.vault) : (s.request mb cmd len serve m).vault = s.vault := by
  have h2 := State.hear_vault mb cmd m s
  unfold State.request
  simp only []
  split
  · exact h2
  · rw [State.accept_vault _ _ _ _ h, h2]

@[simp] theorem State.setChecked_vault (ids : List HalfId) (s : State) : (State.setChecked ids s).vault = s.vault := by
  unfold State.setChecked
  (try simp only [])
  repeat' split
  all_goals first | (simp; done) | (simp; rfl) | rfl

@[simp] theorem State.fgRelease_vault (s : State) : (State.fgRelease s).vault = s.vault := by
  unfold State.fgRelease
  (try simp only [])
  repeat' split
  all_goals first | (simp; done) | (simp; rfl) | rfl

@[simp] theorem State.halfTrip_vault (run : Bool) (fr : Word) (id : HalfId) (s : State) : (s.halfTrip run fr id).vault = s.vault := by
  unfold State.halfTrip
  simp only []
  split <;> simp

@[simp] theorem State.fgTrips_vault (s : State) : (State.fgTrips s).vault = s.vault := by
  unfold State.fgTrips
  extract_lets seen s1
  have e1 : s1.vault = s.vault := (eachOf_vault _ _ (fun x t => State.halfTrip_vault ..) _).trans (State.fgMap_vault ..)
  refine (eachOf_vault _ _ (fun id t => ?_) s1).trans e1
  split
  · exact State.setHalf_vault ..
  · rfl

@[simp] theorem State.fgCheck_vault (s0 : State) : (State.fgCheck s0).vault = s0.vault := by
  unfold State.fgCheck
  (try simp only [])
  repeat' split
  all_goals first | (simp; done) | (simp; rfl) | rfl

@[simp] theorem State.serveStop_vault (a : Ask) (frame : Word) (s : State) : (State.serveStop a frame s).vault = s.vault := by
  unfold State.serveStop
  (try simp only [])
  repeat' first
    | split
    | refine State.checked_vault _ _ _ _ (fun t => ?_)
  all_goals first | (simp; done) | (simp; rfl) | rfl

@[simp] theorem State.serveRelease_vault (a : Ask) (s : State) : (State.serveRelease a s).vault = s.vault := by
  unfold State.serveRelease
  (try simp only [])
  repeat' first
    | split
    | refine State.checked_vault _ _ _ _ (fun t => ?_)
  all_goals first | (simp; done) | (simp; rfl) | rfl

@[simp] theorem State.serveDirection_vault (a : Ask) (s : State) : (State.serveDirection a s).vault = s.vault := by
  unfold State.serveDirection
  (try simp only [])
  repeat' first
    | split
    | refine State.checked_vault _ _ _ _ (fun t => ?_)
  all_goals first | (simp; done) | (simp; rfl) | rfl

@[simp] theorem State.serveFgStatus_vault (a : Ask) (s : State) : (State.serveFgStatus a s).vault = s.vault := by
  unfold State.serveFgStatus
  (try simp only [])
  repeat' first
    | split
    | refine State.checked_vault _ _ _ _ (fun t => ?_)
  all_goals first | (simp; done) | (simp; rfl) | rfl

@[simp] theorem State.serve0_vault (x : Ask × Word) (s : State) : (State.serve0 x s).vault = s.vault := by
  unfold State.serve0
  (try simp only [])
  repeat' split
  all_goals first | (simp; done) | (simp; rfl) | rfl

@[simp] theorem State.serveMb0_vault (s : State) : (State.serveMb0 s).vault = s.vault := by
  unfold State.serveMb0
  (try simp only [])
  repeat' split
  all_goals first | (simp; done) | (simp; rfl) | rfl

@[simp] theorem State.queue0_vault (a : Ask) (s : State) : (State.queue0 a s).vault = s.vault := by
  unfold State.queue0
  (try simp only [])
  repeat' split
  all_goals first | (simp; done) | (simp; rfl) | rfl

@[simp] theorem State.takeLoad_vault (v : Nat) (s : State) : (State.takeLoad v s).vault = s.vault := by
  unfold State.takeLoad
  (try simp only [])
  repeat' split
  all_goals first | (simp; done) | (simp; rfl) | rfl

@[simp] theorem State.intake1_vault (a : Ask) (s : State) : (State.intake1 a s).vault = s.vault := by
  unfold State.intake1
  (try simp only [])
  repeat' first
    | split
    | refine State.checked_vault _ _ _ _ (fun t => ?_)
  all_goals first | (simp; done) | (simp; rfl) | rfl

@[simp] theorem State.intakeBackup_vault (p : List Byte) (s : State) : (State.intakeBackup p s).vault = s.vault := by
  unfold State.intakeBackup
  (try simp only [])
  repeat' split
  all_goals first | (simp; done) | (simp; rfl) | rfl

@[simp] theorem State.intake_vault (s : State) : (State.intake s).vault = s.vault := by
  unfold State.intake
  (try simp only [])
  repeat' split
  all_goals first | (simp; done) | (simp; rfl) | rfl

@[simp] theorem State.stageAt_vault (e : SpEnt) (id : HalfId) (st : State × List (Option Nat)) :
    (State.stageAt e id st).1.vault = st.1.vault := by
  unfold State.stageAt
  simp only []
  split
  · rfl
  · split <;> simp

theorem eachOf_vault1 {α β : Type} (l : List α) (f : α → State × β → State × β) (h : ∀ x t, (f x t).1.vault = t.1.vault) (s : State × β) :
    (eachOf l f s).1.vault = s.1.vault := by
  unfold eachOf
  induction l generalizing s with
  | nil => rfl
  | cons x l ih => simp only [List.foldl_cons]; rw [ih, h]

@[simp] theorem State.stageEntry_vault (e : SpEnt) (st : State × List (Nat × Nat × Nat)) : (State.stageEntry e st).1.vault = st.1.vault := by
  have h := eachOf_vault1 e.halfs (State.stageAt e) (State.stageAt_vault e) (st.1, [])
  unfold State.stageEntry
  simp only []
  split <;> exact h

@[simp] theorem State.stageFrame_vault (f : SpFrame) (s : State) : (s.stageFrame f).vault = s.vault := by
  have h := eachOf_vault1 f.ents State.stageEntry State.stageEntry_vault (s, f.refs)
  unfold State.stageFrame
  simp only []
  split
  · exact h
  · rw [State.finish_vault]
    exact h

@[simp] theorem State.stageNow_vault (runs : HalfId → Bool) (f : SpFrame) (s : State) : (State.stageNow runs f s).vault = s.vault := by
  unfold State.stageNow
  split
  · exact State.stageFrame_vault ..
  · rw [State.linkMap_vault]
    exact eachOf_vault1 _ State.stageEntry State.stageEntry_vault _

@[simp] theorem State.staging_vault (late : Bool) (runs : HalfId → Bool) (s : State) : (State.staging late runs s).vault = s.vault := by
  unfold State.staging
  refine (eachOf_vault _ _ (fun f t => State.stageNow_vault ..) _).trans ?_
  exact State.linkMap_vault ..

@[simp] theorem State.switchSource_vault (src cause : Nat) (s : State) : (State.switchSource src cause s).vault = s.vault := by
  unfold State.switchSource
  (try simp only [])
  repeat' split
  all_goals first | (simp; done) | (simp; rfl) | rfl

@[simp] theorem State.stageBackup_vault (s : State) : (State.stageBackup s).vault = s.vault := by
  unfold State.stageBackup
  (try simp only [])
  repeat' split
  all_goals first | (simp; done) | (simp; rfl) | rfl

@[simp] theorem State.sourceTick_vault (s : State) : (State.sourceTick s).vault = s.vault := by
  unfold State.sourceTick
  (try simp only [])
  repeat' split
  all_goals first | (simp; done) | (simp; rfl) | rfl

@[simp] theorem State.canBackup_vault (port : Nat) (ident : Nat) (data : List Byte) (s : State) : (State.canBackup port ident data s).vault = s.vault := by
  unfold State.canBackup
  (try simp only [])
  repeat' split
  all_goals first | (simp; done) | (simp; rfl) | rfl

@[simp] theorem State.streamRecover_vault (i : Fin 9) (s : State) : (State.streamRecover i s).vault = s.vault := by
  unfold State.streamRecover
  (try simp only [])
  repeat' split
  all_goals first | (simp; done) | (simp; rfl) | rfl

@[simp] theorem State.discard_vault (t : Transport) (b : List Byte) (udp : Nat) (s : State) : (State.discard t b udp s).vault = s.vault := by
  unfold State.discard
  (try simp only [])
  repeat' split
  all_goals first | (simp; done) | (simp; rfl) | rfl

@[simp] theorem State.unknown_vault (mb cmd : Nat) (m : Msg) (s : State) : (s.unknown mb cmd m).vault = s.vault := by
  unfold State.unknown
  simp only []
  split
  · split <;> simp
  · split
    · rfl
    · split <;> simp

@[simp] theorem State.cqHead_vault (v : BitVec 16) (s : State) : (State.cqHead v s).vault = s.vault := by
  unfold State.cqHead
  (try simp only [])
  repeat' split
  all_goals first | (simp; done) | (simp; rfl) | rfl

@[simp] theorem State.spiLost_vault (s : State) : (State.spiLost s).vault = s.vault := by
  unfold State.spiLost
  (try simp only [])
  repeat' split
  all_goals first | (simp; done) | (simp; rfl) | rfl

@[simp] theorem State.answer_vault (port : Fin 2) (b : List Byte) (s : State) : (State.answer port b s).vault = s.vault := by
  unfold State.answer
  (try simp only [])
  repeat' split
  all_goals first | (simp; done) | (simp; rfl) | rfl

@[simp] theorem State.management_vault (port : Fin 2) (op : Nat) (b : List Byte) (go : Nat → Nat → State → State) (s : State)
    (h : ∀ x y t, (go x y t).vault = t.vault) : (s.management port op b go).vault = s.vault := by
  unfold State.management
  simp only []
  repeat' split
  all_goals simp [h]

@[simp] theorem State.ssOff_vault (n : Fin 24) (byShed : Bool) (s : State) : (State.ssOff n byShed s).vault = s.vault := by
  unfold State.ssOff
  (try simp only [])
  repeat' split
  all_goals first | (simp; done) | (simp; rfl) | rfl

@[simp] theorem State.ssOn_vault (n : Fin 24) (s : State) : (State.ssOn n s).vault = s.vault := by
  unfold State.ssOn
  (try simp only [])
  repeat' split
  all_goals first | (simp; done) | (simp; rfl) | rfl

@[simp] theorem State.shed4_vault (s : State) : (State.shed4 s).vault = s.vault := by
  unfold State.shed4
  (try simp only [])
  repeat' split
  all_goals first | (simp; done) | (simp; rfl) | rfl

@[simp] theorem State.setShed_vault (n : Nat) (s : State) : (State.setShed n s).vault = s.vault := by
  unfold State.setShed
  (try simp only [])
  repeat' split
  all_goals first | (simp; done) | (simp; rfl) | rfl

@[simp] theorem State.shedEnter_vault (dV : Nat) (s : State) : (State.shedEnter dV s).vault = s.vault := by
  unfold State.shedEnter
  (try simp only [])
  repeat' split
  all_goals first | (simp; done) | (simp; rfl) | rfl

@[simp] theorem State.shedLeave_vault (dV : Nat) (s : State) : (State.shedLeave dV s).vault = s.vault := by
  unfold State.shedLeave
  (try simp only [])
  repeat' split
  all_goals first | (simp; done) | (simp; rfl) | rfl

@[simp] theorem State.ptpMap_vault (f : PtpSt → PtpSt) (s : State) : (State.ptpMap f s).vault = s.vault := by
  unfold State.ptpMap
  (try simp only [])
  repeat' split
  all_goals first | (simp; done) | (simp; rfl) | rfl

@[simp] theorem State.ptpSync_vault (ofs : Int) (s : State) : (State.ptpSync ofs s).vault = s.vault := by
  unfold State.ptpSync
  (try simp only [])
  repeat' split
  all_goals first | (simp; done) | (simp; rfl) | rfl

@[simp] theorem State.halfMap_vault (id : HalfId) (f : Half → Half) (s : State) : (State.halfMap id f s).vault = s.vault := by
  unfold State.halfMap
  (try simp only [])
  repeat' split
  all_goals first | (simp; done) | (simp; rfl) | rfl

@[simp] theorem State.resMap_vault (r : Fin 8) (f : ResSt → ResSt) (s : State) : (State.resMap r f s).vault = s.vault := by
  unfold State.resMap
  (try simp only [])
  repeat' split
  all_goals first | (simp; done) | (simp; rfl) | rfl

@[simp] theorem State.faultsMap_vault (p : Option HalfId) (f : Faults → Faults) (s : State) : (State.faultsMap p f s).vault = s.vault := by
  unfold State.faultsMap
  (try simp only [])
  repeat' split
  all_goals first | (simp; done) | (simp; rfl) | rfl

@[simp] theorem State.clMap_vault (k : Fin 24) (f : ClSt → ClSt) (s : State) : (State.clMap k f s).vault = s.vault := by
  unfold State.clMap
  (try simp only [])
  repeat' split
  all_goals first | (simp; done) | (simp; rfl) | rfl

@[simp] theorem State.putReg_vault (r : Reg) (v : Word) (s : State) : (State.putReg r v s).vault = s.vault := by
  unfold State.putReg
  (try simp only [])
  repeat' split
  all_goals first | (simp; done) | (simp; rfl) | rfl

@[simp] theorem State.writeReg_vault (r : Reg) (v : Word) (s : State) : (State.writeReg r v s).vault = s.vault := by
  unfold State.writeReg
  (try simp only [])
  repeat' split
  all_goals first | (simp; done) | (simp; rfl) | rfl

@[simp] theorem State.clearRc_vault (r : Reg) (s : State) : (State.clearRc r s).vault = s.vault := by
  unfold State.clearRc
  (try simp only [])
  repeat' split
  all_goals first | (simp; done) | (simp; rfl) | rfl

@[simp] theorem State.shareStart_vault (s : State) : (State.shareStart s).vault = s.vault := by
  unfold State.shareStart
  (try simp only [])
  repeat' split
  all_goals first | (simp; done) | (simp; rfl) | rfl

@[simp] theorem State.hubLeaves_vault (l : List (Nat × Word × Nat)) (s : State) : (s.hubLeaves l).vault = s.vault :=
  eachOf_vault _ _ (fun x t => State.log_vault ..) s

@[simp] theorem State.configure_vault (im : Image) (s : State) : (s.configure im).1.vault = s.vault := by
  unfold State.configure
  extract_lets _ _ _ _ s1 s2 flt fix _ s3 s4
  have h : ∀ (l : List RegItem) (t : State), (l.foldl (fun t x => eachOf (regTwins x.reg) (fun r t => t.putReg r x.val) t) t).vault = t.vault :=
    fun l t => foldl_vault l _ (fun t x => eachOf_vault _ _ (fun r t => State.putReg_vault ..) t) t
  have e1 : s1.vault = s.vault := vault_mk _ _ _ _ _ _ _ rfl rfl rfl
  have e2 : s2.vault = s.vault := (h im.regs s1).trans e1
  have e3 : s3.vault = s.vault := (State.hubLeaves_vault ..).trans (Eq.trans (vault_mk _ _ _ _ _ _ _ rfl rfl rfl) e2)
  have e4 : s4.vault = s.vault := (State.shareStart_vault s3).trans e3
  exact Eq.trans (vault_mk _ _ _ _ _ _ _ rfl rfl rfl) e4

@[simp] theorem State.serveImageBegin_vault (a : Ask) (s : State) : (State.serveImageBegin a s).vault = s.vault := by
  unfold State.serveImageBegin
  (try simp only [])
  repeat' first
    | split
    | refine State.checked_vault _ _ _ _ (fun t => ?_)
  all_goals first | (simp; done) | (simp; rfl) | rfl

@[simp] theorem State.serveImageChunk_vault (a : Ask) (s : State) : (State.serveImageChunk a s).vault = s.vault := by
  unfold State.serveImageChunk
  (try simp only [])
  repeat' first
    | split
    | refine State.checked_vault _ _ _ _ (fun t => ?_)
  all_goals first | (simp; done) | (simp; rfl) | rfl

@[simp] theorem State.serveImageAbort_vault (a : Ask) (s : State) : (State.serveImageAbort a s).vault = s.vault := by
  unfold State.serveImageAbort
  (try simp only [])
  repeat' split
  all_goals first | (simp; done) | (simp; rfl) | rfl

@[simp] theorem State.serveCommit_vault (a : Ask) (s : State) : (State.serveCommit a s).vault = s.vault := by
  unfold State.serveCommit
  (try simp only [])
  repeat' first
    | split
    | refine State.checked_vault _ _ _ _ (fun t => ?_)
  all_goals first | (simp; done) | (simp; rfl) | rfl

@[simp] theorem State.serveDryRun_vault (a : Ask) (s : State) : (State.serveDryRun a s).vault = s.vault := by
  unfold State.serveDryRun
  (try simp only [])
  repeat' first
    | split
    | refine State.checked_vault _ _ _ _ (fun t => ?_)
  all_goals first | (simp; done) | (simp; rfl) | rfl

@[simp] theorem State.cancelExpert_vault (s : State) : (State.cancelExpert s).vault = s.vault := by
  unfold State.cancelExpert
  (try simp only [])
  repeat' split
  all_goals first | (simp; done) | (simp; rfl) | rfl

@[simp] theorem State.putInForce_vault (b : List Byte) (s : State) : (s.putInForce b).vault = s.vault := by
  unfold State.putInForce
  extract_lets im d s1 mark s2
  have e1 : s1.vault = s.vault := State.configure_vault ..
  have e2 : s2.vault = s.vault := Eq.trans (vault_mk _ _ _ _ _ _ _ rfl rfl rfl) e1
  rw [State.flush_vault, State.cfgMap_vault, e2]

@[simp] theorem State.bringUp_vault (s : State) : (State.bringUp s).vault = s.vault := by
  unfold State.bringUp
  (try simp only [])
  repeat' split
  all_goals first | (simp; done) | (simp; rfl) | rfl

@[simp] theorem State.afterCommit_vault (s : State) : (State.afterCommit s).vault = s.vault := by
  unfold State.afterCommit
  (try simp only [])
  repeat' split
  all_goals first | (simp; done) | (simp; rfl) | rfl

@[simp] theorem State.applyCommits_vault (s : State) : (State.applyCommits s).vault = s.vault := by
  unfold State.applyCommits
  (try simp only [])
  repeat' split
  all_goals first | (simp; done) | (simp; rfl) | rfl

@[simp] theorem State.serveConfigRead_vault (a : Ask) (s : State) : (State.serveConfigRead a s).vault = s.vault := by
  unfold State.serveConfigRead
  (try simp only [])
  repeat' first
    | split
    | refine State.checked_vault _ _ _ _ (fun t => ?_)
  all_goals first | (simp; done) | (simp; rfl) | rfl

@[simp] theorem State.serveLinkSet_vault (a : Ask) (s : State) : (State.serveLinkSet a s).vault = s.vault := by
  unfold State.serveLinkSet
  (try simp only [])
  repeat' first
    | split
    | refine State.checked_vault _ _ _ _ (fun t => ?_)
  all_goals first | (simp; done) | (simp; rfl) | rfl

@[simp] theorem State.publish_vault (k : Fin 24) (s : State) : (State.publish k s).vault = s.vault := by
  unfold State.publish
  (try simp only [])
  repeat' split
  all_goals first | (simp; done) | (simp; rfl) | rfl

@[simp] theorem State.clIntake_vault (r : ResOut) (s : State) : (State.clIntake r s).vault = s.vault := by
  unfold State.clIntake
  (try simp only [])
  repeat' split
  all_goals first | (simp; done) | (simp; rfl) | rfl

@[simp] theorem State.corrNote_vault (r : ResOut) (s : State) : (State.corrNote r s).vault = s.vault := by
  unfold State.corrNote
  (try simp only [])
  repeat' split
  all_goals first | (simp; done) | (simp; rfl) | rfl

@[simp] theorem State.corrIntake_vault (lane cyl cyc : Nat) (ang : Option Int) (span : Rat) (s : State) : (State.corrIntake lane cyl cyc ang span s).vault = s.vault := by
  unfold State.corrIntake
  (try simp only [])
  repeat' split
  all_goals first | (simp; done) | (simp; rfl) | rfl

@[simp] theorem State.resultIntake_vault (s : State) : (State.resultIntake s).vault = s.vault := by
  unfold State.resultIntake
  extract_lets s1 s2 ready
  have e1 : s1.vault = s.vault := State.setHub_vault _ _ rfl rfl rfl
  have e2 : s2.vault = s.vault := (eachOf_vault _ _ (fun r t => by rw [State.clIntake_vault, State.corrNote_vault]) s1).trans e1
  refine (eachOf_vault _ _ (fun x t => State.corrIntake_vault ..) _).trans ?_
  rw [State.recsMap_vault, e2]

theorem State.combined_vault (a : Ask) (cand : State) (ok : State → State) (s : State) (h : ∀ t, (ok t).vault = t.vault) :
    (State.combined a cand ok s).vault = s.vault := by
  unfold State.combined
  simp only []
  split
  · exact h s
  · simp

@[simp] theorem State.serveSlotArm_vault (a : Ask) (s : State) : (State.serveSlotArm a s).vault = s.vault := by
  unfold State.serveSlotArm
  (try simp only [])
  repeat' first
    | split
    | refine State.checked_vault _ _ _ _ (fun t => ?_)
  all_goals first | (simp; done) | (simp; rfl) | rfl

theorem State.slotCmd_vault (a : Ask) (range : List (Bool × Nat)) (ok : HalfId → Fin 1024 → Nat → State → State) (s : State)
    (h : ∀ id k n t, (ok id k n t).vault = t.vault) : (s.slotCmd a range ok).vault = s.vault := by
  unfold State.slotCmd
  simp only []
  repeat' first
    | split
    | refine State.checked_vault _ _ _ _ (fun t => ?_)
  all_goals first | (simp [h]; done) | rfl

@[simp] theorem State.serveSlotWrite_vault (a : Ask) (s : State) : (State.serveSlotWrite a s).vault = s.vault := by
  unfold State.serveSlotWrite
  (try simp only [])
  repeat' first
    | split
    | refine State.checked_vault _ _ _ _ (fun t => ?_)
    | refine State.slotCmd_vault _ _ _ _ (fun id k n t => ?_)
  all_goals first | (simp; done) | (simp; rfl) | rfl

@[simp] theorem State.serveSlotFree_vault (a : Ask) (s : State) : (State.serveSlotFree a s).vault = s.vault := by
  unfold State.serveSlotFree
  (try simp only [])
  repeat' first
    | split
    | refine State.slotCmd_vault _ _ _ _ (fun id k n t => ?_)
  all_goals first | (simp; done) | (simp; rfl) | rfl

@[simp] theorem State.serveSlotRead_vault (a : Ask) (s : State) : (State.serveSlotRead a s).vault = s.vault := by
  unfold State.serveSlotRead
  (try simp only [])
  repeat' first
    | split
    | refine State.slotCmd_vault _ _ _ _ (fun id k n t => ?_)
  all_goals first | (simp; done) | (simp; rfl) | rfl

@[simp] theorem State.serveProfileWrite_vault (a : Ask) (s : State) : (s.serveProfileWrite a).vault = s.vault := by
  unfold State.serveProfileWrite
  refine State.checked_vault _ _ _ _ (fun t => ?_)
  split
  · rfl
  · extract_lets old s1 set
    have e1 : s1.vault = t.vault := by
      simp only [s1]
      clear_value old
      split <;> simp
    exact Eq.trans (vault_mk _ _ _ _ _ _ _ rfl rfl rfl) e1

@[simp] theorem State.profileCopy_vault (id : HalfId) (i : Fin 32) (s : State) : (State.profileCopy id i s).vault = s.vault := by
  unfold State.profileCopy
  (try simp only [])
  repeat' split
  all_goals first | (simp; done) | (simp; rfl) | rfl

@[simp] theorem State.serveProfileRead_vault (a : Ask) (s : State) : (State.serveProfileRead a s).vault = s.vault := by
  unfold State.serveProfileRead
  (try simp only [])
  repeat' first
    | split
    | refine State.checked_vault _ _ _ _ (fun t => ?_)
  all_goals first | (simp; done) | (simp; rfl) | rfl

@[simp] theorem State.serveTrackerSet_vault (a : Ask) (s : State) : (State.serveTrackerSet a s).vault = s.vault := by
  unfold State.serveTrackerSet
  (try simp only [])
  repeat' first
    | split
    | refine State.checked_vault _ _ _ _ (fun t => ?_)
  all_goals first | (simp; done) | (simp; rfl) | rfl

@[simp] theorem State.serveTwistSet_vault (a : Ask) (s : State) : (State.serveTwistSet a s).vault = s.vault := by
  unfold State.serveTwistSet
  (try simp only [])
  repeat' first
    | split
    | refine State.checked_vault _ _ _ _ (fun t => ?_)
  all_goals first | (simp; done) | (simp; rfl) | rfl

theorem State.acqSet_vault (a : Ask) (bad : Bool) (own : List (Bool × Nat)) (ok : HalfId → State → State) (s : State)
    (h : ∀ id t, (ok id t).vault = t.vault) : (s.acqSet a bad own ok).vault = s.vault := by
  unfold State.acqSet
  exact State.checked_vault _ _ _ _ (h _)

@[simp] theorem State.serveAcqMask_vault (a : Ask) (s : State) : (State.serveAcqMask a s).vault = s.vault := by
  unfold State.serveAcqMask
  (try simp only [])
  repeat' first
    | split
    | refine State.acqSet_vault _ _ _ _ _ (fun id t => ?_)
  all_goals first | (simp; done) | (simp; rfl) | rfl

@[simp] theorem State.serveAcqDelay_vault (a : Ask) (s : State) : (State.serveAcqDelay a s).vault = s.vault := by
  unfold State.serveAcqDelay
  (try simp only [])
  repeat' first
    | split
    | refine State.acqSet_vault _ _ _ _ _ (fun id t => ?_)
  all_goals first | (simp; done) | (simp; rfl) | rfl

@[simp] theorem State.serveAcqStep_vault (a : Ask) (s : State) : (State.serveAcqStep a s).vault = s.vault := by
  unfold State.serveAcqStep
  (try simp only [])
  repeat' first
    | split
    | refine State.acqSet_vault _ _ _ _ _ (fun id t => ?_)
  all_goals first | (simp; done) | (simp; rfl) | rfl

@[simp] theorem State.serveAcqPeriod_vault (a : Ask) (s : State) : (State.serveAcqPeriod a s).vault = s.vault := by
  unfold State.serveAcqPeriod
  (try simp only [])
  repeat' first
    | split
    | refine State.acqSet_vault _ _ _ _ _ (fun id t => ?_)
  all_goals first | (simp; done) | (simp; rfl) | rfl

@[simp] theorem State.serveClSet_vault (a : Ask) (s : State) : (State.serveClSet a s).vault = s.vault := by
  unfold State.serveClSet
  (try simp only [])
  repeat' first
    | split
    | refine State.checked_vault _ _ _ _ (fun t => ?_)
    | refine State.combined_vault _ _ _ _ (fun t => ?_)
  all_goals first | (simp; done) | (simp; rfl) | rfl

@[simp] theorem State.serveProgLoad_vault (a : Ask) (s : State) : (State.serveProgLoad a s).vault = s.vault := by
  unfold State.serveProgLoad
  (try simp only [])
  repeat' first
    | split
    | refine State.checked_vault _ _ _ _ (fun t => ?_)
    | refine State.combined_vault _ _ _ _ (fun t => ?_)
  all_goals first | (simp; done) | (simp; rfl) | rfl

@[simp] theorem State.serveSluiceCtl_vault (a : Ask) (s : State) : (State.serveSluiceCtl a s).vault = s.vault := by
  unfold State.serveSluiceCtl
  (try simp only [])
  repeat' first
    | split
    | refine State.checked_vault _ _ _ _ (fun t => ?_)
  all_goals first | (simp; done) | (simp; rfl) | rfl

@[simp] theorem State.serveSluiceXfer_vault (a : Ask) (s : State) : (State.serveSluiceXfer a s).vault = s.vault := by
  unfold State.serveSluiceXfer
  (try simp only [])
  repeat' first
    | split
    | refine State.checked_vault _ _ _ _ (fun t => ?_)
  all_goals first | (simp; done) | (simp; rfl) | rfl

@[simp] theorem State.servePinClaim_vault (a : Ask) (s : State) : (State.servePinClaim a s).vault = s.vault := by
  unfold State.servePinClaim
  (try simp only [])
  repeat' first
    | split
    | refine State.checked_vault _ _ _ _ (fun t => ?_)
  all_goals first | (simp; done) | (simp; rfl) | rfl

@[simp] theorem State.servePinRelease_vault (a : Ask) (s : State) : (State.servePinRelease a s).vault = s.vault := by
  unfold State.servePinRelease
  (try simp only [])
  repeat' first
    | split
    | refine State.checked_vault _ _ _ _ (fun t => ?_)
  all_goals first | (simp; done) | (simp; rfl) | rfl

@[simp] theorem State.serveGpioSet_vault (a : Ask) (s : State) : (State.serveGpioSet a s).vault = s.vault := by
  unfold State.serveGpioSet
  (try simp only [])
  repeat' first
    | split
    | refine State.checked_vault _ _ _ _ (fun t => ?_)
  all_goals first | (simp; done) | (simp; rfl) | rfl

@[simp] theorem State.takeClaim_vault (id : HalfId) (i rank eng : Nat) (s : State) : (s.takeClaim id i rank eng).1.vault = s.vault := by
  unfold State.takeClaim
  extract_lets s1 off
  split
  · simp
  · split
    · simp [s1]
    · simp [s1, apply_ite Prod.fst]

@[simp] theorem State.doJob_vault (j : Job) (s : State) : (State.doJob j s).vault = s.vault := by
  unfold State.doJob
  (try simp only [])
  repeat' split
  all_goals first | (simp; done) | (simp; rfl) | rfl

@[simp] theorem State.runJob_vault (j : JobRun) (s : State) : (s.runJob j).vault = s.vault := by
  unfold State.runJob
  split
  · simp
  · simp

@[simp] theorem State.runJobs_vault (s : State) : (State.runJobs s).vault = s.vault := by
  unfold State.runJobs
  (try simp only [])
  repeat' split
  all_goals first | (simp; done) | (simp; rfl) | rfl

@[simp] theorem State.serveWheelDiag_vault (a : Ask) (s : State) : (State.serveWheelDiag a s).vault = s.vault := by
  unfold State.serveWheelDiag
  (try simp only [])
  repeat' first
    | split
    | refine State.checked_vault _ _ _ _ (fun t => ?_)
  all_goals first | (simp; done) | (simp; rfl) | rfl

@[simp] theorem State.serveStatusRead_vault (a : Ask) (s : State) : (State.serveStatusRead a s).vault = s.vault := by
  unfold State.serveStatusRead
  (try simp only [])
  repeat' first
    | split
    | refine State.checked_vault _ _ _ _ (fun t => ?_)
  all_goals first | (simp; done) | (simp; rfl) | rfl

@[simp] theorem State.serveFaultRead_vault (a : Ask) (s : State) : (State.serveFaultRead a s).vault = s.vault := by
  unfold State.serveFaultRead
  (try simp only [])
  repeat' first
    | split
    | refine State.checked_vault _ _ _ _ (fun t => ?_)
  all_goals first | (simp; done) | (simp; rfl) | rfl

@[simp] theorem State.serveCalAlign_vault (a : Ask) (s : State) : (State.serveCalAlign a s).vault = s.vault := by
  unfold State.serveCalAlign
  (try simp only [])
  repeat' first
    | split
    | refine State.checked_vault _ _ _ _ (fun t => ?_)
  all_goals first | (simp; done) | (simp; rfl) | rfl

@[simp] theorem State.alignTick_vault (s : State) : (State.alignTick s).vault = s.vault := by
  unfold State.alignTick
  (try simp only [])
  repeat' split
  all_goals first | (simp; done) | (simp; rfl) | rfl

@[simp] theorem State.keepResult_vault (align : Option (Int × Int × Bool)) (fits : List TwistFit) (s : State) : (State.keepResult align fits s).vault = s.vault := by
  unfold State.keepResult
  (try simp only [])
  repeat' split
  all_goals first | (simp; done) | (simp; rfl) | rfl

@[simp] theorem State.serveCalTwist_vault (a : Ask) (s : State) : (State.serveCalTwist a s).vault = s.vault := by
  unfold State.serveCalTwist
  (try simp only [])
  repeat' first
    | split
    | refine State.checked_vault _ _ _ _ (fun t => ?_)
  all_goals first | (simp; done) | (simp; rfl) | rfl

@[simp] theorem State.uncut_vault (s : State) : (State.uncut s).vault = s.vault := by
  unfold State.uncut
  (try simp only [])
  repeat' split
  all_goals first | (simp; done) | (simp; rfl) | rfl

@[simp] theorem State.twistEnd_vault (t : TwistRun) (s : State) : (State.twistEnd t s).vault = s.vault := by
  unfold State.twistEnd
  (try simp only [])
  repeat' split
  all_goals first | (simp; done) | (simp; rfl) | rfl

@[simp] theorem State.logCal_vault (id cyl : Nat) (w sOfs : Int) (s : State) : (State.logCal id cyl w sOfs s).vault = s.vault := by
  unfold State.logCal
  (try simp only [])
  repeat' split
  all_goals first | (simp; done) | (simp; rfl) | rfl

/-- Writing calibration sets touches the calibration area alone. -/
theorem Flash.calFold_keeps (l : List CalSet) (f : Flash) :
    let g := l.foldl (fun g x => Flash.calAdd x.first x.dig (x.cyls, x.ofs) g) f
    g.fw = f.fw ∧ g.owner = f.owner ∧ g.floor = f.floor := by
  induction l generalizing f with
  | nil => exact ⟨rfl, rfl, rfl⟩
  | cons x l ih => exact ih _

theorem Flash.calSet_keeps (dig : List Byte) (g : List (Nat × Int × Int) × Int → List (Nat × Int × Int) × Int) (f : Flash) :
    (f.calSet dig g).fw = f.fw ∧ (f.calSet dig g).owner = f.owner ∧ (f.calSet dig g).floor = f.floor := by
  have h : f.calRoll.fw = f.fw ∧ f.calRoll.owner = f.owner ∧ f.calRoll.floor = f.floor := by
    unfold Flash.calRoll
    split
    · exact ⟨rfl, rfl, rfl⟩
    · exact Flash.calFold_keeps _ _
  exact h

@[simp] theorem State.calSet_vault (dig : List Byte) (g : List (Nat × Int × Int) × Int → List (Nat × Int × Int) × Int) (s : State) :
    (s.flashMap (Flash.calSet dig g)).vault = s.vault := by
  have h := Flash.calSet_keeps dig g s.hub.flash
  exact State.flashMap_vault _ s h.1 h.2.1 h.2.2

@[simp] theorem State.applyResult_vault (r : CalRes) (cyls : List Nat) (s : State) : (s.applyResult r cyls).vault = s.vault := by
  unfold State.applyResult
  simp only []
  split
  · simp; rfl
  · refine eachOf_vault _ _ (fun f t => ?_) s
    rw [State.logCal_vault, State.calSet_vault]
    exact eachOf_vault _ _ (fun id u => State.setHalf_vault ..) t

@[simp] theorem State.serveCalApply_vault (a : Ask) (s : State) : (State.serveCalApply a s).vault = s.vault := by
  unfold State.serveCalApply
  (try simp only [])
  repeat' first
    | split
    | refine State.checked_vault _ _ _ _ (fun t => ?_)
  all_goals first | (simp; done) | (simp; rfl) | rfl

@[simp] theorem State.calCancel_vault (s : State) : (State.calCancel s).vault = s.vault := by
  unfold State.calCancel
  (try simp only [])
  repeat' split
  all_goals first | (simp; done) | (simp; rfl) | rfl

@[simp] theorem State.serveSession_vault (a : Ask) (s : State) : (State.serveSession a s).vault = s.vault := by
  unfold State.serveSession
  (try simp only [])
  repeat' first
    | split
    | refine State.checked_vault _ _ _ _ (fun t => ?_)
  all_goals first | (simp; done) | (simp; rfl) | rfl

@[simp] theorem State.serveSliceCal_vault (a : Ask) (s : State) : (State.serveSliceCal a s).vault = s.vault := by
  unfold State.serveSliceCal
  (try simp only [])
  repeat' first
    | split
    | refine State.checked_vault _ _ _ _ (fun t => ?_)
  all_goals first | (simp; done) | (simp; rfl) | rfl

@[simp] theorem State.serveTdac_vault (a : Ask) (s : State) : (State.serveTdac a s).vault = s.vault := by
  unfold State.serveTdac
  (try simp only [])
  repeat' first
    | split
    | refine State.checked_vault _ _ _ _ (fun t => ?_)
  all_goals first | (simp; done) | (simp; rfl) | rfl

@[simp] theorem State.serveTdacStop_vault (a : Ask) (s : State) : (State.serveTdacStop a s).vault = s.vault := by
  unfold State.serveTdacStop
  (try simp only [])
  repeat' first
    | split
    | refine State.checked_vault _ _ _ _ (fun t => ?_)
  all_goals first | (simp; done) | (simp; rfl) | rfl

@[simp] theorem State.serveSensorRead_vault (a : Ask) (s : State) : (State.serveSensorRead a s).vault = s.vault := by
  unfold State.serveSensorRead
  (try simp only [])
  repeat' first
    | split
    | refine State.checked_vault _ _ _ _ (fun t => ?_)
  all_goals first | (simp; done) | (simp; rfl) | rfl

@[simp] theorem State.closeRec_vault (c : CycRec) (s : State) : (State.closeRec c s).vault = s.vault := by
  unfold State.closeRec
  (try simp only [])
  repeat' split
  all_goals first | (simp; done) | (simp; rfl) | rfl

@[simp] theorem State.closeRecs_vault (s : State) : (State.closeRecs s).vault = s.vault := by
  unfold State.closeRecs
  (try simp only [])
  repeat' split
  all_goals first | (simp; done) | (simp; rfl) | rfl

@[simp] theorem State.telSend_vault (cmd : Nat) (pay : List Byte) (s : State) : (State.telSend cmd pay s).vault = s.vault := by
  unfold State.telSend
  (try simp only [])
  repeat' split
  all_goals first | (simp; done) | (simp; rfl) | rfl

@[simp] theorem State.telMap_vault (f : Telem → Telem) (s : State) : (State.telMap f s).vault = s.vault := by
  unfold State.telMap
  (try simp only [])
  repeat' split
  all_goals first | (simp; done) | (simp; rfl) | rfl

@[simp] theorem State.telGap_vault (s : State) : (State.telGap s).vault = s.vault := by
  unfold State.telGap
  (try simp only [])
  repeat' split
  all_goals first | (simp; done) | (simp; rfl) | rfl

@[simp] theorem State.telRec_vault (r : TarnRec) (s : State) : (State.telRec r s).vault = s.vault := by
  unfold State.telRec
  (try simp only [])
  repeat' split
  all_goals first | (simp; done) | (simp; rfl) | rfl

@[simp] theorem State.telBlock_vault (r : TarnRec) (s : State) : (State.telBlock r s).vault = s.vault := by
  unfold State.telBlock
  (try simp only [])
  repeat' split
  all_goals first | (simp; done) | (simp; rfl) | rfl

@[simp] theorem State.telTeeth_vault (xs : List ToothRec) (s : State) : (State.telTeeth xs s).vault = s.vault := by
  unfold State.telTeeth
  (try simp only [])
  repeat' split
  all_goals first | (simp; done) | (simp; rfl) | rfl

@[simp] theorem State.telItem_vault (x : TelItem) (s : State) : (s.telItem x).vault = s.vault := by
  unfold State.telItem
  split <;> simp

@[simp] theorem State.telLibs_vault (last : Word) (s : State) : (State.telLibs last s).vault = s.vault := by
  unfold State.telLibs
  (try simp only [])
  repeat' split
  all_goals first | (simp; done) | (simp; rfl) | rfl

@[simp] theorem State.telemetry_vault (s : State) : (State.telemetry s).vault = s.vault := by
  unfold State.telemetry
  (try simp only [])
  repeat' split
  all_goals first | (simp; done) | (simp; rfl) | rfl

@[simp] theorem State.serveTelemSet_vault (a : Ask) (s : State) : (State.serveTelemSet a s).vault = s.vault := by
  unfold State.serveTelemSet
  (try simp only [])
  repeat' first
    | split
    | refine State.checked_vault _ _ _ _ (fun t => ?_)
  all_goals first | (simp; done) | (simp; rfl) | rfl

@[simp] theorem State.serveRecordRead_vault (a : Ask) (s : State) : (State.serveRecordRead a s).vault = s.vault := by
  unfold State.serveRecordRead
  (try simp only [])
  repeat' first
    | split
    | refine State.checked_vault _ _ _ _ (fun t => ?_)
  all_goals first | (simp; done) | (simp; rfl) | rfl

@[simp] theorem State.serveTraceRead_vault (a : Ask) (s : State) : (State.serveTraceRead a s).vault = s.vault := by
  unfold State.serveTraceRead
  (try simp only [])
  repeat' first
    | split
    | refine State.checked_vault _ _ _ _ (fun t => ?_)
  all_goals first | (simp; done) | (simp; rfl) | rfl

@[simp] theorem State.serveToothRead_vault (a : Ask) (s : State) : (State.serveToothRead a s).vault = s.vault := by
  unfold State.serveToothRead
  (try simp only [])
  repeat' first
    | split
    | refine State.checked_vault _ _ _ _ (fun t => ?_)
  all_goals first | (simp; done) | (simp; rfl) | rfl

@[simp] theorem State.secMap_vault (f : SecSt → SecSt) (s : State) : (State.secMap f s).vault = s.vault := by
  unfold State.secMap
  (try simp only [])
  repeat' split
  all_goals first | (simp; done) | (simp; rfl) | rfl

@[simp] theorem State.serveChallenge_vault (a : Ask) (s : State) : (State.serveChallenge a s).vault = s.vault := by
  unfold State.serveChallenge
  (try simp only [])
  repeat' split
  all_goals first | (simp; done) | (simp; rfl) | rfl

@[simp] theorem State.serveUnlock_vault (a : Ask) (s : State) : (State.serveUnlock a s).vault = s.vault := by
  unfold State.serveUnlock
  (try simp only [])
  repeat' first
    | split
    | refine State.checked_vault _ _ _ _ (fun t => ?_)
  all_goals first | (simp; done) | (simp; rfl) | rfl

@[simp] theorem State.jtagShut_vault (s : State) : (State.jtagShut s).vault = s.vault := by
  unfold State.jtagShut
  (try simp only [])
  repeat' split
  all_goals first | (simp; done) | (simp; rfl) | rfl

@[simp] theorem State.serveLinkReset_vault (a : Ask) (s : State) : (State.serveLinkReset a s).vault = s.vault := by
  unfold State.serveLinkReset
  (try simp only [])
  repeat' first
    | split
    | refine State.checked_vault _ _ _ _ (fun t => ?_)
  all_goals first | (simp; done) | (simp; rfl) | rfl

@[simp] theorem State.serveReset_vault (a : Ask) (s : State) : (State.serveReset a s).vault = s.vault := by
  unfold State.serveReset
  (try simp only [])
  repeat' first
    | split
    | refine State.checked_vault _ _ _ _ (fun t => ?_)
  all_goals first | (simp; done) | (simp; rfl) | rfl

@[simp] theorem State.serveLogRead_vault (a : Ask) (s : State) : (State.serveLogRead a s).vault = s.vault := by
  unfold State.serveLogRead
  (try simp only [])
  repeat' first
    | split
    | refine State.checked_vault _ _ _ _ (fun t => ?_)
  all_goals first | (simp; done) | (simp; rfl) | rfl

@[simp] theorem State.liveHalves_vault (f : Half → Half) (s : State) : (State.liveHalves f s).vault = s.vault := by
  unfold State.liveHalves
  (try simp only [])
  repeat' split
  all_goals first | (simp; done) | (simp; rfl) | rfl

@[simp] theorem State.takeCounts_vault (id : HalfId) (s : State) : (s.takeCounts id).vault = s.vault := State.setHalf_vault ..

@[simp] theorem State.takeRole_vault (rejoin : Bool) (id : HalfId) (s : State) : (State.takeRole rejoin id s).vault = s.vault := by
  unfold State.takeRole
  (try simp only [])
  repeat' split
  all_goals first | (simp; done) | (simp; rfl) | rfl

@[simp] theorem State.forward1_vault (x : HalfId × Out) (s : State) : (State.forward1 x s).vault = s.vault := by
  unfold State.forward1
  (try simp only [])
  repeat' split
  all_goals first | (simp; done) | (simp; rfl) | rfl

@[simp] theorem State.forwardRec_vault (id : HalfId) (r : WeirRec) (s : State) : (s.forwardRec id r).vault = s.vault := by
  unfold State.forwardRec
  refine State.setHub_vault _ _ ?_ ?_ ?_ <;> (simp only []; split <;> simp)

@[simp] theorem State.forward_vault (id : HalfId) (s : State) : (s.forward id).vault = s.vault := by
  unfold State.forward
  extract_lets h s1 s2 mine s3 recs s4 s5 own
  have e1 : s1.vault = s.vault := State.setHalf_vault ..
  have e2 : s2.vault = s.vault := (eachOf_vault _ _ (fun r t => State.forwardRec_vault ..) s1).trans e1
  have e3 : s3.vault = s.vault := by
    refine Eq.trans (eachOf_vault _ _ (fun r t => State.forward1_vault ..) _) ?_
    exact Eq.trans (vault_mk _ _ _ _ _ _ _ rfl rfl rfl) e2
  have e4 : s4.vault = s.vault := (eachOf_vault _ _ (fun r t => State.tarnMap_vault ..) s3).trans e3
  refine (eachOf_vault _ _ (fun r t => State.fileResult_vault ..) _).trans ?_
  rw [State.recsMap_vault, State.recsMap_vault, e4]

@[simp] theorem State.disCheck_vault (s : State) : (State.disCheck s).vault = s.vault := by
  unfold State.disCheck
  (try simp only [])
  repeat' split
  all_goals first | (simp; done) | (simp; rfl) | rfl

@[simp] theorem State.linksTick_vault (s : State) : (State.linksTick s).vault = s.vault := by
  unfold State.linksTick
  (try simp only [])
  repeat' split
  all_goals first | (simp; done) | (simp; rfl) | rfl

@[simp] theorem State.leatCheck_vault (id : HalfId) (hb : Heartbeat) (s : State) : (State.leatCheck id hb s).vault = s.vault := by
  unfold State.leatCheck
  (try simp only [])
  repeat' split
  all_goals first | (simp; done) | (simp; rfl) | rfl

@[simp] theorem State.heartbeat_vault (id : HalfId) (link : Link) (hb : Heartbeat) (s : State) : (State.heartbeat id link hb s).vault = s.vault := by
  unfold State.heartbeat
  (try simp only [])
  repeat' split
  all_goals first | (simp; done) | (simp; rfl) | rfl

@[simp] theorem State.countEv_vault (e : Ev) (s : State) : (State.countEv e s).vault = s.vault := by
  unfold State.countEv
  (try simp only [])
  repeat' split
  all_goals first | (simp; done) | (simp; rfl) | rfl

@[simp] theorem State.hubTurns_vault (s : State) : s.hubTurns.vault = s.vault := by
  unfold State.hubTurns
  simp only []
  split
  · rfl
  · exact State.setHub_vault _ _ rfl rfl rfl

@[simp] theorem State.countHub_vault (mine : Nat → Bool) (s : State) : (s.countHub mine).vault = s.vault := by
  unfold State.countHub
  extract_lets q s1 s2
  have e1 : s1.vault = s.vault := (State.setHub_vault _ _ rfl rfl rfl).trans (State.hubTurns_vault s)
  have e2 : s2.vault = s.vault := (eachOf_vault _ _ (fun e t => State.countEv_vault e t) s1).trans e1
  refine Eq.trans (eachIdx_vault _ _ (fun c t => ?_) s2) e2
  simp only []
  split
  · rw [State.log_vault]
    exact State.setHub_vault _ _ rfl rfl rfl
  · rfl

@[simp] theorem State.fore_vault (on : HalfId → Bool) (f : Half → Half) (s : State) : (State.fore on f s).vault = s.vault := by
  unfold State.fore
  (try simp only [])
  repeat' split
  all_goals first | (simp; done) | (simp; rfl) | rfl

@[simp] theorem State.stewards_vault (late : Bool) (on : HalfId → Bool) (s : State) : (State.stewards late on s).vault = s.vault := by
  unfold State.stewards
  (try simp only [])
  repeat' split
  all_goals first | (simp; done) | (simp; rfl) | rfl

@[simp] theorem State.powerTick_vault (i : TickIn) (s : State) : (State.powerTick i s).vault = s.vault := by
  unfold State.powerTick
  (try simp only [])
  repeat' split
  all_goals first | (simp; done) | (simp; rfl) | rfl

@[simp] theorem State.s0_vault (s : State) : (State.s0 s).vault = s.vault := by
  unfold State.s0
  (try simp only [])
  repeat' split
  all_goals first | (simp; done) | (simp; rfl) | rfl

@[simp] theorem State.resTick_vault (split wrap : Bool) (r : Fin 8) (s : State) : (State.resTick split wrap r s).vault = s.vault := by
  unfold State.resTick
  extract_lets x p m u below f0 ba bb cycled frozen f s1 s2
  split
  · rfl
  have e1 : s1.vault = s.vault := State.setHub_vault _ _ rfl rfl rfl
  have e2 : s2.vault = s.vault := by
    refine Eq.trans ?_ e1
    show (if _ then _ else _ : State).vault = _
    split
    · exact State.raiseHub_vault ..
    · rfl
  refine (eachOf_vault _ _ (fun id t => ?_) s2).trans e2
  split
  · rfl
  · exact State.setHalf_vault ..

@[simp] theorem State.s1_vault (s : State) : (State.s1 s).vault = s.vault := by
  unfold State.s1
  extract_lets split wrap s1
  have e1 : s1.vault = s.vault := eachIdx_vault 8 (State.resTick split wrap) (fun r t => State.resTick_vault split wrap r t) s
  refine (State.hubMap_keep _ _ ?_ ?_ ?_).trans ?_
  iterate 3 exact fun _ => rfl
  rw [State.countHub_vault, State.closeRecs_vault, State.resultIntake_vault, e1]

@[simp] theorem State.keyTick_vault (s : State) : (State.keyTick s).vault = s.vault := by
  unfold State.keyTick
  (try simp only [])
  repeat' split
  all_goals first | (simp; done) | (simp; rfl) | rfl

@[simp] theorem State.levelsTick_vault (s : State) : (State.levelsTick s).vault = s.vault := by
  unfold State.levelsTick
  (try simp only [])
  repeat' split
  all_goals first | (simp; done) | (simp; rfl) | rfl

@[simp] theorem State.mismatchTick_vault (s : State) : (State.mismatchTick s).vault = s.vault := by
  unfold State.mismatchTick
  (try simp only [])
  repeat' split
  all_goals first | (simp; done) | (simp; rfl) | rfl

@[simp] theorem State.hubFirst_vault (i : TickIn) (s : State) : (State.hubFirst i s).vault = s.vault := by
  unfold State.hubFirst
  (try simp only [])
  repeat' split
  all_goals first | (simp; done) | (simp; rfl) | rfl

@[simp] theorem State.bookTick_vault (s : State) : (State.bookTick s).vault = s.vault := by
  unfold State.bookTick
  (try simp only [])
  repeat' split
  all_goals first | (simp; done) | (simp; rfl) | rfl

@[simp] theorem State.profileCopies_vault (s : State) : (State.profileCopies s).vault = s.vault := by
  unfold State.profileCopies
  (try simp only [])
  repeat' split
  all_goals first | (simp; done) | (simp; rfl) | rfl

@[simp] theorem State.s1Passed_vault (s : State) : (State.s1Passed s).vault = s.vault := by
  unfold State.s1Passed
  (try simp only [])
  repeat' split
  all_goals first | (simp; done) | (simp; rfl) | rfl

@[simp] theorem State.background_vault (s : State) : (State.background s).vault = s.vault := by
  unfold State.background
  (try simp only [])
  repeat' split
  all_goals first | (simp; done) | (simp; rfl) | rfl

@[simp] theorem State.hubFore_vault (s : State) : (State.hubFore s).vault = s.vault := by
  unfold State.hubFore
  (try simp only [])
  repeat' split
  all_goals first | (simp; done) | (simp; rfl) | rfl

@[simp] theorem State.fileStage_vault (id : HalfId) (j : Fin 12) (r : ResOut) (s : State) : (s.fileStage id j r).vault = s.vault := by
  unfold State.fileStage
  exact State.act_vault ..

@[simp] theorem State.stagesDue_vault (s : State) : (State.stagesDue s).vault = s.vault := by
  unfold State.stagesDue
  refine eachOf_vault _ _ (fun id t => ?_) s
  refine eachIdx_vault _ _ (fun j t => ?_) t
  refine (eachOf_vault _ _ (fun r t => State.fileStage_vault ..) _).trans ?_
  split
  · exact State.act_vault ..
  · rfl

@[simp] theorem State.overran_vault (n : Fin 4) (ends : Nat) (s : State) : (State.overran n ends s).vault = s.vault := by
  unfold State.overran
  (try simp only [])
  repeat' split
  all_goals first | (simp; done) | (simp; rfl) | rfl

@[simp] theorem State.dogs_vault (s : State) : (State.dogs s).vault = s.vault := by
  unfold State.dogs
  (try simp only [])
  repeat' split
  all_goals first | (simp; done) | (simp; rfl) | rfl

theorem eachOf_now {α : Type} (l : List α) (f : α → State → State) (h : ∀ x t, (f x t).now = t.now) (s : State) : (eachOf l f s).now = s.now := by
  unfold eachOf
  induction l generalizing s with
  | nil => rfl
  | cons x l ih => simp only [List.foldl_cons]; rw [ih, h]

theorem State.telSend_now (cmd : Nat) (p : List Byte) (s : State) : (s.telSend cmd p).now = s.now := by
  unfold State.telSend
  split
  · rfl
  · exact eachOf_now _ (State.telOne cmd p _ _) (fun _ _ => rfl) s

theorem State.telGap_now (s : State) : s.telGap.now = s.now := by
  unfold State.telGap
  split
  · rfl
  · rw [State.telSend_now]; rfl

theorem State.telRec_now (r : TarnRec) (s : State) : (s.telRec r).now = s.now := by
  unfold State.telRec
  split
  · rfl
  · rw [State.telSend_now, State.telGap_now]

theorem State.telBlock_now (r : TarnRec) (s : State) : (s.telBlock r).now = s.now := by
  unfold State.telBlock
  split
  · rfl
  · exact (eachOf_now _ _ (fun p t => State.telSend_now ..) _).trans (State.telGap_now s)

theorem State.telTeeth_now (xs : List ToothRec) (s : State) : (s.telTeeth xs).now = s.now := by
  unfold State.telTeeth
  split
  · exact eachOf_now _ (fun (r : ToothRec) (t : State) => t.telMap (fun x => { x with gap := gapAdd r.frame x.gap })) (fun _ _ => rfl) s
  · rw [State.telSend_now, State.telGap_now]

theorem State.telItem_now (x : TelItem) (s : State) : (s.telItem x).now = s.now := by
  unfold State.telItem
  split
  · exact State.telRec_now ..
  · exact State.telBlock_now ..
  · exact State.telTeeth_now ..

theorem State.telLibs_now (last : Word) (s : State) : (s.telLibs last).now = s.now := by
  unfold State.telLibs
  exact eachOf_now _ _ (fun p t => by rw [State.telSend_now, State.telGap_now]) s

theorem State.telAll_now (xs : List TelItem) (s : State) : (eachOf xs State.telItem s).now = s.now :=
  eachOf_now _ _ (fun x t => State.telItem_now x t) s

theorem State.telemetry_now (s : State) : s.telemetry.now = s.now := by
  unfold State.telemetry
  extract_lets
  split
  · rfl
  · split
    · rfl
    · extract_lets
      split
      · exact (State.telLibs_now ..).trans (State.telAll_now ..)
      · exact State.telAll_now ..

theorem State.background_now (s : State) : s.background.now = s.now := by
  unfold State.background
  split
  · exact State.telemetry_now s
  · rfl

@[simp] theorem State.foreground_vault (n : Fin 4) (s : State) : (s.foreground n).vault = s.vault := by
  unfold State.foreground
  split
  · rfl
  · split <;> simp

@[simp] theorem State.lateOne_vault (t : Nat) (s : State) : (s.lateOne t).vault = s.vault := by
  unfold State.lateOne
  split
  · rfl
  · rw [State.foreground_vault]
    exact (State.setHub_vault _ _ rfl rfl rfl).trans (State.advanceTo_vault ..)

@[simp] theorem State.late_vault (t : Nat) (s : State) : (s.late t).vault = s.vault := foldl_vault _ _ (fun s _ => State.lateOne_vault t s) s

/-- A frame tick adds one to FRAME, and stands 8000 et after the last one, or later if the clock is ahead of that. -/
theorem State.frameTick_vault (i : TickIn) (s00 : State) : (s00.frameTick i).vault =
    s00.vault.clock (s00.hub.frame + 1) ((s00.late (s00.hub.tick + 8000)).advanceTo (s00.hub.tick + 8000)).now := by
  unfold State.frameTick
  extract_lets s0 s s1 s2 s3 s4 done
  have e0 : s.vault = s00.vault := (State.background_vault _).trans ((State.advanceTo_vault ..).trans (State.late_vault ..))
  have hf : s.hub.frame = s00.hub.frame := (vault_of_eq e0).2.2.2.2.1
  have hn : s.now = (s0.advanceTo (s00.hub.tick + 8000)).now := State.background_now _
  clear_value s
  have e1 : s1.vault = s00.vault.clock (s00.hub.frame + 1) s.now := by
    obtain ⟨k1, k2, k3, k4, k5, k6⟩ := vault_of_eq e0
    simp only [s1, State.linksTick_vault, State.hubMap_vault]
    rw [k1, k2, k3, k4, k5]
    rfl
  have e2 : s2.vault = s1.vault := by simp only [s2, State.act_vault]
  have e3 : s3.vault = s1.vault := by simp only [s3, State.bookTick_vault, State.stagesDue_vault, e2]
  have e4 : s4.vault = s1.vault := by
    simp only [s4, State.hubFore_vault, State.stewards_vault, State.profileCopies_vault, State.hubFirst_vault, e3]
  rw [State.keyTick_vault, State.dogs_vault, ← hn, ← e1]
  exact Eq.trans (vault_mk _ _ _ _ _ _ _ rfl rfl rfl) e4

theorem State.allReset_vault (s : State) : (s.allReset).vault = s.vault.clock s.allReset.hub.frame s.allReset.hub.tick := rfl

theorem State.moduleReset_vault (cause : Nat) (s : State) : (State.moduleReset cause s).vault =
    s.vault.clock (State.moduleReset cause s).hub.frame (State.moduleReset cause s).hub.tick := by
  refine clock_of (State.bootMap_vault _ _) ?_
  rw [State.allReset_vault, State.jtagShut_vault]

@[simp] theorem State.cancelHalf_vault (id : HalfId) (s : State) : (State.cancelHalf id s).vault = s.vault := by
  unfold State.cancelHalf
  (try simp only [])
  repeat' split
  all_goals first | (simp; done) | (simp; rfl) | rfl

@[simp] theorem State.reconfigure_vault (id : HalfId) (s : State) : (State.reconfigure id s).vault = s.vault := by
  unfold State.reconfigure
  (try simp only [])
  repeat' split
  all_goals first | (simp; done) | (simp; rfl) | rfl

@[simp] theorem State.restartHalf_vault (id : HalfId) (s : State) : (s.restartHalf id).vault = s.vault := by
  unfold State.restartHalf
  extract_lets s1 _ _ h _ _ s2
  have e1 : s1.vault = s.vault := State.cancelHalf_vault id s
  have e2 : s2.vault = s.vault := by
    refine Eq.trans (vault_same (s := s1.setHalf h id) ?_ ?_ ?_ ?_) ?_
    all_goals first | (cases id <;> rfl) | skip
    rw [State.setHalf_vault, e1]
  rw [State.reconfigure_vault, State.recsMap_vault, e2]

@[simp] theorem State.dropHalf_vault (id : HalfId) (s : State) : (State.dropHalf id s).vault = s.vault := by
  unfold State.dropHalf
  (try simp only [])
  repeat' split
  all_goals first | (simp; done) | (simp; rfl) | rfl

@[simp] theorem State.countHalf_vault (seen : Bool) (id : HalfId) (s : State) : (State.countHalf seen id s).vault = s.vault := by
  unfold State.countHalf
  (try simp only [])
  repeat' split
  all_goals first | (simp; done) | (simp; rfl) | rfl

@[simp] theorem State.halfReset_vault (id : HalfId) (cause : Nat) (s : State) : (State.halfReset id cause s).vault = s.vault := by
  unfold State.halfReset
  (try simp only [])
  repeat' split
  all_goals first | (simp; done) | (simp; rfl) | rfl

@[simp] theorem State.trialAgain_vault (s : State) : (State.trialAgain s).vault = s.vault := by
  unfold State.trialAgain
  (try simp only [])
  repeat' split
  all_goals first | (simp; done) | (simp; rfl) | rfl

theorem State.hubReset_vault (cause : Nat) (s0 : State) : (State.hubReset cause s0).vault =
    s0.vault.clock (State.hubReset cause s0).hub.frame (State.hubReset cause s0).hub.tick := by
  unfold State.hubReset
  split
  · rfl
  · extract_lets s u _ b r _ _ h s1 cut s2
    have e0 : s.vault = s0.vault := State.jtagShut_vault s0
    have e1 : s1.vault = s0.vault.clock s1.hub.frame s1.hub.tick := clock_mk e0 rfl rfl
    have e2 : s2.vault = s1.vault := eachOf_vault _ _ (fun id t => State.setHalf_vault ..) s1
    refine clock_of ?_ e1
    rw [State.flush_vault]
    exact (eachOf_vault _ _ (fun id t => State.takeRole_vault ..) s2).trans e2

@[simp] theorem State.logBoot_vault (s : State) : (State.logBoot s).vault = s.vault := by
  unfold State.logBoot
  (try simp only [])
  repeat' split
  all_goals first | (simp; done) | (simp; rfl) | rfl

@[simp] theorem State.startHalves_vault (s : State) : (State.startHalves s).vault = s.vault := by
  unfold State.startHalves
  (try simp only [])
  repeat' split
  all_goals first | (simp; done) | (simp; rfl) | rfl

@[simp] theorem State.bootImage_vault (b : List Byte) (s : State) : (s.bootImage b).vault = s.vault := by
  unfold State.bootImage
  extract_lets s1
  have e : s1.vault = s.vault := State.putInForce_vault b s
  split
  · exact Eq.trans (vault_mk _ _ _ _ _ _ _ rfl rfl rfl) e
  · exact e

@[simp] theorem State.fallback_vault (b : List Byte) (s : State) : (State.fallback b s).vault = s.vault := by
  unfold State.fallback
  (try simp only [])
  repeat' split
  all_goals first | (simp; done) | (simp; rfl) | rfl

@[simp] theorem State.settleStart_vault (s : State) : (State.settleStart s).vault = s.vault := by
  unfold State.settleStart
  (try simp only [])
  repeat' split
  all_goals first | (simp; done) | (simp; rfl) | rfl

@[simp] theorem State.hubImage_vault (b : List Byte) (s : State) : (s.hubImage b).vault = s.vault := by
  have h := vault_of_eq (State.configure_vault (Image.ofBytes b) s)
  unfold State.hubImage
  simp [State.vault, h]

@[simp] theorem State.configDone_vault (s : State) : (State.configDone s).vault = s.vault := by
  unfold State.configDone
  (try simp only [])
  repeat' split
  all_goals first | (simp; done) | (simp; rfl) | rfl

@[simp] theorem State.stageAdvance_vault (s : State) : (s.stageAdvance).vault = s.vault := by
  unfold State.stageAdvance
  extract_lets b
  split
  · rfl
  · split
    · split <;> simp
    · simp
    · simp
    · rename_i s1 s2 _ _ _
      have e1 : s1.vault = s.vault := by simp [s1]
      have e2 : s2.vault = s.vault := (State.setHub_vault _ _ rfl rfl rfl).trans e1
      split
      · exact e2
      · rw [State.pwrMap_vault, e2]
    · rfl

@[simp] theorem State.flashEnds_vault (s : State) : (s.flashEnds).vault = s.vault := by
  unfold State.flashEnds
  rw [State.cfgMap_vault]
  exact eachOf_vault _ _ (fun x t => by rw [State.finish_vault]; exact State.flashMap_vault _ _ rfl rfl rfl) s

theorem State.down_vault (next : Nat) (s : State) : (State.down next s).vault =
    s.vault.clock (State.down next s).hub.frame (State.down next s).hub.tick := by
  refine clock_of (State.bootMap_vault _ _) ?_
  rw [State.allReset_vault, State.jtagShut_vault]

theorem State.watchdog_vault (n : Fin 4) (reset : State → State) (s : State) (h : ∀ t, (reset t).vault = t.vault.clock (reset t).hub.frame (reset t).hub.tick) :
    (s.watchdog n reset).vault = s.vault.clock (s.watchdog n reset).hub.frame (s.watchdog n reset).hub.tick := by
  unfold State.watchdog
  extract_lets s1
  have e : s1.vault = s.vault.clock s1.hub.frame s1.hub.tick := by
    refine (h _).trans ?_
    rw [State.trialAgain_vault, State.advanceTo_vault]
  exact (State.setHub_vault _ _ rfl rfl rfl).trans e

@[simp] theorem State.eccRaise_vault (a : EccArea) (cls : Nat) (s : State) : (State.eccRaise a cls s).vault = s.vault := by
  unfold State.eccRaise
  (try simp only [])
  repeat' split
  all_goals first | (simp; done) | (simp; rfl) | rfl

theorem State.eccLost_vault (a : EccArea) (s : State) : (State.eccLost a s).vault =
    s.vault.clock (State.eccLost a s).hub.frame (State.eccLost a s).hub.tick := by
  cases a <;> unfold State.eccLost
  · exact clock_of (State.tarnMap_vault ..) rfl
  · exact clock_of (State.tarnMap_vault ..) rfl
  · exact clock_of (State.tarnMap_vault ..) rfl
  · exact (State.hubReset_vault ..).trans (by rw [State.trialAgain_vault])
  · exact clock_of ((State.halfReset_vault ..).trans (State.trialAgain_vault ..)) rfl
  · exact clock_of (State.onHalf_vault ..) rfl

@[simp] theorem State.takeBuffer_vault (s : State) : (State.takeBuffer s).vault = s.vault := by
  unfold State.takeBuffer
  (try simp only [])
  repeat' split
  all_goals first | (simp; done) | (simp; rfl) | rfl

@[simp] theorem State.transient_vault (src : Nat) (s : State) : (s.transient src).vault = s.vault := by
  unfold State.transient
  split
  · split
    · exact State.raiseHub_vault ..
    · exact State.onHalf_vault ..
  · exact State.raiseHub_vault ..

@[simp] theorem State.statSend_vault (s : State) : s.statSend.vault = s.vault := State.linkMap_vault ..

end Sys2Proof.Machine
end

