-- ==== Sys2Proof/Laws/Commands.lean ====
section
/-! SUPPORT. No command but those of the firmware slots, the owner key, the boot ROM and the request buffer touches the vault;
FRAME and the instant of the last tick change with FRAME_TICK and with resets alone. -/

namespace Sys2Proof.Machine

open Sys2Proof

set_option linter.unusedTactic false
set_option linter.unreachableTactic false

theorem execFrameTick_vault (inp : TickIn) (s s2 : State)
    (q : execFrameTick inp s = .next s2) : s2.vault = s.vault.clock s2.hub.frame s2.hub.tick := by
  cases Host.Outcome.next.inj q
  split
  · exact clock_self (State.frameTick_vault inp s)
  · rfl

theorem execFrameOverrun_vault (o : Overrun) (s s2 : State)
    (q : execFrameOverrun o s = .next s2) : s2.vault = s.vault := by
  unfold execFrameOverrun at q
  simp only [] at q
  cases Host.Outcome.next.inj q
  split
  · rfl
  · split <;> simp

theorem execHeartbeatReceive_vault (h : HalfId) (link : Link) (hb : Heartbeat) (s s2 : State)
    (q : execHeartbeatReceive h link hb s = .next s2) : s2.vault = s.vault := by
  cases Host.Outcome.next.inj q; simp

theorem execDatagramRepeat_vault (s s2 : State)
    (q : execDatagramRepeat s = .next s2) : s2.vault = s.vault := by
  unfold execDatagramRepeat at q
  split at q <;> (cases q; first | rfl | simp)

theorem execStreamRecover_vault (stream : Stream) (s s2 : State)
    (q : execStreamRecover stream s = .next s2) : s2.vault = s.vault := by
  cases Host.Outcome.next.inj q; simp

theorem execQualifiedEdge_vault (h : HalfId) (i : Inp) (e : EdgeIn) (s s2 : State)
    (q : execQualifiedEdge h i e s = .next s2) : s2.vault = s.vault := by
  cases Host.Outcome.next.inj q; simp

theorem execEdgeBlanked_vault (h : HalfId) (b : BlankedEdge) (s s2 : State)
    (q : execEdgeBlanked h b s = .next s2) : s2.vault = s.vault := by
  cases Host.Outcome.next.inj q; simp

theorem execBlankingWindowEnd_vault (h : HalfId) (i : Inp) (s s2 : State)
    (q : execBlankingWindowEnd h i s = .next s2) : s2.vault = s.vault := by
  cases Host.Outcome.next.inj q; simp

theorem execVarmDecay_vault (h : HalfId) (i : Inp) (s s2 : State)
    (q : execVarmDecay h i s = .next s2) : s2.vault = s.vault := by
  cases Host.Outcome.next.inj q; simp

theorem execOverspeedTripTimeout_vault (h : HalfId) (s s2 : State)
    (q : execOverspeedTripTimeout h s = .next s2) : s2.vault = s.vault := by
  cases Host.Outcome.next.inj q; simp

theorem execGateClose_vault (h : HalfId) (u : UnitId) (s s2 : State)
    (q : execGateClose h u s = .next s2) : s2.vault = s.vault := by
  cases Host.Outcome.next.inj q; simp

theorem execStopTimeout_vault (h : HalfId) (s s2 : State)
    (q : execStopTimeout h s = .next s2) : s2.vault = s.vault := by
  cases Host.Outcome.next.inj q; simp

theorem execReceiverEnable_vault (h : HalfId) (i : Inp) (lvl : InLevel) (s s2 : State)
    (q : execReceiverEnable h i lvl s = .next s2) : s2.vault = s.vault := by
  cases Host.Outcome.next.inj q; simp

theorem execEdgeLatchClear_vault (h : HalfId) (i : Inp) (s s2 : State)
    (q : execEdgeLatchClear h i s = .next s2) : s2.vault = s.vault := by
  cases Host.Outcome.next.inj q; simp

theorem execWiringConditionSet_vault (h : HalfId) (i : Inp) (c : Cond) (cm : Nat) (dc : Nat) (s s2 : State)
    (q : execWiringConditionSet h i c cm dc s = .next s2) : s2.vault = s.vault := by
  cases Host.Outcome.next.inj q; simp

theorem execWiringConditionClear_vault (h : HalfId) (i : Inp) (c : Cond) (cm : Nat) (dc : Nat) (s s2 : State)
    (q : execWiringConditionClear h i c cm dc s = .next s2) : s2.vault = s.vault := by
  cases Host.Outcome.next.inj q; simp

theorem execReceiverFailedClear_vault (h : HalfId) (i : Inp) (s s2 : State)
    (q : execReceiverFailedClear h i s = .next s2) : s2.vault = s.vault := by
  cases Host.Outcome.next.inj q; simp

theorem execReceiverDisagree_vault (i : Inp) (s s2 : State)
    (q : execReceiverDisagree i s = .next s2) : s2.vault = s.vault := by
  unfold execReceiverDisagree at q
  split at q
  · cases Host.Outcome.next.inj q
    rw [State.onHalves_vault]
    refine (State.hubMap_keep _ _ ?_ ?_ ?_).trans (State.advanceTo_vault ..)
    iterate 3 exact fun _ => rfl
  · cases q; rfl

theorem execTwistRecompute_vault (h : HalfId) (s s2 : State)
    (q : execTwistRecompute h s = .next s2) : s2.vault = s.vault := by
  cases Host.Outcome.next.inj q; simp

theorem execCalAlignResult_vault (s s2 : State)
    (q : execCalAlignResult s = .next s2) : s2.vault = s.vault := by
  unfold execCalAlignResult at q
  repeat' split at q
  all_goals cases q; first | rfl | simp

theorem execCalTwistResult_vault (s s2 : State)
    (q : execCalTwistResult s = .next s2) : s2.vault = s.vault := by
  unfold execCalTwistResult at q
  split at q <;> (cases q; first | rfl | simp)

theorem execCalTwistTimeout_vault (s s2 : State)
    (q : execCalTwistTimeout s = .next s2) : s2.vault = s.vault := by
  unfold execCalTwistTimeout at q
  split at q <;> (cases q; first | rfl | simp)

theorem execHopperLoad_vault (h : HalfId) (k : Fin 1024) (s s2 : State)
    (q : execHopperLoad h k s = .next s2) : s2.vault = s.vault := by
  cases Host.Outcome.next.inj q; simp

theorem execSlotDue_vault (h : HalfId) (k : Fin 1024) (s s2 : State)
    (q : execSlotDue h k s = .next s2) : s2.vault = s.vault := by
  cases Host.Outcome.next.inj q; simp

theorem execSlotOffsetExpire_vault (h : HalfId) (k : Fin 1024) (s s2 : State)
    (q : execSlotOffsetExpire h k s = .next s2) : s2.vault = s.vault := by
  cases Host.Outcome.next.inj q; simp

theorem execSlotWidthExpire_vault (h : HalfId) (k : Fin 1024) (s s2 : State)
    (q : execSlotWidthExpire h k s = .next s2) : s2.vault = s.vault := by
  cases Host.Outcome.next.inj q; simp

theorem execDrvSourceGapEnd_vault (h : HalfId) (p : Fin 24) (s s2 : State)
    (q : execDrvSourceGapEnd h p s = .next s2) : s2.vault = s.vault := by
  cases Host.Outcome.next.inj q; simp

theorem execDrvBlankEnd_vault (h : HalfId) (p : PairLevels) (s s2 : State)
    (q : execDrvBlankEnd h p s = .next s2) : s2.vault = s.vault := by
  cases Host.Outcome.next.inj q; simp

theorem execDrvHiLatch_vault (h : HalfId) (p : Fin 24) (dt : Nat) (s s2 : State)
    (q : execDrvHiLatch h p dt s = .next s2) : s2.vault = s.vault := by
  cases Host.Outcome.next.inj q; simp

theorem execDrvLoLatch_vault (h : HalfId) (p : Fin 24) (dt : Nat) (s s2 : State)
    (q : execDrvLoLatch h p dt s = .next s2) : s2.vault = s.vault := by
  cases Host.Outcome.next.inj q; simp

theorem execDrvChop_vault (h : HalfId) (p : Fin 24) (aboveHi : Bool) (aboveLo : Bool) (s s2 : State)
    (q : execDrvChop h p aboveHi aboveLo s = .next s2) : s2.vault = s.vault := by
  cases Host.Outcome.next.inj q; simp

theorem execDrvPhaseTimeout_vault (h : HalfId) (p : Fin 24) (aboveLo : Bool) (s s2 : State)
    (q : execDrvPhaseTimeout h p aboveLo s = .next s2) : s2.vault = s.vault := by
  cases Host.Outcome.next.inj q; simp

theorem execDrvOvercurrent_vault (h : HalfId) (p : Fin 24) (s s2 : State)
    (q : execDrvOvercurrent h p s = .next s2) : s2.vault = s.vault := by
  cases Host.Outcome.next.inj q; simp

theorem execDrvStuckOn_vault (h : HalfId) (p : Fin 24) (s s2 : State)
    (q : execDrvStuckOn h p s = .next s2) : s2.vault = s.vault := by
  cases Host.Outcome.next.inj q; simp

theorem execOutPinFlag_vault (h : HalfId) (m : Fin 48) (flag : PinFlag) (s s2 : State)
    (q : execOutPinFlag h m flag s = .next s2) : s2.vault = s.vault := by
  cases Host.Outcome.next.inj q; simp

theorem execFloodgateInputLow_vault (w : FgIn) (dt : Nat) (s s2 : State)
    (q : execFloodgateInputLow w dt s = .next s2) : s2.vault = s.vault := by
  cases Host.Outcome.next.inj q; simp

theorem execFgDisagree_vault (h : HalfId) (s s2 : State)
    (q : execFgDisagree h s = .next s2) : s2.vault = s.vault := by
  unfold execFgDisagree at q
  split at q <;> (cases q; first | rfl | simp)

theorem execPsfAssert_vault (h : HalfId) (b : Fin 4) (s s2 : State)
    (q : execPsfAssert h b s = .next s2) : s2.vault = s.vault := by
  cases Host.Outcome.next.inj q; simp

theorem execLevelAssert_vault (src : Fin 4096) (s s2 : State)
    (q : execLevelAssert src s = .next s2) : s2.vault = s.vault := by
  cases Host.Outcome.next.inj q; simp

theorem execLevelDeassert_vault (src : Fin 4096) (s s2 : State)
    (q : execLevelDeassert src s = .next s2) : s2.vault = s.vault := by
  cases Host.Outcome.next.inj q; simp

theorem execWeirStatusQuery_vault (src : Fin 4096) (s s2 : State)
    (q : execWeirStatusQuery src s = .next s2) : s2.vault = s.vault := by
  unfold execWeirStatusQuery at q
  simp only [] at q
  repeat' split at q
  all_goals (cases q; first | rfl | (simp; done) | (split <;> first | rfl | (simp; done)))

theorem execWeirAcknowledge_vault (src : Fin 4096) (s s2 : State)
    (q : execWeirAcknowledge src s = .next s2) : s2.vault = s.vault := by
  cases Host.Outcome.next.inj q; simp

theorem execWeirDoorbell_vault (src : Fin 4096) (payload : Word) (s s2 : State)
    (q : execWeirDoorbell src payload s = .next s2) : s2.vault = s.vault := by
  unfold execWeirDoorbell at q
  split at q <;> (cases q; first | rfl | simp)

theorem execAngleClockTrigger_vault (h : HalfId) (s s2 : State)
    (q : execAngleClockTrigger h s = .next s2) : s2.vault = s.vault := by
  cases Host.Outcome.next.inj q; simp

theorem execAcqTimerExpire_vault (h : HalfId) (n : Fin 4) (s s2 : State)
    (q : execAcqTimerExpire h n s = .next s2) : s2.vault = s.vault := by
  cases Host.Outcome.next.inj q; simp

theorem execCrossing_vault (h : HalfId) (g : Fin 12) (rising : Bool) (dt : Nat) (s s2 : State)
    (q : execCrossing h g rising dt s = .next s2) : s2.vault = s.vault := by
  cases Host.Outcome.next.inj q; simp

theorem execTriggerDelayExpire_vault (h : HalfId) (t : Fin 32) (s s2 : State)
    (q : execTriggerDelayExpire h t s = .next s2) : s2.vault = s.vault := by
  cases Host.Outcome.next.inj q; simp

theorem execSequenceEnd_vault (h : HalfId) (q : Fin 9) (s s2 : State)
    (q : execSequenceEnd h q s = .next s2) : s2.vault = s.vault := by
  cases Host.Outcome.next.inj q; simp

theorem execConversionRecordWrite_vault (h : HalfId) (q : Fin 9) (v : ConvIn) (s s2 : State)
    (q : execConversionRecordWrite h q v s = .next s2) : s2.vault = s.vault := by
  unfold execConversionRecordWrite at q
  simp only [] at q
  repeat' split at q
  all_goals (cases q; first | rfl | (simp; done) | (split <;> first | rfl | (simp; done)))

theorem execResultsComplete_vault (h : HalfId) (j : Fin 12) (stage : Stage) (s s2 : State)
    (q : execResultsComplete h j stage s = .next s2) : s2.vault = s.vault := by
  unfold execResultsComplete at q
  split at q
  · cases q; rfl
  · split at q
    · cases q; exact State.fileStage_vault ..
    · simp only [] at q
      split at q <;> cases q
      · exact (State.fileStage_vault ..).trans (State.act_vault ..)
      · exact State.act_vault ..

theorem execRefOkSet_vault (h : HalfId) (r : RefId) (mv : Nat) (s s2 : State)
    (q : execRefOkSet h r mv s = .next s2) : s2.vault = s.vault := by
  cases Host.Outcome.next.inj q; simp

theorem execRefOkClear_vault (h : HalfId) (r : RefId) (mv : Nat) (s s2 : State)
    (q : execRefOkClear h r mv s = .next s2) : s2.vault = s.vault := by
  cases Host.Outcome.next.inj q; simp

theorem execCalStepStart_vault (h : HalfId) (g : Grp) (s s2 : State)
    (q : execCalStepStart h g s = .next s2) : s2.vault = s.vault := by
  cases Host.Outcome.next.inj q; simp

theorem execCalTakeover_vault (h : HalfId) (g : Grp) (s s2 : State)
    (q : execCalTakeover h g s = .next s2) : s2.vault = s.vault := by
  cases Host.Outcome.next.inj q; simp

theorem execCalStepLate_vault (h : HalfId) (g : Grp) (s s2 : State)
    (q : execCalStepLate h g s = .next s2) : s2.vault = s.vault := by
  cases Host.Outcome.next.inj q; simp

theorem execSliceCalDone_vault (h : HalfId) (g : Grp) (ofsPpm : Int) (gainPpm : Int) (s s2 : State)
    (q : execSliceCalDone h g ofsPpm gainPpm s = .next s2) : s2.vault = s.vault := by
  cases Host.Outcome.next.inj q; simp

theorem execCalHandback_vault (h : HalfId) (g : Grp) (s s2 : State)
    (q : execCalHandback h g s = .next s2) : s2.vault = s.vault := by
  cases Host.Outcome.next.inj q; simp

theorem execTdacVerdict_vault (h : HalfId) (m : TdacMeas) (s s2 : State)
    (q : execTdacVerdict h m s = .next s2) : s2.vault = s.vault := by
  cases Host.Outcome.next.inj q; simp

theorem execJump_vault (h : HalfId) (e : Fin 8) (edges : List SlEdge) (s s2 : State)
    (q : execJump h e edges s = .next s2) : s2.vault = s.vault := by
  cases Host.Outcome.next.inj q; simp

theorem execWait_vault (h : HalfId) (e : Fin 8) (edges : List SlEdge) (s s2 : State)
    (q : execWait h e edges s = .next s2) : s2.vault = s.vault := by
  cases Host.Outcome.next.inj q; simp

theorem execShift_vault (h : HalfId) (e : Fin 8) (edges : List SlEdge) (s s2 : State)
    (q : execShift h e edges s = .next s2) : s2.vault = s.vault := by
  cases Host.Outcome.next.inj q; simp

theorem execStampArm_vault (h : HalfId) (e : Fin 8) (s s2 : State)
    (q : execStampArm h e s = .next s2) : s2.vault = s.vault := by
  cases Host.Outcome.next.inj q; simp

theorem execStampMeasure_vault (h : HalfId) (e : Fin 8) (s s2 : State)
    (q : execStampMeasure h e s = .next s2) : s2.vault = s.vault := by
  cases Host.Outcome.next.inj q; simp

theorem execStampTimeout_vault (h : HalfId) (e : Fin 8) (s s2 : State)
    (q : execStampTimeout h e s = .next s2) : s2.vault = s.vault := by
  cases Host.Outcome.next.inj q; simp

theorem execStallRelease_vault (h : HalfId) (e : Fin 8) (edges : List SlEdge) (s s2 : State)
    (q : execStallRelease h e edges s = .next s2) : s2.vault = s.vault := by
  cases Host.Outcome.next.inj q; simp

theorem execWpinEdgeLatch_vault (h : HalfId) (e : Fin 8) (edges : List SlEdge) (dt : Nat) (s s2 : State)
    (q : execWpinEdgeLatch h e edges dt s = .next s2) : s2.vault = s.vault := by
  cases Host.Outcome.next.inj q; simp

theorem execQueueFill_vault (h : HalfId) (e : Fin 8) (s s2 : State)
    (q : execQueueFill h e s = .next s2) : s2.vault = s.vault := by
  cases Host.Outcome.next.inj q; simp

theorem execQueueStore_vault (h : HalfId) (e : Fin 8) (s s2 : State)
    (q : execQueueStore h e s = .next s2) : s2.vault = s.vault := by
  cases Host.Outcome.next.inj q; simp

theorem execQueueStoreC0_vault (h : HalfId) (e : Fin 8) (s s2 : State)
    (q : execQueueStoreC0 h e s = .next s2) : s2.vault = s.vault := by
  cases Host.Outcome.next.inj q; simp

theorem execQueueTakeC0_vault (h : HalfId) (e : Fin 8) (s s2 : State)
    (q : execQueueTakeC0 h e s = .next s2) : s2.vault = s.vault := by
  cases Host.Outcome.next.inj q; simp

theorem execQueueTakeC1_vault (h : HalfId) (e : Fin 8) (s s2 : State)
    (q : execQueueTakeC1 h e s = .next s2) : s2.vault = s.vault := by
  cases Host.Outcome.next.inj q; simp

theorem execPinsLevel_vault (h : HalfId) (e : Fin 8) (s s2 : State)
    (q : execPinsLevel h e s = .next s2) : s2.vault = s.vault := by
  cases Host.Outcome.next.inj q; simp

theorem execPinsDirection_vault (h : HalfId) (e : Fin 8) (s s2 : State)
    (q : execPinsDirection h e s = .next s2) : s2.vault = s.vault := by
  cases Host.Outcome.next.inj q; simp

theorem execLoad_vault (h : HalfId) (e : Fin 8) (edges : List SlEdge) (s s2 : State)
    (q : execLoad h e edges s = .next s2) : s2.vault = s.vault := by
  cases Host.Outcome.next.inj q; simp

theorem execCountAddC0_vault (h : HalfId) (e : Fin 8) (s s2 : State)
    (q : execCountAddC0 h e s = .next s2) : s2.vault = s.vault := by
  cases Host.Outcome.next.inj q; simp

theorem execCountSubC0_vault (h : HalfId) (e : Fin 8) (s s2 : State)
    (q : execCountSubC0 h e s = .next s2) : s2.vault = s.vault := by
  cases Host.Outcome.next.inj q; simp

theorem execCountAddC1_vault (h : HalfId) (e : Fin 8) (s s2 : State)
    (q : execCountAddC1 h e s = .next s2) : s2.vault = s.vault := by
  cases Host.Outcome.next.inj q; simp

theorem execCountSubC1_vault (h : HalfId) (e : Fin 8) (s s2 : State)
    (q : execCountSubC1 h e s = .next s2) : s2.vault = s.vault := by
  cases Host.Outcome.next.inj q; simp

theorem execCountC0MinusC1_vault (h : HalfId) (e : Fin 8) (s s2 : State)
    (q : execCountC0MinusC1 h e s = .next s2) : s2.vault = s.vault := by
  cases Host.Outcome.next.inj q; simp

theorem execCountC0PlusC1_vault (h : HalfId) (e : Fin 8) (s s2 : State)
    (q : execCountC0PlusC1 h e s = .next s2) : s2.vault = s.vault := by
  cases Host.Outcome.next.inj q; simp

theorem execCountShiftC0_vault (h : HalfId) (e : Fin 8) (s s2 : State)
    (q : execCountShiftC0 h e s = .next s2) : s2.vault = s.vault := by
  cases Host.Outcome.next.inj q; simp

theorem execCountAndC0_vault (h : HalfId) (e : Fin 8) (s s2 : State)
    (q : execCountAndC0 h e s = .next s2) : s2.vault = s.vault := by
  cases Host.Outcome.next.inj q; simp

theorem execSignalSetFlag_vault (h : HalfId) (e : Fin 8) (s s2 : State)
    (q : execSignalSetFlag h e s = .next s2) : s2.vault = s.vault := by
  cases Host.Outcome.next.inj q; simp

theorem execSignalClearFlag_vault (h : HalfId) (e : Fin 8) (s s2 : State)
    (q : execSignalClearFlag h e s = .next s2) : s2.vault = s.vault := by
  cases Host.Outcome.next.inj q; simp

theorem execSignalWeir_vault (h : HalfId) (e : Fin 8) (s s2 : State)
    (q : execSignalWeir h e s = .next s2) : s2.vault = s.vault := by
  cases Host.Outcome.next.inj q; simp

theorem execProgramSwap_vault (h : HalfId) (g : Fin 2) (s s2 : State)
    (q : execProgramSwap h g s = .next s2) : s2.vault = s.vault := by
  cases Host.Outcome.next.inj q; simp

theorem execForcedSwap_vault (h : HalfId) (g : Fin 2) (s s2 : State)
    (q : execForcedSwap h g s = .next s2) : s2.vault = s.vault := by
  cases Host.Outcome.next.inj q; simp

theorem execStop_vault (m : Msg) (s s2 : State)
    (q : execStop m s = .next s2) : s2.vault = s.vault := by
  cases Host.Outcome.next.inj q; simp

theorem execFloodgateRelease_vault (m : Msg) (s s2 : State)
    (q : execFloodgateRelease m s = .next s2) : s2.vault = s.vault := by
  cases Host.Outcome.next.inj q; simp

theorem execSetDirection_vault (m : Msg) (s s2 : State)
    (q : execSetDirection m s = .next s2) : s2.vault = s.vault := by
  cases Host.Outcome.next.inj q; simp

theorem execFgStatus_vault (m : Msg) (s s2 : State)
    (q : execFgStatus m s = .next s2) : s2.vault = s.vault := by
  cases Host.Outcome.next.inj q; simp

theorem execSetpoint_vault (m : Msg) (s s2 : State)
    (q : execSetpoint m s = .next s2) : s2.vault = s.vault := by
  unfold execSetpoint at q
  simp only [] at q
  repeat' split at q
  all_goals (cases q; first | rfl | (simp; done) | (split <;> first | rfl | (simp; done)))

theorem execCanBackupFrame_vault (port : Fin 2) (ident : BitVec 11) (data : List Byte) (s s2 : State)
    (q : execCanBackupFrame port ident data s = .next s2) : s2.vault = s.vault := by
  cases Host.Outcome.next.inj q; simp

theorem execCanStatusFrame_vault (s s2 : State)
    (q : execCanStatusFrame s = .next s2) : s2.vault = s.vault := by
  unfold execCanStatusFrame at q
  split at q <;> (cases q; first | rfl | exact (State.statSend_vault _).trans (State.advanceTo_vault ..))

theorem execImageBegin_vault (m : Msg) (s s2 : State)
    (q : execImageBegin m s = .next s2) : s2.vault = s.vault := by
  cases Host.Outcome.next.inj q; simp

theorem execImageChunk_vault (m : Msg) (s s2 : State)
    (q : execImageChunk m s = .next s2) : s2.vault = s.vault := by
  cases Host.Outcome.next.inj q; simp

theorem execConfigCommit_vault (m : Msg) (s s2 : State)
    (q : execConfigCommit m s = .next s2) : s2.vault = s.vault := by
  unfold execConfigCommit at q
  split at q <;> (cases q; first | rfl | simp)

theorem execConfigDryRun_vault (m : Msg) (s s2 : State)
    (q : execConfigDryRun m s = .next s2) : s2.vault = s.vault := by
  unfold execConfigDryRun at q
  split at q <;> (cases q; first | rfl | simp)

theorem execConfigFlashWriteDone_vault (ok : Bool) (s s2 : State)
    (q : execConfigFlashWriteDone ok s = .next s2) : s2.vault = s.vault := by
  unfold execConfigFlashWriteDone at q
  split at q
  · cases q; rfl
  · split at q
    · cases q; rfl
    · cases q
      cases ok
      · simp
      · refine (State.finish_vault ..).trans ?_
        exact (State.flashMap_vault (Flash.putImage _) _ rfl rfl rfl).trans (State.cfgMap_vault ..)

theorem execImageAbort_vault (m : Msg) (s s2 : State)
    (q : execImageAbort m s = .next s2) : s2.vault = s.vault := by
  cases Host.Outcome.next.inj q; simp

theorem execConfigRead_vault (m : Msg) (s s2 : State)
    (q : execConfigRead m s = .next s2) : s2.vault = s.vault := by
  cases Host.Outcome.next.inj q; simp

theorem execConfigInfo_vault (m : Msg) (s s2 : State)
    (q : execConfigInfo m s = .next s2) : s2.vault = s.vault := by
  cases Host.Outcome.next.inj q; simp

theorem execLinkSet_vault (m : Msg) (s s2 : State)
    (q : execLinkSet m s = .next s2) : s2.vault = s.vault := by
  cases Host.Outcome.next.inj q; simp

theorem execSlotArm_vault (m : Msg) (s s2 : State)
    (q : execSlotArm m s = .next s2) : s2.vault = s.vault := by
  cases Host.Outcome.next.inj q; simp

theorem execSlotWrite_vault (m : Msg) (s s2 : State)
    (q : execSlotWrite m s = .next s2) : s2.vault = s.vault := by
  cases Host.Outcome.next.inj q; simp

theorem execSlotFree_vault (m : Msg) (s s2 : State)
    (q : execSlotFree m s = .next s2) : s2.vault = s.vault := by
  cases Host.Outcome.next.inj q; simp

theorem execSlotRead_vault (m : Msg) (s s2 : State)
    (q : execSlotRead m s = .next s2) : s2.vault = s.vault := by
  cases Host.Outcome.next.inj q; simp

theorem execProfileWrite_vault (m : Msg) (s s2 : State)
    (q : execProfileWrite m s = .next s2) : s2.vault = s.vault := by
  cases Host.Outcome.next.inj q; simp

theorem execProfileCopy_vault (h : HalfId) (i : Fin 32) (s s2 : State)
    (q : execProfileCopy h i s = .next s2) : s2.vault = s.vault := by
  cases Host.Outcome.next.inj q; simp

theorem execProfileRead_vault (m : Msg) (s s2 : State)
    (q : execProfileRead m s = .next s2) : s2.vault = s.vault := by
  cases Host.Outcome.next.inj q; simp

theorem execTrackerSet_vault (m : Msg) (s s2 : State)
    (q : execTrackerSet m s = .next s2) : s2.vault = s.vault := by
  cases Host.Outcome.next.inj q; simp

theorem execTwistSet_vault (m : Msg) (s s2 : State)
    (q : execTwistSet m s = .next s2) : s2.vault = s.vault := by
  cases Host.Outcome.next.inj q; simp

theorem execAcqSetMask_vault (m : Msg) (s s2 : State)
    (q : execAcqSetMask m s = .next s2) : s2.vault = s.vault := by
  unfold execAcqSetMask at q
  split at q <;> (cases q; first | rfl | simp)

theorem execAcqMaskApply_vault (h : HalfId) (q : Fin 9) (s s2 : State)
    (q : execAcqMaskApply h q s = .next s2) : s2.vault = s.vault := by
  cases Host.Outcome.next.inj q; simp

theorem execAcqSetDelay_vault (m : Msg) (s s2 : State)
    (q : execAcqSetDelay m s = .next s2) : s2.vault = s.vault := by
  unfold execAcqSetDelay at q
  split at q <;> (cases q; first | rfl | simp)

theorem execAcqSetStep_vault (m : Msg) (s s2 : State)
    (q : execAcqSetStep m s = .next s2) : s2.vault = s.vault := by
  unfold execAcqSetStep at q
  split at q <;> (cases q; first | rfl | simp)

theorem execAcqSetPeriod_vault (m : Msg) (s s2 : State)
    (q : execAcqSetPeriod m s = .next s2) : s2.vault = s.vault := by
  unfold execAcqSetPeriod at q
  split at q <;> (cases q; first | rfl | simp)

theorem execClSet_vault (m : Msg) (s s2 : State)
    (q : execClSet m s = .next s2) : s2.vault = s.vault := by
  cases Host.Outcome.next.inj q; simp

theorem execProgLoad_vault (m : Msg) (s s2 : State)
    (q : execProgLoad m s = .next s2) : s2.vault = s.vault := by
  cases Host.Outcome.next.inj q; simp

theorem execSluiceStart_vault (m : Msg) (s s2 : State)
    (q : execSluiceStart m s = .next s2) : s2.vault = s.vault := by
  unfold execSluiceStart at q
  repeat' split at q
  all_goals cases q; first | rfl | simp

theorem execSluiceHalt_vault (m : Msg) (s s2 : State)
    (q : execSluiceHalt m s = .next s2) : s2.vault = s.vault := by
  unfold execSluiceHalt at q
  split at q <;> (cases q; first | rfl | simp)

theorem execSluiceClockRestart_vault (m : Msg) (s s2 : State)
    (q : execSluiceClockRestart m s = .next s2) : s2.vault = s.vault := by
  unfold execSluiceClockRestart at q
  split at q <;> (cases q; first | rfl | simp)

theorem execSluiceXfer_vault (m : Msg) (s s2 : State)
    (q : execSluiceXfer m s = .next s2) : s2.vault = s.vault := by
  cases Host.Outcome.next.inj q; simp

theorem execPinClaim_vault (m : Msg) (s s2 : State)
    (q : execPinClaim m s = .next s2) : s2.vault = s.vault := by
  cases Host.Outcome.next.inj q; simp

theorem execPinRelease_vault (m : Msg) (s s2 : State)
    (q : execPinRelease m s = .next s2) : s2.vault = s.vault := by
  cases Host.Outcome.next.inj q; simp

theorem execGpioSet_vault (m : Msg) (s s2 : State)
    (q : execGpioSet m s = .next s2) : s2.vault = s.vault := by
  cases Host.Outcome.next.inj q; simp

theorem execWheelDiag_vault (m : Msg) (s s2 : State)
    (q : execWheelDiag m s = .next s2) : s2.vault = s.vault := by
  cases Host.Outcome.next.inj q; simp

theorem execStatusRead_vault (m : Msg) (s s2 : State)
    (q : execStatusRead m s = .next s2) : s2.vault = s.vault := by
  cases Host.Outcome.next.inj q; simp

theorem execFaultRead_vault (m : Msg) (s s2 : State)
    (q : execFaultRead m s = .next s2) : s2.vault = s.vault := by
  cases Host.Outcome.next.inj q; simp

theorem execCalAlign_vault (m : Msg) (s s2 : State)
    (q : execCalAlign m s = .next s2) : s2.vault = s.vault := by
  cases Host.Outcome.next.inj q; simp

theorem execCalTwist_vault (m : Msg) (s s2 : State)
    (q : execCalTwist m s = .next s2) : s2.vault = s.vault := by
  cases Host.Outcome.next.inj q; simp

theorem execCalApply_vault (m : Msg) (s s2 : State)
    (q : execCalApply m s = .next s2) : s2.vault = s.vault := by
  cases Host.Outcome.next.inj q; simp

theorem execCalAbort_vault (m : Msg) (s s2 : State)
    (q : execCalAbort m s = .next s2) : s2.vault = s.vault := by
  cases Host.Outcome.next.inj q; simp

theorem execSessionOpen_vault (m : Msg) (s s2 : State)
    (q : execSessionOpen m s = .next s2) : s2.vault = s.vault := by
  unfold execSessionOpen at q
  split at q <;> (cases q; first | rfl | simp)

theorem execSessionClose_vault (m : Msg) (s s2 : State)
    (q : execSessionClose m s = .next s2) : s2.vault = s.vault := by
  unfold execSessionClose at q
  split at q <;> (cases q; first | rfl | simp)

theorem execSessionTimeout_vault (h : HalfId) (s s2 : State)
    (q : execSessionTimeout h s = .next s2) : s2.vault = s.vault := by
  cases Host.Outcome.next.inj q; simp

theorem execSliceCal_vault (m : Msg) (s s2 : State)
    (q : execSliceCal m s = .next s2) : s2.vault = s.vault := by
  cases Host.Outcome.next.inj q; simp

theorem execTdacOpenShort_vault (m : Msg) (s s2 : State)
    (q : execTdacOpenShort m s = .next s2) : s2.vault = s.vault := by
  unfold execTdacOpenShort at q
  split at q <;> (cases q; first | rfl | simp)

theorem execTdacGain_vault (m : Msg) (s s2 : State)
    (q : execTdacGain m s = .next s2) : s2.vault = s.vault := by
  unfold execTdacGain at q
  split at q <;> (cases q; first | rfl | simp)

theorem execTdacManual_vault (m : Msg) (s s2 : State)
    (q : execTdacManual m s = .next s2) : s2.vault = s.vault := by
  unfold execTdacManual at q
  split at q <;> (cases q; first | rfl | simp)

theorem execTdacStop_vault (m : Msg) (s s2 : State)
    (q : execTdacStop m s = .next s2) : s2.vault = s.vault := by
  cases Host.Outcome.next.inj q; simp

theorem execSensorRead_vault (m : Msg) (s s2 : State)
    (q : execSensorRead m s = .next s2) : s2.vault = s.vault := by
  cases Host.Outcome.next.inj q; simp

theorem execTelemSet_vault (m : Msg) (s s2 : State)
    (q : execTelemSet m s = .next s2) : s2.vault = s.vault := by
  cases Host.Outcome.next.inj q; simp

theorem execTarnInfo_vault (m : Msg) (s s2 : State)
    (q : execTarnInfo m s = .next s2) : s2.vault = s.vault := by
  cases Host.Outcome.next.inj q; simp

theorem execRecordRead_vault (m : Msg) (s s2 : State)
    (q : execRecordRead m s = .next s2) : s2.vault = s.vault := by
  cases Host.Outcome.next.inj q; simp

theorem execTraceRead_vault (m : Msg) (s s2 : State)
    (q : execTraceRead m s = .next s2) : s2.vault = s.vault := by
  cases Host.Outcome.next.inj q; simp

theorem execToothlogRead_vault (m : Msg) (s s2 : State)
    (q : execToothlogRead m s = .next s2) : s2.vault = s.vault := by
  cases Host.Outcome.next.inj q; simp

theorem execAttest_vault (m : Msg) (s s2 : State)
    (q : execAttest m s = .next s2) : s2.vault = s.vault := by
  cases Host.Outcome.next.inj q; simp

theorem execIdentity_vault (m : Msg) (s s2 : State)
    (q : execIdentity m s = .next s2) : s2.vault = s.vault := by
  cases Host.Outcome.next.inj q; simp

theorem execChallenge_vault (m : Msg) (s s2 : State)
    (q : execChallenge m s = .next s2) : s2.vault = s.vault := by
  cases Host.Outcome.next.inj q; simp

theorem execJtagUnlock_vault (m : Msg) (s s2 : State)
    (q : execJtagUnlock m s = .next s2) : s2.vault = s.vault := by
  cases Host.Outcome.next.inj q; simp

theorem execJtagClose_vault (s s2 : State)
    (q : execJtagClose s = .next s2) : s2.vault = s.vault := by
  unfold execJtagClose at q
  split at q <;> (cases q; first | rfl | simp)

theorem execSleepNotice_vault (m : Msg) (s s2 : State)
    (q : execSleepNotice m s = .next s2) : s2.vault = s.vault := by
  cases Host.Outcome.next.inj q; simp

theorem execLinkReset_vault (m : Msg) (s s2 : State)
    (q : execLinkReset m s = .next s2) : s2.vault = s.vault := by
  cases Host.Outcome.next.inj q; simp

theorem execReset_vault (m : Msg) (s s2 : State)
    (q : execReset m s = .next s2) : s2.vault = s.vault := by
  cases Host.Outcome.next.inj q; simp

theorem execLogRead_vault (m : Msg) (s s2 : State)
    (q : execLogRead m s = .next s2) : s2.vault = s.vault := by
  cases Host.Outcome.next.inj q; simp

theorem execManagementRead_vault (port : Fin 2) (bytes : List Byte) (s s2 : State)
    (q : execManagementRead port bytes s = .next s2) : s2.vault = s.vault := by
  cases Host.Outcome.next.inj q; simp

theorem execManagementWrite_vault (port : Fin 2) (bytes : List Byte) (s s2 : State)
    (q : execManagementWrite port bytes s = .next s2) : s2.vault = s.vault := by
  cases Host.Outcome.next.inj q; simp

theorem execCqHeadWrite_vault (v : BitVec 16) (s s2 : State)
    (q : execCqHeadWrite v s = .next s2) : s2.vault = s.vault := by
  cases Host.Outcome.next.inj q; simp

theorem execPtpSync_vault (ofsNs : Int) (s s2 : State)
    (q : execPtpSync ofsNs s = .next s2) : s2.vault = s.vault := by
  cases Host.Outcome.next.inj q; simp

theorem execPtpSyncTimeout_vault (s s2 : State)
    (q : execPtpSyncTimeout s = .next s2) : s2.vault = s.vault := by
  unfold execPtpSyncTimeout at q
  repeat' split at q
  all_goals cases q; first | rfl | simp

theorem execPpsPulse_vault (ofsNs : Int) (s s2 : State)
    (q : execPpsPulse ofsNs s = .next s2) : s2.vault = s.vault := by
  unfold execPpsPulse at q
  split at q <;> (cases q; first | rfl | simp)

theorem execTimeMapWrite_vault (sec : Nat) (ns : Nat) (s s2 : State)
    (q : execTimeMapWrite sec ns s = .next s2) : s2.vault = s.vault := by
  unfold execTimeMapWrite at q
  split at q <;> (cases q; first | rfl | simp)

theorem execTcxoFail_vault (s s2 : State)
    (q : execTcxoFail s = .next s2) : s2.vault = s.vault := by
  unfold execTcxoFail at q
  split at q <;> (cases q; first | rfl | simp)

theorem execShedEnter_vault (dV : Nat) (s s2 : State)
    (q : execShedEnter dV s = .next s2) : s2.vault = s.vault := by
  cases Host.Outcome.next.inj q; simp

theorem execShedLeave_vault (dV : Nat) (s s2 : State)
    (q : execShedLeave dV s = .next s2) : s2.vault = s.vault := by
  cases Host.Outcome.next.inj q; simp

theorem execSupplyRestartStep_vault (s s2 : State)
    (q : execSupplyRestartStep s = .next s2) : s2.vault = s.vault := by
  unfold execSupplyRestartStep at q
  repeat' split at q
  all_goals cases q; first | rfl | simp

theorem execScrubDeferExpire_vault (s s2 : State)
    (q : execScrubDeferExpire s = .next s2) : s2.vault = s.vault := by
  unfold execScrubDeferExpire at q
  repeat' split at q
  all_goals cases q; first | rfl | simp

theorem execPowerOver_vault (s s2 : State)
    (q : execPowerOver s = .next s2) : s2.vault = s.vault := by
  unfold execPowerOver at q
  repeat' split at q
  all_goals cases q; first | rfl | simp

theorem execSsSupplyTrip_vault (n : Fin 24) (s s2 : State)
    (q : execSsSupplyTrip n s = .next s2) : s2.vault = s.vault := by
  unfold execSsSupplyTrip at q
  split at q <;> (cases q; first | rfl | simp)

theorem execSsSupplyRetry_vault (n : Fin 24) (s s2 : State)
    (q : execSsSupplyRetry n s = .next s2) : s2.vault = s.vault := by
  unfold execSsSupplyRetry at q
  simp only [] at q
  repeat' split at q
  all_goals (cases q; first | rfl | (simp; done) | (split <;> first | rfl | (simp; done)))

theorem execSupplyApply_vault (dV : Nat) (key : Bool) (s s2 : State)
    (q : execSupplyApply dV key s = .next s2) : s2.vault = s.vault := by
  cases Host.Outcome.next.inj q; simp

theorem execKeyHigh_vault (dV : Nat) (s s2 : State)
    (q : execKeyHigh dV s = .next s2) : s2.vault = s.vault.clock s2.hub.frame s2.hub.tick := by
  cases Host.Outcome.next.inj q
  split
  · exact clock_of (State.bootMap_vault ..) rfl
  · split
    · exact clock_of (State.bootMap_vault ..) rfl
    · refine clock_of (State.bootMap_vault _ _) ?_
      rw [State.allReset_vault, State.bootMap_vault]

theorem execBootStageAdvance_vault (s s2 : State)
    (q : execBootStageAdvance s = .next s2) : s2.vault = s.vault := by
  cases Host.Outcome.next.inj q; simp

theorem execKeyLow_vault (s s2 : State)
    (q : execKeyLow s = .next s2) : s2.vault = s.vault := by
  cases Host.Outcome.next.inj q; rfl

theorem execShutdown_vault  (s s2 : State)
    (q : execShutdown s = .next s2) : s2.vault = s.vault.clock s2.hub.frame s2.hub.tick := by
  unfold execShutdown at q
  split at q
  · cases q; rfl
  · split at q
    · cases q; rfl
    · cases q
      rw [State.down_vault, State.log_vault, State.flashEnds_vault, State.advanceTo_vault]

theorem execUndervoltageShutdown_vault  (s s2 : State)
    (q : execUndervoltageShutdown s = .next s2) : s2.vault = s.vault.clock s2.hub.frame s2.hub.tick := by
  cases Host.Outcome.next.inj q
  split
  · rfl
  · rw [State.down_vault, State.log_vault]

theorem execWatchdogExpire_vault (core : Core) (s s2 : State)
    (q : execWatchdogExpire core s = .next s2) : s2.vault = s.vault.clock s2.hub.frame s2.hub.tick := by
  cases Host.Outcome.next.inj q
  cases core <;> simp only []
  · split
    · exact State.watchdog_vault _ _ _ (fun t => State.hubReset_vault 7 t)
    · rfl
  · split
    · exact State.watchdog_vault _ _ _ (fun t => State.hubReset_vault 7 t)
    · rfl
  · split
    · exact State.watchdog_vault _ _ _ (fun t => clock_of (State.halfReset_vault ..) rfl)
    · rfl
  · split
    · exact State.watchdog_vault _ _ _ (fun t => clock_of (State.halfReset_vault ..) rfl)
    · rfl

theorem execEccError_vault (area : EccArea) (corrected : Bool) (s s2 : State)
    (q : execEccError area corrected s = .next s2) : s2.vault = s.vault.clock s2.hub.frame s2.hub.tick := by
  cases Host.Outcome.next.inj q
  split
  · rfl
  · split
    · exact clock_of (State.eccRaise_vault ..) rfl
    · rw [State.eccLost_vault, State.eccRaise_vault]

theorem execRegisterWrite_vault (r : Reg) (v : Word) (s s2 : State)
    (q : execRegisterWrite r v s = .next s2) : s2.vault = s.vault := by
  cases Host.Outcome.next.inj q; simp

theorem execComparatorStateChange_vault (h : HalfId) (i : Inp) (tooth : Bool) (s s2 : State)
    (q : execComparatorStateChange h i tooth s = .next s2) : s2.vault = s.vault := by
  cases Host.Outcome.next.inj q; simp

theorem execFloodgateInputHigh_vault (w : FgIn) (dt : Nat) (s s2 : State)
    (q : execFloodgateInputHigh w dt s = .next s2) : s2.vault = s.vault := by
  cases Host.Outcome.next.inj q; simp

theorem execDrvBoostGapEnd_vault (h : HalfId) (p : Fin 24) (s s2 : State)
    (q : execDrvBoostGapEnd h p s = .next s2) : s2.vault = s.vault := by
  cases Host.Outcome.next.inj q; simp

theorem execDiscardedFrame_vault (t : Transport) (bytes : List Byte) (udpLen : Nat) (s s2 : State)
    (q : execDiscardedFrame t bytes udpLen s = .next s2) : s2.vault = s.vault := by
  cases Host.Outcome.next.inj q; simp

theorem execUnknownCommand_vault (mb : Byte) (cmd : BitVec 16) (m : Msg) (s s2 : State)
    (q : execUnknownCommand mb cmd m s = .next s2) : s2.vault = s.vault := by
  cases Host.Outcome.next.inj q; simp

theorem execRequestBufferWrite_vault (ofs : Nat) (data : List Byte) (s s2 : State)
    (q : execRequestBufferWrite ofs data s = .next s2) : s2.vault = s.vault := by
  cases Host.Outcome.next.inj q; simp

theorem execRegisterRead_vault (r : Reg) (s s2 : State)
    (q : execRegisterRead r s = .next s2) : s2.vault = s.vault := by
  cases Host.Outcome.next.inj q; simp

theorem execResetFollows_vault  (s s2 : State)
    (q : execResetFollows s = .next s2) : s2.vault = s.vault.clock s2.hub.frame s2.hub.tick := by
  unfold execResetFollows at q
  split at q
  · cases q; rfl
  · split at q
    · cases q; rfl
    · simp only [] at q
      split at q <;> cases q
      · rw [State.moduleReset_vault, State.bootMap_vault, State.advanceTo_vault]
      · exact clock_of ((State.halfReset_vault ..).trans ((State.bootMap_vault ..).trans (State.advanceTo_vault ..))) rfl
      · exact clock_of ((State.halfReset_vault ..).trans ((State.bootMap_vault ..).trans (State.advanceTo_vault ..))) rfl

theorem execJtagReset_vault  (s s2 : State)
    (q : execJtagReset s = .next s2) : s2.vault = s.vault.clock s2.hub.frame s2.hub.tick := by
  cases Host.Outcome.next.inj q
  split
  · exact State.moduleReset_vault 14 s
  · rfl

theorem execWheelDiagTimeout_vault (h : HalfId) (s s2 : State)
    (q : execWheelDiagTimeout h s = .next s2) : s2.vault = s.vault := by
  unfold execWheelDiagTimeout at q
  split at q <;> (cases q; first | rfl | simp)

end Sys2Proof.Machine
end

