-- ==== Sys2Proof/Laws/Requests.lean ====
section
/-! SUPPORT. What an accepted message does before its command is served, and what a completion does. -/

namespace Sys2Proof.Machine

open Sys2Proof Sys2Proof.Safety

/-- `t` is `s` but for the link, the Weir and the fault counting of the hub. -/
def LinkOnly (s t : State) : Prop := ∃ l w f, t = { s with hub := { s.hub with link := l, weir := w, flt := f } }

theorem LinkOnly.same (s : State) : LinkOnly s s := ⟨s.hub.link, s.hub.weir, s.hub.flt, rfl⟩

theorem LinkOnly.then_ {s t u : State} (h : LinkOnly s t) (k : LinkOnly t u) : LinkOnly s u := by
  obtain ⟨l, w, f, rfl⟩ := h
  obtain ⟨l2, w2, f2, rfl⟩ := k
  exact ⟨l2, w2, f2, rfl⟩

theorem LinkOnly.linkMap (f : HostLink → HostLink) (s : State) : LinkOnly s (s.linkMap f) := ⟨_, s.hub.weir, s.hub.flt, rfl⟩

/-- Everything but the link, the Weir and the fault counting is what it was. -/
theorem LinkOnly.keeps {s t : State} (h : LinkOnly s t) :
    t.a = s.a ∧ t.b = s.b ∧ t.now = s.now ∧ t.freeCtr = s.freeCtr ∧ t.kept = s.kept ∧ t.pending = s.pending ∧
      t.hub = { s.hub with link := t.hub.link, weir := t.hub.weir, flt := t.hub.flt } := by
  obtain ⟨l, w, f, rfl⟩ := h
  exact ⟨rfl, rfl, rfl, rfl, rfl, rfl, rfl⟩

theorem LinkOnly.notify (s : State) : LinkOnly s s.notify := by
  unfold State.notify State.datagram
  simp only []
  split
  · exact LinkOnly.linkMap _ _
  · exact (LinkOnly.linkMap _ _).then_ (LinkOnly.linkMap _ _)

theorem LinkOnly.wake (s : State) : LinkOnly s s.wake := by
  unfold State.wake
  split
  · exact .same s
  · simp only []
    split
    · exact .linkMap _ _
    · exact (LinkOnly.linkMap _ _).then_ (.notify _)

theorem LinkOnly.weir (src kind : Nat) (level : Bool) (payload : Word) (s : State) : LinkOnly s (s.weir src kind level payload) := by
  obtain ⟨w, f, h⟩ := Hub.weirWrite_is s.ts src kind level false s.hub.frame s.ts payload s.hub
  unfold State.weir State.hubMap
  exact ⟨s.hub.link, w, f, congrArg (fun u => { s with hub := u }) h⟩

theorem LinkOnly.raiseHub (c : Nat) (loc : Word) (s : State) : LinkOnly s (s.raiseHub c loc) := by
  obtain ⟨l, w, f, h⟩ := LinkOnly.weir (0x020 + c) 0 false loc s
  unfold State.raiseHub
  rw [h]
  exact ⟨l, w, _, rfl⟩

theorem LinkOnly.doorbell (mb : Fin 8) (s : State) : LinkOnly s (s.doorbell mb) := (LinkOnly.weir _ _ _ _ s).then_ (.linkMap _ _)

theorem LinkOnly.taken (mb : Fin 8) (cmd : Nat) (m : Msg) (s : State) : LinkOnly s (taken mb cmd m s) := by
  unfold Safety.taken
  exact (LinkOnly.linkMap _ _).then_ ((LinkOnly.wake _).then_ ((LinkOnly.doorbell mb _).then_ (.linkMap _ _)))

theorem LinkOnly.postEntry (mb cmd : Nat) (unsol wake : Bool) (seq : BitVec 16) (status : Nat) (frame : Word) (payload : List Byte)
    (s : State) : LinkOnly s (s.postEntry mb cmd unsol wake seq status frame payload) := by
  have hc : LinkOnly s s.coalesce := by
    unfold State.coalesce
    simp only []
    split
    · exact (LinkOnly.linkMap _ _).then_ (.raiseHub _ _ _)
    · exact .same s
  unfold State.postEntry
  extract_lets s1 s2
  have h1 : LinkOnly s s1 := by
    simp only [s1]
    split
    · exact .same s
    · exact hc
  have h2 : LinkOnly s s2 := h1.then_ (.linkMap _ _)
  split
  · exact h2.then_ (.notify _)
  · exact h2

theorem LinkOnly.postReq (r : HReq) (status : Nat) (payload : List Byte) (s : State) : LinkOnly s (s.postReq r status payload) := by
  unfold State.postReq
  extract_lets s1
  have h : LinkOnly s s1 := by
    simp only [s1]
    split
    · exact .same s
    · exact .postEntry ..
  split
  · exact h.then_ (.linkMap _ _)
  · exact h

theorem LinkOnly.postDone (mb n : Nat) (s : State) : LinkOnly s (s.postDone mb n) := by
  induction n generalizing s with
  | zero => exact .same s
  | succ n ih =>
    unfold State.postDone
    simp only []
    split
    · exact .same s
    · split
      · exact .same s
      · exact ((LinkOnly.linkMap _ _).then_ (.postReq ..)).then_ (ih _)

/-- A completion touches the link, the Weir and the fault counting of the hub alone. -/
theorem LinkOnly.finish (mb : Nat) (seq : BitVec 16) (status : Nat) (payload : List Byte) (s : State) :
    LinkOnly s (s.finish mb seq status payload) := (LinkOnly.linkMap _ _).then_ (.postDone mb 40 _)

/-- The service of a request that answers. -/
theorem LinkOnly.done (a : Ask) (status : Nat) (payload : List Byte) (s : State) : LinkOnly s (s.done a status payload) := .finish ..

theorem notify_reqs (s : State) : s.notify.hub.link.reqs = s.hub.link.reqs := by
  unfold State.notify State.datagram State.linkMap State.hubMap
  simp only []
  split <;> rfl

theorem wake_reqs (s : State) : s.wake.hub.link.reqs = s.hub.link.reqs := by
  unfold State.wake
  split
  · rfl
  · simp only []
    split
    · rfl
    · exact notify_reqs _

theorem weir_link (src kind : Nat) (level : Bool) (payload : Word) (s : State) : (s.weir src kind level payload).hub.link = s.hub.link := by
  obtain ⟨w, f, h⟩ := Hub.weirWrite_is s.ts src kind level false s.hub.frame s.ts payload s.hub
  show (Hub.weirWrite s.ts src kind level false s.hub.frame s.ts payload s.hub).link = _
  rw [h]

/-- An accepted message's command is served in the state `taken` with the request it carries. -/
theorem request_heard {mb : Fin 8} {cmd : Nat} {len : Ask → Nat} {m : Msg} {s : State} (h : Heard mb cmd len m s)
    (serve : Ask → State → State) : s.request mb cmd len serve m = serve (msgAsk mb.1 cmd m) (taken mb cmd m s) := by
  obtain ⟨hs, ho, ha, hst, hl, hr, hf⟩ := h
  unfold State.request State.hear
  have hm : misfit m = false := by
    unfold misfit
    simp [hl.2.1]
  simp only [hs, ho, hm, Bool.not_true, Bool.false_eq_true, if_false]
  have hal : s.aliveCheck mb cmd m = (s.linkMap (fun l => { l with alive := put1 l.alive mb (some m.alive) }), true) := by
    unfold State.aliveCheck
    simp only []
    rcases ha with ha | ha <;> rw [ha]
    have : (m.alive - (m.alive - 1)).toNat = 1 := by
      have e : m.alive - (m.alive - 1) = 1#16 := by bv_omega
      rw [e]
      rfl
    simp
  rw [hal]
  simp only [Bool.not_true, Bool.false_eq_true, if_false]
  let x : State := ((s.linkMap (fun l => { (l.from_ m) with
    alive := put1 l.alive mb (some m.alive)
    dups := (m.t, m.alive, crc32c (msgBytes mb.1 cmd m), s.now) :: l.dups.filter (fun d => s.now ≤ d.2.2.2 + etPerMs)
    okRun := if mb.1 = 1 then l.okRun + 1 else l.okRun })).wake).doorbell mb
  have hx : LinkOnly s x := (LinkOnly.linkMap _ _).then_ ((LinkOnly.wake _).then_ (LinkOnly.doorbell mb _))
  have hq : x.hub.link.reqs = s.hub.link.reqs := by
    show (State.doorbell mb _).hub.link.reqs = _
    unfold State.doorbell
    rw [State.linkMap_hub]
    show ((State.weir _ _ _ _ _).hub.link).reqs = _
    rw [weir_link, wake_reqs]
    show (HostLink.from_ m s.hub.link).reqs = _
    unfold HostLink.from_
    split <;> rfl
  have hb : x.stageRefuses mb.1 cmd = none := by
    rw [← hst]
    unfold State.stageRefuses
    rw [hx.keeps.2.2.2.2.2.2]
  have hy : taken mb cmd m s = x.linkMap (fun l => { l with reqs := l.reqs ++ [⟨mb.1, m.seq, cmd, m.flags.getLsbD 5, none⟩] }) := rfl
  rw [hy]
  refine Eq.trans (b := State.accept (msgAsk mb.1 cmd m)
    (m.len = len (msgAsk mb.1 cmd m) && m.len = 20 + m.payload.length && 20 ≤ m.len && m.len ≤ 1024) serve x) ?_ ?_
  · refine congrArg (State.accept _ _ serve) (congrArg (State.doorbell mb) (congrArg State.wake ?_))
    unfold State.linkMap State.hubMap HostLink.from_
    generalize m.t = t
    cases t <;> rfl
  unfold State.accept
  have e1 : (msgAsk mb.1 cmd m).mb = mb.1 := rfl
  have e2 : (msgAsk mb.1 cmd m).cmd = cmd := rfl
  have e3 : (msgAsk mb.1 cmd m).seq = m.seq := rfl
  have hlen : (m.len = len (msgAsk mb.1 cmd m) && m.len = 20 + m.payload.length && 20 ≤ m.len && m.len ≤ 1024) = true := by
    simp only [Bool.and_eq_true, decide_eq_true_eq]
    exact ⟨⟨⟨hl.1, hl.2.1⟩, by omega⟩, hl.2.2⟩
  simp only [e1, e2, e3, hb, hq, hf, hlen]
  simp [Nat.not_le.mpr hr]
  rfl

/-- A command served under conditions is a row of the link. -/
theorem runs_of {c : Instr} {mb : Fin 8} {cmd : Nat} {len : Ask → Nat} {m : Msg} {s : State} {cs : Ask → State → List (Bool × Nat)}
    {eff serve : Ask → State → State} (h : exec c s = .next (s.request mb cmd len serve m))
    (k : ∀ a u, a.cmd = cmd → serve a u = u.checked a (cs a u) (eff a)) : Runs c mb cmd len m s cs eff := by
  intro hh
  have e : exec c s = .next (serve (msgAsk mb.1 cmd m) (taken mb cmd m s)) := h.trans (congrArg _ (request_heard hh serve))
  rw [k _ _ rfl] at e
  refine ⟨fun r hr => ?_, fun hr => ?_⟩
  · rw [e]
    unfold State.checked
    rw [hr]
  · rw [e]
    unfold State.checked
    rw [hr]

end Sys2Proof.Machine
end

