-- ==== Sys2Proof/Laws/HandOver.lean ====
section
/-! SUPPORT. What the hand-over from the halves to the hub leaves alone: of a half its clock, its receivers, its tracker, its twist
unit and its links; of the module the instant, whether EVCLK runs, and the boot state. So the passing of time switches no half on or
off. -/

namespace Sys2Proof.Machine

open Sys2Proof

/-- The parts of a half that no hand-over touches. -/
structure Steady where
  id    : HalfId
  on    : Bool
  now   : Nat
  frame : Word
  cfg   : HalfCfg
  rcv   : Vector Rcv 6
  rev   : Vector RevChk 6
  trk   : Trk
  tws   : Tws
  links : Links

/-- They, of a half. -/
def Half.steady (h : Half) : Steady := ⟨h.id, h.on, h.now, h.frame, h.cfg, h.rcv, h.rev, h.trk, h.tws, h.links⟩

theorem foldl_steady {α : Type} (l : List α) (f : Half → α → Half) (k : ∀ t x, (f t x).steady = t.steady) (h : Half) :
    (l.foldl f h).steady = h.steady := by
  induction l generalizing h with
  | nil => rfl
  | cons x l ih => simp only [List.foldl_cons]; rw [ih, k]

theorem eachOf_steady {α : Type} (l : List α) (f : α → Half → Half) (k : ∀ x t, (f x t).steady = t.steady) (h : Half) :
    (eachOf l f h).steady = h.steady := foldl_steady l _ (fun t x => k x t) h

theorem eachIdx_steady (n : Nat) (f : Fin n → Half → Half) (k : ∀ x t, (f x t).steady = t.steady) (h : Half) :
    (eachIdx n f h).steady = h.steady := foldl_steady _ _ (fun t x => k x t) h

@[simp] theorem Half.emit_steady (o : Out) (h : Half) : (h.emit o).steady = h.steady := rfl
@[simp] theorem Half.acqMap_steady (f : Acq → Acq) (h : Half) : (h.acqMap f).steady = h.steady := rfl
@[simp] theorem Half.seqMap_steady (q : Fin 9) (f : Seqr → Seqr) (h : Half) : (h.seqMap q f).steady = h.steady := rfl
@[simp] theorem Half.pairMap_steady (p : Fin 24) (f : Pair → Pair) (h : Half) : (h.pairMap p f).steady = h.steady := rfl
@[simp] theorem Half.chanMap_steady (m : Fin 48) (f : Chan → Chan) (h : Half) : (h.chanMap m f).steady = h.steady := rfl
@[simp] theorem Half.laneMap_steady (j : Fin 12) (f : Lane → Lane) (h : Half) : (h.laneMap j f).steady = h.steady := rfl
@[simp] theorem Half.drawResv_steady (k cyc : Nat) (h : Half) : (h.drawResv k cyc).steady = h.steady := rfl

@[simp] theorem Half.raise_steady (c : Nat) (loc : Word) (h : Half) : (h.raise c loc).steady = h.steady := by
  unfold Half.raise
  extract_lets h1 _ h2
  have e : h2.steady = h.steady := by simp only [h2]; split <;> rfl
  split <;> exact e

@[simp] theorem Half.overrun_steady (q : Fin 9) (rq : Req) (ts : Nat) (h : Half) : (h.overrun q rq ts).steady = h.steady := by
  unfold Half.overrun
  extract_lets r h1
  have e : h1.steady = h.steady := by simp [h1]
  split
  · split <;> simp [e]
  · exact e

@[simp] theorem Half.trigger_steady (t : Fin 32) (step : Bool) (pt : Option (Int × List Int)) (h : Half) :
    (h.trigger t step pt).steady = h.steady := by
  unfold Half.trigger
  extract_lets l
  split
  · rfl
  · split
    · rfl
    · exact eachOf_steady _ _ (fun q t => Half.overrun_steady ..) h

@[simp] theorem Half.pulseTrig_steady (m : Nat) (starts : Bool) (h : Half) : (h.pulseTrig m starts).steady = h.steady := by
  refine eachIdx_steady 32 _ (fun t h => ?_) h
  simp [apply_ite Half.steady]

@[simp] theorem Half.settle1_steady (m : Fin 48) (h : Half) : (h.settle1 m).steady = h.steady := by
  unfold Half.settle1
  extract_lets c lvl h1
  split
  · rfl
  · split
    · rw [Half.pulseTrig_steady]; rfl
    · rfl

@[simp] theorem Half.settle_steady (h : Half) : h.settle.steady = h.steady := eachIdx_steady 48 _ (fun m t => Half.settle1_steady m t) h

@[simp] theorem Half.pairTrig_steady (p : Fin 24) (h : Half) : (h.pairTrig p).steady = h.steady := by
  unfold Half.pairTrig
  simp [apply_ite Half.steady]

@[simp] theorem Half.settlePair_steady (p : Fin 24) (h : Half) : (h.settlePair p).steady = h.steady := by
  unfold Half.settlePair
  extract_lets h1 h2
  have e1 : h1.steady = h.steady := by simp [h1]
  have e2 : h2.steady = h.steady := by simp only [h2]; split <;> simp [e1]
  rw [Half.pairTrig_steady, e2]

@[simp] theorem Half.boostDone_steady (p : Fin 24) (drop : Bool) (h : Half) : (h.boostDone p drop).steady = h.steady := by
  unfold Half.boostDone
  extract_lets x
  split <;> rfl

@[simp] theorem Half.enterPhase_steady (p : Fin 24) (n : Nat) (gap : Bool) (h : Half) : (h.enterPhase p n gap).steady = h.steady := by
  unfold Half.enterPhase Half.enterGap
  simp

@[simp] theorem Half.drvKill_steady (p : Fin 24) (h : Half) : (h.drvKill p).steady = h.steady := by
  unfold Half.drvKill Half.toIdle
  simp [apply_ite Half.steady]

@[simp] theorem Half.setLatch_steady (cause : Nat) (h : Half) : (h.setLatch cause).steady = h.steady := by
  unfold Half.setLatch
  extract_lets h1 h2
  have e : h1.steady = h.steady := eachIdx_steady 24 _ (fun p t => Half.drvKill_steady p t) h
  split
  · rfl
  · rw [Half.settle_steady, ← e]
    clear_value h1
    rfl

@[simp] theorem Half.evOverflow_steady (src : Nat) (h : Half) : (h.evOverflow src).steady = h.steady := by
  unfold Half.evOverflow
  extract_lets h1
  split
  · rfl
  · rw [Half.raise_steady]; rfl

@[simp] theorem Half.evAppend_steady (r : WeirRec) (h : Half) : (h.evAppend r).steady = h.steady := by
  unfold Half.evAppend
  extract_lets r1
  split
  · rfl
  · split
    · rfl
    · simp

@[simp] theorem Half.drawShare_steady (pair prof : Nat) (h : Half) : (h.drawShare pair prof).steady = h.steady := by
  unfold Half.drawShare
  split
  · rfl
  · simp only []
    split <;> rfl

@[simp] theorem Half.askFuel_steady (j : Fin 12) (r : ResOut) (h : Half) : (h.askFuel j r).steady = h.steady := by
  unfold Half.askFuel
  split <;> simp

@[simp] theorem Half.closeCmb_steady (j : Fin 12) (i : Bool) (h : Half) : (h.closeCmb j i).steady = h.steady := by
  unfold Half.closeCmb
  simp only []
  split
  · simp
  · split <;> simp [apply_ite Half.steady]

@[simp] theorem Half.closeImep_steady (j : Fin 12) (i : Bool) (h : Half) : (h.closeImep j i).steady = h.steady := by
  unfold Half.closeImep
  simp only []
  split
  · rfl
  · split <;> simp

@[simp] theorem Half.closePeg_steady (j : Fin 12) (h : Half) : (h.closePeg j).steady = h.steady := by
  unfold Half.closePeg
  simp only []
  split <;> simp [apply_ite Half.steady]

@[simp] theorem Half.closeWindows_steady (j : Fin 12) (n : Bool) (phi : Rat) (h : Half) : (h.closeWindows j n phi).steady = h.steady := by
  unfold Half.closeWindows
  extract_lets l h1 h2
  have e1 : h1.steady = h.steady := by simp only [h1]; split <;> simp
  have e2 : h2.steady = h.steady := by simp only [h2]; split <;> simp [e1]
  split
  · exact e1
  · split <;> simp [e2]

@[simp] theorem Half.closeNow_steady (j : Fin 12) (h : Half) : (h.closeNow j).steady = h.steady := by
  unfold Half.closeNow
  split <;> simp

@[simp] theorem Half.endTrace_steady (j : Fin 12) (span : Int) (h : Half) : (h.endTrace j span).steady = h.steady := by
  unfold Half.endTrace
  extract_lets l
  split <;> simp

@[simp] theorem Half.setLaneCyc_steady (j : Fin 12) (h : Half) : (h.setLaneCyc j).steady = h.steady := by
  unfold Half.setLaneCyc
  extract_lets cyl
  split <;> simp

@[simp] theorem Half.traceSmp_steady (j : Fin 12) (ang : Int) (code : BitVec 16) (ok : Bool) (hold : Nat) (start : Bool) (back : Int) (h : Half) :
    (h.traceSmp j ang code ok hold start back).steady = h.steady := by
  unfold Half.traceSmp
  extract_lets l on len gone h0
  have e0 : h0.steady = h.steady := by simp only [h0]; split <;> simp
  split
  · simp
  · split
    · repeat' split
      all_goals simp +zetaDelta [apply_ite Half.steady]
    · simp only []
      split <;> simp [apply_ite Half.steady, e0]

@[simp] theorem Half.lanePoint_steady (j : Fin 12) (phi : Rat) (begins : Bool) (h : Half) : (h.lanePoint j phi begins).steady = h.steady := by
  unfold Half.lanePoint
  simp [apply_ite Half.steady]

@[simp] theorem Half.newCycle_steady (j : Fin 12) (red : Bool) (phi : Rat) (h : Half) : (h.newCycle j red phi).steady = h.steady := rfl

@[simp] theorem Half.addSmp_steady (j : Fin 12) (s : Smp) (h : Half) : (h.addSmp j s).steady = h.steady := rfl

@[simp] theorem Half.cyclePeak_steady (j : Fin 12) (h : Half) : (h.cyclePeak j).steady = h.steady := by
  unfold Half.cyclePeak
  simp [apply_ite Half.steady]

@[simp] theorem Half.endCycle_steady (j : Fin 12) (red : Bool) (s : Smp) (h : Half) : (h.endCycle j red s).steady = h.steady := by
  unfold Half.endCycle
  extract_lets h1
  have e1 : h1.steady = h.steady := by simp [h1]
  split
  · exact e1
  · simp [e1]

@[simp] theorem Half.laneSmp_steady (j : Fin 12) (ang ck : Int) (code : BitVec 16) (ok spare off : Bool) (vss : Int) (hold : Nat) (h : Half) :
    (h.laneSmp j ang ck code ok spare off vss hold).steady = h.steady := by
  unfold Half.laneSmp
  extract_lets l len raw phi s begins back h1 l1 h2
  have e1 : h1.steady = h.steady := by simp [h1]
  have e2 : h2.steady = h.steady := by
    simp only [h2]
    split
    · split <;> simp [e1]
    · simp [e1]
  split
  · simp
  · split
    · exact e1
    · split <;> simp [e2]

@[simp] theorem Half.anaIncomplete_steady (h : Half) : h.anaIncomplete.steady = h.steady := by
  refine eachIdx_steady 12 _ (fun j h0 => ?_) h
  extract_lets h l newest openP open1 open2 hp h1 h2
  have e : h.steady = h0.steady := by simp [h]
  have ep : hp.steady = h0.steady := by simp only [hp]; split <;> simp [e]
  have e1 : h1.steady = h0.steady := by simp only [h1]; split <;> simp [ep]
  have e2 : h2.steady = h0.steady := by simp only [h2]; split <;> simp [e1]
  split
  · exact e
  · simp [e2]

@[simp] theorem Half.lostPoint_steady (pt : Int × List Int) (hold : Nat) (h : Half) : (h.lostPoint pt hold).steady = h.steady := by
  refine eachIdx_steady 12 _ (fun j h => ?_) h
  extract_lets l ck
  split <;> simp

/-! ### The module -/

/-- The parts of the hub that no hand-over touches. -/
structure HubSteady where
  frame  : Word
  tick   : Nat
  ptp    : PtpSt
  cl     : Vector ClSt 24
  corr   : Word
  corrs  : Vector CorrSt 24
  res    : Vector ResHub 8
  pwr    : Pwr
  boot   : BootSt
  cfg    : CfgSt
  sec    : SecSt
  tel    : Telem
  load   : Nat
  jobs   : List JobRun
  lastWd : Vector Nat 4
  behind : Vector (Option Nat) 4
  owed   : Vector (Option Nat) 4
  noBg   : Vector Bool 4

/-- They, of a hub. -/
def Hub.steady (u : Hub) : HubSteady :=
  ⟨u.frame, u.tick, u.ptp, u.cl, u.corr, u.corrs, u.res, u.pwr, u.boot, u.cfg, u.sec, u.tel, u.load, u.jobs, u.lastWd, u.behind, u.owed, u.noBg⟩

/-- Two states agree in all that a hand-over leaves alone. -/
structure SameRun (s t : State) : Prop where
  a   : t.a.steady = s.a.steady
  b   : t.b.steady = s.b.steady
  now : t.now = s.now
  hub : t.hub.steady = s.hub.steady

theorem SameRun.same (s : State) : SameRun s s := ⟨rfl, rfl, rfl, rfl⟩

theorem SameRun.then_ {s t u : State} (h : SameRun s t) (k : SameRun t u) : SameRun s u :=
  ⟨k.a.trans h.a, k.b.trans h.b, k.now.trans h.now, k.hub.trans h.hub⟩

theorem SameRun.ofLink {s t : State} (h : LinkOnly s t) : SameRun s t := by
  obtain ⟨l, w, f, rfl⟩ := h
  exact ⟨rfl, rfl, rfl, rfl⟩

/-- A half's steady part of a state. -/
theorem SameRun.half {s t : State} (h : SameRun s t) (id : HalfId) : (t.half id).steady = (s.half id).steady := by
  cases id
  · exact h.a
  · exact h.b

theorem SameRun.setHalf (s : State) (h : Half) (id : HalfId) (e : h.steady = (s.half id).steady) : SameRun s (s.setHalf h id) := by
  cases id
  · exact ⟨e, rfl, rfl, rfl⟩
  · exact ⟨rfl, e, rfl, rfl⟩

theorem SameRun.foldl {α : Type} (l : List α) (f : State → α → State) (k : ∀ t x, SameRun t (f t x)) (s : State) :
    SameRun s (l.foldl f s) := by
  induction l generalizing s with
  | nil => exact .same s
  | cons x l ih => exact (k s x).then_ (ih _)

theorem SameRun.eachOf {α : Type} (l : List α) (f : α → State → State) (k : ∀ x t, SameRun t (f x t)) (s : State) :
    SameRun s (Machine.eachOf l f s) := .foldl l _ (fun t x => k x t) s

theorem SameRun.hubMap (f : Hub → Hub) (s : State) (e : (f s.hub).steady = s.hub.steady) : SameRun s (s.hubMap f) := ⟨rfl, rfl, rfl, e⟩

theorem Hub.weirWrite_steady (now : Word) (src kind : Nat) (level halfQ : Bool) (frame ts payload : Word) (u : Hub) :
    (u.weirWrite now src kind level halfQ frame ts payload).steady = u.steady := by
  obtain ⟨w, f, h⟩ := Hub.weirWrite_is now src kind level halfQ frame ts payload u
  rw [h]
  rfl

theorem SameRun.dropRelease (s : State) : SameRun s s.dropRelease := by
  unfold State.dropRelease
  split
  · exact (SameRun.hubMap _ s rfl).then_ (.eachOf _ _ (fun q t => .ofLink (.finish ..)) _)
  · exact .same s

theorem SameRun.setLatches (cause : Nat) (s : State) : SameRun s (s.setLatches cause) :=
  .eachOf _ _ (fun id t => .setHalf t _ id (Half.setLatch_steady ..)) s

theorem SameRun.kill (cause : Nat) (s : State) : SameRun s (s.kill cause) := by
  unfold State.kill
  extract_lets ids s1 f s2 n
  have h1 : SameRun s s1 := .setLatches cause s
  split
  · have h2 : SameRun s1 s2 := (SameRun.hubMap _ s1 rfl).then_ (.dropRelease _)
    exact h1.then_ (h2.then_ ((SameRun.ofLink (.raiseHub ..)).then_ (.ofLink (.postEntry ..))))
  · split
    · exact h1.then_ ⟨rfl, rfl, rfl, rfl⟩
    · exact h1

theorem SameRun.openRec (id : HalfId) (o : OpenRec) (s : State) : SameRun s (s.openRec id o) := by
  unfold State.openRec
  extract_lets pl keys shed c0 mine c1 tr
  split <;> exact ⟨rfl, rfl, rfl, rfl⟩

theorem SameRun.cutCount (cyl cyc flags : Nat) (s : State) : SameRun s (s.cutCount cyl cyc flags) := by
  unfold State.cutCount
  split
  · exact .same s
  · split
    · exact .same s
    · split
      split
      · exact .same s
      · exact ⟨rfl, rfl, rfl, rfl⟩

theorem SameRun.cutSample (id : HalfId) (cyl cyc : Nat) (ap : Int) (pts : List (Rat × Rat × Bool)) (ast : Bool) (s : State) :
    SameRun s (s.cutSample id cyl cyc ap pts ast) := by
  unfold State.cutSample
  split
  · exact .same s
  · split
    · exact .same s
    · exact ⟨rfl, rfl, rfl, rfl⟩

theorem SameRun.fuelAsk (id : HalfId) (j : Fin 12) (cyl cyc : Nat) (s : State) : SameRun s (s.fuelAsk id j cyl cyc) := by
  unfold State.fuelAsk
  split
  · exact .same s
  · exact .setHalf s _ id rfl

theorem SameRun.moveCount (id : HalfId) (cyl old new : Nat) (ks : List Nat) (s : State) : SameRun s (s.moveCount id cyl old new ks) := by
  unfold State.moveCount
  extract_lets pl mine
  split
  · exact .same s
  · extract_lets w e c1 alone s1 d
    split
    · split <;> exact ⟨rfl, rfl, rfl, rfl⟩
    · split <;> exact ⟨rfl, rfl, rfl, rfl⟩

theorem SameRun.boostStart (id : HalfId) (pair prof k : Nat) (s : State) : SameRun s (s.boostStart id pair prof k) := by
  unfold State.boostStart
  extract_lets h cyc h1 s1
  have e1 : SameRun s s1 := .setHalf s _ id (by simp [h1, h])
  split
  · exact e1
  · extract_lets m
    refine e1.then_ (.setHalf s1 _ id ?_)
    rw [show s1.half id = h1 by simp [s1]]; rfl

theorem SameRun.tooth (id : HalfId) (i : Nat) (ts : Word) (pol first : Bool) (cls pos : Nat) (s : State) :
    SameRun s (s.tooth id i ts pol first cls pos) := by
  unfold State.tooth
  extract_lets on s1 e
  have e1 : SameRun s s1 := by
    simp only [s1]
    split
    · exact .same s
    · exact ⟨rfl, rfl, rfl, rfl⟩
  exact e1.then_ ⟨rfl, rfl, rfl, rfl⟩

theorem SameRun.fileResult (id : HalfId) (r : ResOut) (s : State) : SameRun s (s.fileResult id r) := by
  unfold State.fileResult
  extract_lets pl s1
  have e1 : SameRun s s1 := by simp only [s1]; split <;> exact ⟨rfl, rfl, rfl, rfl⟩
  split
  · exact e1.then_ ⟨rfl, rfl, rfl, rfl⟩
  · exact e1

theorem SameRun.newTrace (id : HalfId) (cyl cyc : Nat) (s : State) : SameRun s (s.newTrace id cyl cyc) := by
  unfold State.newTrace
  extract_lets n s1
  split
  · exact .same s
  · exact ⟨rfl, rfl, rfl, rfl⟩

theorem SameRun.decimTrace (cyl : Nat) (s : State) : SameRun s (s.decimTrace cyl) := by
  unfold State.decimTrace
  split
  · exact .same s
  · exact ⟨rfl, rfl, rfl, rfl⟩

theorem SameRun.addTrace (id : HalfId) (cyl : Nat) (bytes : List Byte) (s : State) : SameRun s (s.addTrace id cyl bytes) := by
  unfold State.addTrace
  split
  · exact .same s
  · extract_lets s1
    split <;> exact ⟨rfl, rfl, rfl, rfl⟩

theorem SameRun.cyclePeak (id : HalfId) (x : Nat × Nat × Nat × Option Int × Rat) (s : State) : SameRun s (s.cyclePeak id x) := by
  unfold State.cyclePeak
  simp only []
  split <;> exact ⟨rfl, rfl, rfl, rfl⟩

/-- One item handed over. -/
theorem SameRun.take (id : HalfId) (o : Out) (s : State) : SameRun s (s.take id o) := by
  unfold State.take
  extract_lets path keep
  have hk : SameRun s keep := ⟨rfl, rfl, rfl, rfl⟩
  clear_value keep
  split
  · simp only []
    split
    · exact .same s
    · split
      · exact (SameRun.setHalf s _ id (Half.evAppend_steady ..)).then_ (.hubMap _ _ (Hub.weirWrite_steady ..))
      · exact .setHalf s _ id (Half.evAppend_steady ..)
  · split
    · exact ⟨rfl, rfl, rfl, rfl⟩
    · exact hk
  · split
    · exact ⟨rfl, rfl, rfl, rfl⟩
    · exact .same s
  · split
    · exact .ofLink (.postEntry ..)
    · exact hk
  · exact .ofLink (.finish ..)
  · exact .kill ..
  · exact ⟨rfl, rfl, rfl, rfl⟩
  · exact ⟨rfl, rfl, rfl, rfl⟩
  · exact ⟨rfl, rfl, rfl, rfl⟩
  · exact .boostStart ..
  · exact .setHalf s _ id rfl
  · exact .tooth ..
  · exact .fileResult ..
  · exact .newTrace ..
  · exact .setHalf s _ id rfl
  · exact .fuelAsk ..
  · exact .decimTrace ..
  · exact .addTrace ..
  · exact .cyclePeak ..
  · exact .setHalf s _ id (Half.anaIncomplete_steady _)
  · exact .setHalf s _ id (Half.lostPoint_steady ..)
  · exact (SameRun.openRec ..).then_ (.cutCount ..)
  · exact .moveCount ..
  · exact .cutSample ..

theorem SameRun.takeAll (id : HalfId) (s : State) : SameRun s (s.takeAll id) := by
  unfold State.takeAll
  extract_lets h
  split
  · exact .same s
  · refine SameRun.then_ (t := s.setHalf { h with out := [] } id) (.setHalf s _ id rfl) ?_
    exact (SameRun.foldl _ _ (fun t o => SameRun.take id o t) _)

/-- The hand-over leaves the steady parts alone. -/
theorem SameRun.flush (s : State) : SameRun s s.flush :=
  .foldl _ _ (fun t _ => (SameRun.takeAll .A t).then_ (.takeAll .B _)) s

/-! ### Time -/

theorem Half.setAcc_on (a : Nat) (h : Half) : (h.setAcc a).on = h.on := by
  unfold Half.setAcc
  simp [apply_ite Half.on]

theorem Half.pass_on (n : Nat) (h : Half) : (h.pass n).on = h.on := by
  unfold Half.pass
  show (h.advance n).on = h.on
  unfold Half.advance
  have hp : ∀ h : Half, h.present.on = h.on := fun h => by
    unfold Half.present
    split <;> rfl
  simp [apply_ite Half.on, hp, Half.setAcc_on]

/-- The instant moves on by what passes. -/
theorem State.advance_now (n : Nat) (s : State) : (s.advance n).now = s.now + n := by
  unfold State.advance
  split
  · simp [*]
  · exact (SameRun.flush _).now

theorem State.advanceTo_now (t : Nat) (s : State) : (s.advanceTo t).now = max s.now t := by
  unfold State.advanceTo
  rw [State.advance_now]
  omega

/-- Time changes nothing of the hub that the hand-over leaves alone. -/
theorem State.advance_hub (n : Nat) (s : State) : (s.advance n).hub.steady = s.hub.steady := by
  unfold State.advance
  split
  · rfl
  · exact (SameRun.flush _).hub

/-- Time switches no half on or off, and does not stop EVCLK. -/
theorem State.advance_live (n : Nat) (s : State) (id : HalfId) : (s.advance n).live id = s.live id := by
  have hb : (s.advance n).hub.boot = s.hub.boot := congrArg HubSteady.boot (State.advance_hub n s)
  have ho : ((s.advance n).half id).on = (s.half id).on := by
    unfold State.advance
    split
    · rfl
    · extract_lets go
      refine (congrArg Steady.on ((SameRun.flush _).half id)).trans ?_
      cases id
      · show (go s.a).on = s.a.on
        simp only [go]
        split
        · exact Half.pass_on ..
        · rfl
      · show (go s.b).on = s.b.on
        simp only [go]
        split
        · exact Half.pass_on ..
        · rfl
  unfold State.live State.clocked
  rw [ho, hb]

theorem State.advanceTo_live (t : Nat) (s : State) (id : HalfId) : (s.advanceTo t).live id = s.live id := State.advance_live ..

end Sys2Proof.Machine
end

