-- ==== Sys2Proof/Tests/Slice0.lean ====
section
/-! SUPPORT. Small tests: ill-formed commands that the check refuses, values of the spec's tables, and for every statement with
hypotheses a state and operands that meet them. -/

namespace Sys2Proof.Tests

open Sys2Proof Sys2Proof.Machine Sys2Proof.Safety

-- one test after another: all at once would take a thread, and its stack, for each
set_option Elab.async false

/-! ### A small running module -/

/-- A half that runs with a path to the hub. -/
def onH (h : Half) : Half := { h with on := true, links := { h.links with path := true } }

/-- Boot state in READY. -/
def bootUp : BootSt := { BootSt.reset with stage := 4, next := 0 }

/-- The module in READY, every function at Expert level. -/
def up : State := { State.reset with
  a := onH State.reset.a
  b := onH State.reset.b
  hub := { Hub.reset with
    boot := bootUp
    cfg := { Hub.reset.cfg with img := { Image.empty with expert := List.replicate 8 true } } } }

/-- The module in READY with a change in half A. -/
def upA (f : Half → Half) : State := { up with a := f up.a }

/-- The module in READY with a change in the hub. -/
def upU (f : Hub → Hub) : State := { up with hub := f up.hub }

/-- A message over SPI with SEQ 7, ALIVE 1 and a payload. -/
def msg (p : List Byte) : Msg := ⟨.spi, 0, 7, 20 + p.length, 1, p, 0, 0⟩

/-- A message that fits its command is accepted by the module in READY. -/
theorem heard {mb : Fin 8} {cmd : Nat} {len : Ask → Nat} {p : List Byte} {s : State} (hl : s.hub.link = HostLink.reset)
    (hb : s.hub.boot = bootUp) (h : len (msgAsk mb.1 cmd (msg p)) = 20 + p.length) (k : p.length ≤ 1004) :
    Heard mb cmd len (msg p) s where
  serves := by unfold State.serves State.clocked; rw [hb]; rfl
  once := by rw [hl]; rfl
  alive := by left; rw [hl]; simp [HostLink.reset, Vector.get]
  stage := by unfold State.stageRefuses; rw [hb]; rfl
  length := ⟨h.symm, rfl, by show 20 + p.length ≤ 1024; omega⟩
  room := by rw [hl]; exact Nat.zero_lt_succ _
  fresh := by rw [hl]; rfl

/-- A message accepted with none of its command's conditions. -/
def Clear (mb : Fin 8) (cmd : Nat) (len : Ask → Nat) (p : List Byte) (s : State) (cs : Ask → State → List (Bool × Nat)) : Prop :=
  Heard mb cmd len (msg p) s ∧ (cs (msgAsk mb.1 cmd (msg p)) (taken mb cmd (msg p) s)).find? (·.1) = none

/-! ### Well-formedness -/

theorem test_wf_heartbeat_counts : (Instr.heartbeatReceive .A .hub ⟨true, 0, 0, 0, true, 0, 0, false, List.replicate 25 (1, 0)⟩).wf = false := rfl
theorem test_wf_heartbeat_state : (Instr.heartbeatReceive .A .hub ⟨true, 0, 0, 8, true, 0, 0, false, []⟩).wf = false := rfl
theorem test_wf_heartbeat_ok : (Instr.heartbeatReceive .A .hub ⟨true, 0, 0, 7, true, 0, 0, false, List.replicate 24 (1, 0)⟩).wf = true := rfl
theorem test_wf_conversion_p : (Instr.conversionRecordWrite .A 0 ⟨List.replicate 13 0, []⟩).wf = false := rfl
theorem test_wf_conversion_i : (Instr.conversionRecordWrite .A 6 ⟨List.replicate 5 0, []⟩).wf = false := rfl
theorem test_wf_conversion_g : (Instr.conversionRecordWrite .A 7 ⟨List.replicate 7 0, []⟩).wf = false := rfl
theorem test_wf_can_data : (Instr.canBackupFrame 0 0 (List.replicate 65 0)).wf = false := rfl
theorem test_wf_management_read : (Instr.managementRead 0 (zeros 1473)).wf = false := by
  have h : (zeros 1473).length = 1473 := List.length_replicate
  unfold Instr.wf mgmtWf
  simp only [h]
  decide
theorem test_wf_management_write : (Instr.managementWrite 0 (zeros 1473)).wf = false := by
  have h : (zeros 1473).length = 1473 := List.length_replicate
  unfold Instr.wf mgmtWf
  simp only [h]
  decide
theorem test_wf_discarded_can : (Instr.discardedFrame .can [0] 0).wf = false := rfl
theorem test_wf_discarded_size : (Instr.discardedFrame .eth1 (zeros 1473) 0).wf = false := by
  have h : (zeros 1473).length = 1473 := List.length_replicate
  unfold Instr.wf
  simp only [h]
  decide
theorem test_wf_buffer_empty : (Instr.requestBufferWrite 0 []).wf = false := rfl
theorem test_wf_buffer_offset : (Instr.requestBufferWrite 1024 [0]).wf = false := rfl
theorem test_wf_time_map : (Instr.timeMapWrite 0 1000000000).wf = false := rfl
theorem test_wf_message_can : (Instr.stop { msg (zeros 4) with t := .can }).wf = false := rfl
theorem test_wf_message_length : (Instr.stop { msg (zeros 4) with len := 20 }).wf = false := rfl
theorem test_wf_message_size : (Instr.imageChunk (msg (zeros 1005))).wf = false := by
  have h : (zeros 1005).length = 1005 := List.length_replicate
  unfold Instr.wf Msg.wf msg
  simp only [h]
  decide
theorem test_wf_message_ok : (Instr.stop (msg (zeros 4))).wf = true := rfl

/-! ### No row of the table has bits -/

theorem test_no_words (n w : Nat) : decodeTableWord n w = none := rfl
theorem test_fetch_nothing (s : State) (n w : Nat) : s.withFetchWord n w = s := rfl

/-! ### Requests: a message accepted, with none of its command's conditions -/

theorem test_clear_stop : Clear 0 1 (fun _ => 24) (zeros 4) up
    (fun _ _ => []) :=
  ⟨heard rfl rfl rfl (by decide), rfl⟩

theorem test_clear_floodgateRelease : Clear 0 2 (fun _ => 24) (zeros 4) up
    (fun _ _ => []) :=
  ⟨heard rfl rfl rfl (by decide), rfl⟩

theorem test_clear_setDirection : Clear 0 3 (fun _ => 24) (zeros 4) up
    (fun _ _ => []) :=
  ⟨heard rfl rfl rfl (by decide), rfl⟩

theorem test_clear_fgStatus : Clear 0 4 (fun _ => 20) ([]) up
    (fun _ _ => []) :=
  ⟨heard rfl rfl rfl (by decide), rfl⟩

theorem test_clear_imageBegin : Clear 2 1 (fun _ => 28) (le 4 128 ++ zeros 4) up
    (fun a _ => [(a.w 16 < 128 || 2097152 < a.w 16 || a.dirty 20 4, 0x104)]) :=
  ⟨heard rfl rfl rfl (by decide), rfl⟩

theorem test_clear_imageChunk : Clear 2 2 (fun a => 28 + a.h 20) (le 4 0 ++ le 2 4 ++ zeros 6) (upU (fun u => { u with cfg := { u.cfg with stage := some ⟨128, []⟩ } }))
    (fun a u => [(a.w 16 % 4 ≠ 0 || a.h 20 % 4 ≠ 0 || a.h 20 < 4 || 992 < a.h 20 || a.dirty 22 2, 0x104), (u.hub.cfg.stage.isNone, 0x117),
        (u.hub.cfg.stage.any (fun t => t.len < a.w 16 + a.h 20), 0x104)]) :=
  ⟨heard rfl rfl rfl (by decide), rfl⟩

theorem test_clear_imageAbort : Clear 2 4 (fun _ => 20) ([]) up
    (fun _ _ => []) :=
  ⟨heard rfl rfl rfl (by decide), rfl⟩

theorem test_clear_configCommit : Clear 2 3 (fun _ => 36) (zeros 16) up
    (fun a _ => [(!a.commitOk, 0x104)]) :=
  ⟨heard rfl rfl rfl (by decide), rfl⟩

theorem test_clear_configDryRun : Clear 2 3 (fun _ => 36) (1 :: zeros 15) up
    (fun a _ => [(!a.commitOk, 0x104)]) :=
  ⟨heard rfl rfl rfl (by decide), rfl⟩

theorem test_clear_configRead : Clear 2 5 (fun _ => 28) (le 4 4 ++ le 2 4 ++ zeros 2) (upU (fun u => { u with cfg := { u.cfg with bytes := some (zeros 8) } }))
    (fun a u => [(a.h 20 < 4 || 992 < a.h 20 || a.dirty 22 2, 0x104),
        (u.hub.cfg.bytes.isNone, 0x117), ((u.hub.cfg.bytes.getD []).length < a.w 16 + a.h 20, 0x104)]) :=
  ⟨heard rfl rfl rfl (by decide), rfl⟩

theorem test_clear_configInfo : Clear 2 6 (fun _ => 20) ([]) up
    (fun _ _ => []) :=
  ⟨heard rfl rfl rfl (by decide), rfl⟩

theorem test_clear_linkSet : Clear 2 7 (fun _ => 28) ([32, 2] ++ le 2 2000 ++ zeros 4) up
    (fun a _ => [(a.b 16 < 1 || 32 < a.b 16 || 2 < a.b 17 || a.h 18 < 50 || 2000 < a.h 18 ||
        1 < a.b 20 || a.dirty 21 3, 0x104)]) :=
  ⟨heard rfl rfl rfl (by decide), rfl⟩

theorem test_clear_profileRead : Clear 3 0x11 (fun _ => 24) ([31, 1, 0, 0]) up
    (fun a u => [u.levelCheck 3, (u.noHalf (a.b 17), 0x103), (31 < a.b 16 || 1 < a.b 17 || a.dirty 18 2, 0x104)]) :=
  ⟨heard rfl rfl rfl (by decide), rfl⟩

theorem test_clear_twistSet : Clear 3 0x21 (fun _ => 28) (1 :: zeros 7) (upA (fun h => { h with tws := { h.tws with cyl := Vector.replicate 24 ⟨putB true 15 ||| put 1 5 0, 0, 0, 0, 0, none, 0⟩ } }))
    (fun a u => [u.levelCheck 2, (!u.reaches (u.twistHalves (a.b 16)), 0x103),
        ((u.twistHalves (a.b 16)).isEmpty || a.dirty 17 1, 0x104),
        (signed 16 (a.h 18) < -8192 || 24576 < signed 16 (a.h 18) || 131072 < (signed 32 (a.w 20)).natAbs, 0x126)]) :=
  ⟨heard rfl rfl rfl (by decide), rfl⟩

theorem test_clear_pinClaim : Clear 3 0x60 (fun _ => 24) ([0, 47, 4, 7]) up
    (fun a u => let d := (pinOf (a.b 16) (a.b 17)).1
      [(a.b 18 = 4 && u.basic 6, 0x100), (!pinBad (a.b 16) (a.b 17) && !u.reach d, 0x103), (pinBad (a.b 16) (a.b 17) || (a.b 18 ≠ 4 && a.b 18 ≠ 5) ||
        (a.b 18 = 4 && a.b 19 / 8 ≠ d.num) || (a.b 18 = 5 && a.b 19 ≠ 0), 0x104)]) :=
  ⟨heard rfl rfl rfl (by decide), rfl⟩

theorem test_clear_pinRelease : Clear 3 0x61 (fun _ => 24) ([1, 31, 0, 0]) up
    (fun a u => let p := pinOf (a.b 16) (a.b 17); let bad := pinBad (a.b 16) (a.b 17)
      [(!bad && !u.reach p.1, 0x103), (bad || a.dirty 18 2, 0x104), ((u.half p.1).inWindow p.2, 0x124)]) :=
  ⟨heard rfl rfl rfl (by decide), rfl⟩

theorem test_clear_wheelDiag : Clear 4 1 (fun _ => 24) ([1, 5, 32, 0]) up
    (fun a u => [(u.noHalf (a.b 16), 0x103), (1 < a.b 16 || 5 < a.b 17 || 32 < a.b 18 || a.dirty 19 1, 0x104)]) :=
  ⟨heard rfl rfl rfl (by decide), rfl⟩

theorem test_clear_statusRead : Clear 4 2 (fun _ => 24) ([2, 9, 0, 0]) up
    (fun a u => [(u.noHalf (a.b 16), 0x103), (2 < a.b 16 || 9 < a.b 17 || a.dirty 18 2 || ((a.b 16 = 2) != (8 ≤ a.b 17)), 0x104)]) :=
  ⟨heard rfl rfl rfl (by decide), rfl⟩

theorem test_clear_faultRead : Clear 4 3 (fun _ => 24) (le 2 0 ++ le 2 80) up
    (fun a u => [(!u.reaches bothHalves, 0x103), (a.h 18 < 1 || 80 < a.h 18, 0x104)]) :=
  ⟨heard rfl rfl rfl (by decide), rfl⟩

theorem test_clear_calAlign : Clear 4 0x10 (fun _ => 20) ([]) up
    (fun _ u => [(!u.reaches bothHalves, 0x103), (u.hub.cal.align.isSome, 0x107)]) :=
  ⟨heard rfl rfl rfl (by decide), rfl⟩

theorem test_clear_calAbort : Clear 4 0x13 (fun _ => 20) ([]) up
    (fun _ _ => []) :=
  ⟨heard rfl rfl rfl (by decide), rfl⟩

theorem test_clear_tdacStop : Clear 4 0x23 (fun _ => 24) (zeros 4) up
    (fun a u => [(u.noHalf (a.b 16), 0x103), (1 < a.b 16 || a.dirty 17 3, 0x104)]) :=
  ⟨heard rfl rfl rfl (by decide), rfl⟩

theorem test_clear_sensorRead : Clear 4 0x30 (fun _ => 24) ([0, 60, 0, 0]) up
    (fun a u => let xs := (u.sources.zipIdx.drop (a.b 16)).take (a.b 17)
      [(!u.reaches (xs.map (fun x => x.1.2.1.half)), 0x103), (a.b 17 < 1 || 60 < a.b 17 || a.dirty 18 2, 0x104)]) :=
  ⟨heard rfl rfl rfl (by decide), rfl⟩

theorem test_clear_telemSet : Clear 5 1 (fun _ => 28) (15 :: 2 :: zeros 6) up
    (fun a _ => [(15 < a.b 16 || 2 < a.b 17, 0x104)]) :=
  ⟨heard rfl rfl rfl (by decide), rfl⟩

theorem test_clear_tarnInfo : Clear 5 2 (fun _ => 20) ([]) up
    (fun _ _ => []) :=
  ⟨heard rfl rfl rfl (by decide), rfl⟩

theorem test_clear_recordRead : Clear 5 3 (fun _ => 28) (zeros 8) (upU (fun u => { u with tarn := { u.tarn with recs := [⟨0, zeros 128, false, 0, 0, 0⟩], recN := 1 } }))
    (fun a u => let t := u.hub.tarn; let base := t.named (a.b 16) (a.w 20)
        [(24 < a.b 16 || a.dirty 18 2 || base.any (fun r => byteAt r.bytes 37 < a.b 17), 0x104),
          ((base.bind (fun r => t.recs.find? (fun x => x.idx = r.idx + a.b 17))).all (·.lost), 0x150)]) :=
  ⟨heard rfl rfl rfl (by decide), rfl⟩

theorem test_clear_traceRead : Clear 5 4 (fun _ => 32) (zeros 8 ++ le 2 2 ++ zeros 2) (upU (fun u => { u with tarn := { u.tarn with blocks := [⟨0, zeros 2, false, 0, 0, 0⟩], blockN := 1 } }))
    (fun a u => let b := u.hub.tarn.blocks.find? (fun r => r.idx = a.w 16)
        [(a.h 24 < 2 || 992 < a.h 24 || a.dirty 26 2 || b.any (fun r => r.bytes.length < a.w 20 + a.h 24), 0x104), (b.all (·.lost), 0x150)]) :=
  ⟨heard rfl rfl rfl (by decide), rfl⟩

theorem test_clear_toothlogRead : Clear 5 5 (fun _ => 28) ([1, 5] ++ le 2 124 ++ zeros 4) up
    (fun a u => let t := u.hub.tarn
          [(1 < a.b 16 || 5 < a.b 17 || a.h 18 < 1 || 124 < a.h 18, 0x104),
            ((t.teeth.length < t.toothN && t.teeth.getLast?.any (fun r => frameDiff r.frame (a.reg 20) > 0)) || ((u.hub.tarn.teeth.reverse.filter (fun r =>
      r.h = halfOf (a.b 16) && r.inp = (Inp.ofCode (a.b 17)).ix.1 && frameDiff r.frame (a.reg 20) ≥ 0)).take (a.h 18)).any (·.lost), 0x150)]) :=
  ⟨heard rfl rfl rfl (by decide), rfl⟩

theorem test_clear_attest : Clear 6 1 (fun _ => 52) (zeros 32) up
    (fun _ _ => []) :=
  ⟨heard rfl rfl rfl (by decide), rfl⟩

theorem test_clear_identity : Clear 6 2 (fun _ => 20) ([]) up
    (fun _ _ => []) :=
  ⟨heard rfl rfl rfl (by decide), rfl⟩

theorem test_clear_challenge : Clear 6 4 (fun _ => 20) ([]) up
    (fun _ _ => []) :=
  ⟨heard rfl rfl rfl (by decide), rfl⟩

theorem test_clear_fwBegin : Clear 6 0x10 (fun _ => 24) (le 4 8388608) up
    (fun a _ => [(8388608 < a.w 16, 0x104)]) :=
  ⟨heard rfl rfl rfl (by decide), rfl⟩

theorem test_clear_fwChunk : Clear 6 0x11 (fun a => 28 + a.h 20) (le 4 4 ++ le 2 4 ++ zeros 6) (upU (fun u => { u with cfg := { u.cfg with fw := some ⟨8, []⟩ } }))
    (fun a u => [(a.w 16 % 4 ≠ 0 || a.h 20 % 4 ≠ 0 || a.h 20 < 4 || 992 < a.h 20 || a.dirty 22 2, 0x104), (u.hub.cfg.fw.isNone, 0x117),
        (u.hub.cfg.fw.any (fun t => t.len < a.w 16 + a.h 20), 0x104)]) :=
  ⟨heard rfl rfl rfl (by decide), rfl⟩

theorem test_clear_sleepNotice : Clear 7 1 (fun _ => 20) ([]) up
    (fun _ _ => []) :=
  ⟨heard rfl rfl rfl (by decide), rfl⟩

theorem test_clear_linkReset : Clear 7 2 (fun _ => 24) ([255, 1, 0, 0]) up
    (fun a _ => [(1 < a.b 17 || a.dirty 18 2, 0x104)]) :=
  ⟨heard rfl rfl rfl (by decide), rfl⟩

theorem test_clear_reset : Clear 7 3 (fun _ => 28) ([2, 0, 0, 0] ++ le 4 0x7A5C) up
    (fun a u => [(a.b 16 ≠ 0 && u.noHalf (a.b 16 - 1), 0x103),
        (2 < a.b 16 || a.dirty 17 3 || a.w 20 ≠ 0x7A5C, 0x104), (!u.stopped, 0x102)]) :=
  ⟨heard rfl rfl rfl (by decide), rfl⟩

theorem test_clear_logRead : Clear 7 4 (fun _ => 28) (le 4 0 ++ le 2 30 ++ zeros 2) up
    (fun a _ => [(a.h 20 < 1 || 30 < a.h 20 || a.dirty 22 2, 0x104)]) :=
  ⟨heard rfl rfl rfl (by decide), rfl⟩
/-! ### Hypotheses that something meets: firmware, link, notifications -/

/-- The module in READY with a change in the link. -/
def upL (f : HostLink → HostLink) : State := upU (fun u => { u with link := f u.link })

/-- The module in READY with the boot state changed. -/
def upB (f : BootSt → BootSt) : State := upU (fun u => { u with boot := f u.boot })

/-- Bytes with their CRC behind them. -/
def sealed (b : List Byte) : List Byte := b ++ leW (crc32c b)

theorem test_has_owner : ∃ s t, Machine.step s = .next t ∧ owned [1] s :=
  ⟨upU (fun u => { u with flash := { u.flash with owner := some [1] } }), _, rfl, rfl⟩
theorem test_has_step : ∃ t, Machine.step up = .next t := ⟨_, rfl⟩
theorem test_has_one_active : oneActive up ∧ ∃ t, Machine.step up = .next t := ⟨fun h => absurd h.2 (by decide), _, rfl⟩
theorem test_has_empty_queue : up.pending = [] := rfl
theorem test_has_exec : (∃ t, Machine.exec .tcxoFail up = .next t) ∧ setsFrame .tcxoFail = false := ⟨⟨_, rfl⟩, rfl⟩
theorem test_has_tick : up.clocked = true ∧ (upB (fun b => { b with awake := false })).clocked = false ∧ up.live .A = true ∧
    up.live .B = true ∧ up.hubOn = true := ⟨rfl, rfl, rfl, rfl, rfl⟩

theorem test_has_overrun : (upU (fun u => { u with noBg := Vector.replicate 4 true })).hub.noBg.get 0 = true ∧ 8000 < 8001 ∧ 8000 ≤ 8000 ∧
    (let s := upU (fun u => { u with behind := Vector.replicate 4 (some 1), owed := put1 (Vector.replicate 4 none) 3 (some 1) })
     s.hub.behind.get 2 = some 1 ∧ s.now < 1 ∧ s.hub.owed.get 3 = some 1 ∧ (∀ m, m ≠ 3 → s.hub.owed.get m = none) ∧ (0 : Nat) < 1 ∧ 1 ≤ 1) ∧
    (upU (fun u => { u with behind := Vector.replicate 4 (some 0) })).hub.behind.get 2 = some 0 ∧ 0 ≤ up.now ∧
    (fun id : HalfId => decide (id = .A ∧ id = .B)) .A = false := by
  decide +kernel

theorem test_has_no_late_foreground : ∀ n, (up.hub.owed.get n).all (fun e => up.now + 1 < e) = true := by decide +kernel

theorem test_has_cold_boots :
    (∃ t, Machine.exec .coldBoot up = .next t) ∧ (up.hub.flash.endTrials.2 = false ∨ up.hub.boot.warm = false) := ⟨⟨_, rfl⟩, .inr rfl⟩

theorem test_has_misfit : misfit { msg [] with t := .eth1, len := 21 } = true ∧ up.serves .eth1 = true ∧ misfit (msg []) = false ∧
    (1#8).toNat = (1 : Fin 8).1 := ⟨rfl, rfl, rfl, rfl⟩

theorem test_has_alive : up.hub.link.alive.get 7 = none ∧
    (∀ a, (upL (fun l => { l with alive := Vector.replicate 8 (some a) })).hub.link.alive.get 7 = some a) ∧
    ((msg []).alive - 0).toNat = 1 ∧ ((msg []).alive - 0xFFFF).toNat = 2 ∧ ((msg []).alive - 1).toNat = 0 ∧
    ((msg []).alive - 0x8001).toNat = 32768 ∧ ((msg []).alive - 0xFFFE).toNat = 3 ∧ ((msg []).alive - 0x8002).toNat = 32767 :=
  ⟨rfl, fun _ => rfl, rfl, rfl, rfl, rfl, rfl, rfl⟩

theorem test_has_refusals :
    (upB (fun b => { b with stage := 5 })).stageRefuses 0 1 = some 0x10 ∧ (upB (fun b => { b with stage := 6 })).stageRefuses 0 1 = some 0x11 ∧
    up.stageRefuses 0 1 = none ∧
    32 ≤ ((upL (fun l => { l with reqs := List.replicate 32 ⟨4, 7, 1, false, none⟩ })).hub.link.reqs.filter (fun r => r.mb = 4)).length ∧
    (let mine := (upL (fun l => { l with reqs := [⟨4, 7, 1, false, none⟩] })).hub.link.reqs.filter (fun r => r.mb = 4)
     mine.length < 32 ∧ mine.any (fun r => r.seq = 7) = true ∧ mine.any (fun r => r.seq = 8) = false) :=
  ⟨rfl, rfl, rfl, by decide, by decide, rfl, rfl⟩

theorem test_has_lone_request : up.hub.link.reqs.filter (fun r => r.mb = 4) = [] ∧ (taken 4 2 (msg (zeros 4)) up).hub.link.cq.length < 256 ∧
    (upL (fun l => { l with reqs := [⟨3, 6, 1, false, none⟩, ⟨3, 7, 1, false, none⟩] })).hub.link.reqs.filter (fun x => x.mb = 3) =
      [⟨3, 6, 1, false, none⟩, ⟨3, 7, 1, false, none⟩] ∧ (6 : BitVec 16) ≠ 7 ∧ up.hub.link.cq.length ≤ 256 :=
  ⟨rfl, by decide, rfl, by decide, by decide⟩

theorem test_has_weir_queues : (up.hub.weir.queues.get 3).length < 1024 ∧ up.a.evq.length ≤ 256 ∧
    (∀ q : Fin 4, (up.hub.weir.queues.get q).length ≤ 1024) ∧ (2 : Fin 4) ≠ 3 ∧
    1024 ≤ ((upU (fun u => { u with weir := { u.weir with
      queues := Vector.replicate 4 (List.replicate 1024 ⟨0, 0, 0, false, false, false, 0, 0, 0, false⟩) } })).hub.weir.queues.get 0).length := by
  refine ⟨by decide, by decide, by decide, by decide, ?_⟩
  show 1024 ≤ (List.replicate 1024 _).length
  rw [List.length_replicate]

theorem test_has_notification : (upL (fun l => { l with dgAt := [5] })).serves .eth1 = true ∧
    (upL (fun l => { l with dgAt := [5] })).hub.link.dgAt = [5] ∧ up.serves .spi = true ∧
    ((0 : BitVec 16) - up.hub.link.head).toNat ≤ (up.hub.link.tail - up.hub.link.head).toNat := ⟨rfl, rfl, rfl, by decide⟩

theorem test_has_faulty_stream : up.clocked = true ∧ up.hub.link.faulty.get 8 = false ∧
    (upL (fun l => { l with faulty := Vector.replicate 9 true })).hub.link.faulty.get 8 = true := ⟨rfl, rfl, rfl⟩

theorem test_has_buffer : up.serves .spi = true ∧ up.reqBusy = false ∧ 1023 + [0#8].length ≤ 1024 ∧
    (upL (fun l => { l with busy := some 1 })).reqBusy = true ∧ crcOk ((sealed (zeros 4)).take 8) = true ∧ crcOk ((zeros 8).take 8) = false :=
  ⟨rfl, rfl, by decide, rfl, by decide +kernel, by decide +kernel⟩

theorem test_has_discarded : up.serves .eth1 = true ∧ up.serves .eth2 = true ∧ zeros 8 ≠ [] ∧ crcOk (zeros 8) = false ∧
    19 ≠ u16 (sealed (zeros 16)) 6 ∧ 8 ≤ (8#8).toNat ∧ known 1 2 = false ∧
    (∃ u, up.hear 1 2 (msg []) = (u, true) ∧ u.stageRefuses 1 2 = none) :=
  ⟨rfl, rfl, by decide, by decide +kernel, by decide +kernel, by decide, rfl, _, rfl, rfl⟩

theorem test_has_management : up.serves .eth1 = true ∧
    (let b := sealed ([3, 0] ++ le 2 0x024 ++ le 2 4 ++ zeros 2); crcOk b = true ∧ byteAt b 0 = 3 ∧ b.length = 12 ∧ u16 b 4 = 4) ∧
    (let b := sealed ([3, 0] ++ le 2 0x024 ++ le 2 6 ++ zeros 2); crcOk b = true ∧ byteAt b 0 = 3 ∧ b.length = 12 ∧ u16 b 4 % 4 ≠ 0) ∧
    (let b := sealed ([2, 0] ++ le 2 0x088 ++ le 2 4 ++ zeros 6); crcOk b = true ∧ byteAt b 0 = 2 ∧ b.length = 12 + u16 b 4 ∧ u16 b 4 = 4 ∧ u16 b 2 = 0x088) ∧
    (let b := sealed ([2, 0] ++ le 2 0x024 ++ le 2 4 ++ zeros 6); crcOk b = true ∧ byteAt b 0 = 2 ∧ b.length = 12 + u16 b 4 ∧ u16 b 4 = 4 ∧ u16 b 2 ≠ 0x088) :=
  ⟨rfl, by decide +kernel, by decide +kernel, by decide +kernel, by decide +kernel⟩

/-! ### Receivers, tracker, links, calibrations -/

/-- The module in READY with every receiver of half A the same. -/
def upR (r : Rcv) : State := upA (fun h => { h with rcv := Vector.replicate 6 r })

/-- A receiver that works. -/
def rcvOn : Rcv := { Rcv.reset with cfg0 := putB true 31 }

/-- The module in READY with a change in the tracker of half A. -/
def upT (f : Trk → Trk) : State := upA (fun h => { h with trk := f h.trk })

/-- A unit that knows its place, with one interval of 100 et. -/
def unitOn : TUnit := { TUnit.seek (some .ckd) with known := true, hasLast := true, hist := [25600] }

theorem test_has_receiver : (upR rcvOn).live .A = true ∧ wrxCfg0En (((upR rcvOn).half .A).rcvOf .aux2).cfg0 = true ∧
    wrxCfg0En ((up.half .A).rcvOf .ckf).cfg0 = false ∧ ((up.half .A).revOf .ckf).failed = false ∧
    ((upR { rcvOn with blankEnd := 1 }).half .A).now < (((upR { rcvOn with blankEnd := 1 }).half .A).rcvOf .ckf).blankEnd ∧
    (((upR { rcvOn with accAt := [0], lastInt := 10 }).half .A).decayAt .ckf).isSome = true :=
  ⟨rfl, rfl, rfl, rfl, by decide, rfl⟩

/-- An edge with a lobe. -/
def edgeOf (pol : Bool) (pk : Nat) : EdgeIn := ⟨0, pol, pk, 0, 0, false⟩

theorem test_has_edges_passed_over :
    (let r := (up.a.dueGates 3).rcvOf .ckf; wrxCfg0En r.cfg0 = false) ∧
    (let r := ((upR rcvOn).a.dueGates 3).rcvOf .ckf
     r.selects (seenBy r (edgeOf true 9)).pol = false ∧ r.changes (seenBy r (edgeOf false 0)) = false) ∧
    (let g := (upR { rcvOn with blankEnd := 1 }).a.dueGates 3; g.now < (g.rcvOf .ckf).blankEnd) ∧
    wrxCfg0Mode rcvOn.cfg0 = false ∧ wrxCfg0Mode (putB true 30) = true ∧ (Inp.ckf ≠ .ckd) := by
  decide +kernel

theorem test_has_blanked_edges :
    (let r := ((upR { rcvOn with blankEnd := 1 }).half .A).rcvOf .ckf
     r.changes (seenBy r ⟨0, r.afterEdge != wrxCfg0Invert r.cfg0, 65535, 0, 0, false⟩) = true ∧
       r.changes (seenBy r ⟨0, r.afterEdge != wrxCfg0Invert r.cfg0, 0, 0, 0, false⟩) = false) ∧
    (upA (fun h => { h with cfg := { h.cfg with ens := [.ckf] } })).a.cfg.ens.contains .ckf = true := by decide +kernel

theorem test_has_wiring_set :
    (let h := (upA (fun h => { h with rcv := Vector.replicate 6 { rcvOn with cfg1 := putB true 7 }, trk := { h.trk with st := 4 }, now := 400000000 })).a
     h.wiringTest .ckf .openCircuit 0 1001 240 = true ∧ h.wiringTest .ckf .silent 0 0 240 = true ∧ (h.rcvOf .ckf).wir.opn = false ∧
       h.wiringTest .ckf .openCircuit 0 1000 240 = false) ∧
    ({ rcvOn.wir with opn := true } : Wiring).bad = true ∧ (Inp.ckd ≠ .ckf) := by decide +kernel

theorem test_has_wiring_clear :
    (let h := (upA (fun h => { h with rev := Vector.replicate 6 { RevChk.reset with failed := true } })).a
     h.wiringTest .ckf .openCircuit 0 0 240 = false ∧ h.failed .ckf = true ∧ h.failCond .ckf = false ∧ (h.revOf .ckf).clearAt = none) ∧
    (up.a.failed .ckf && !up.a.failCond .ckf && (up.a.revOf .ckf).clearAt.isNone) = false ∧
    (upT (fun t => { t with sec := { t.sec with inp := some .ckf } })).a.trk.sec.inp = some .ckf := by decide +kernel

theorem test_has_disagreement :
    (upU (fun u => { u with disAt := Vector.replicate 6 (some (3, false)) })).hub.disAt.get 5 = some (3, false) ∧
    (let s := up; s.live .A = true ∧ s.live .B = true ∧ s.a.links.leat.up = true ∧ s.b.links.leat.up = true ∧
      (s.a.rcvOf .ckf).wir.bad = (s.b.rcvOf .ckf).wir.bad ∧ s.hub.disAt.get 0 = none) := ⟨rfl, rfl, rfl, rfl, rfl, rfl, rfl⟩

theorem test_has_wiring : up.live .A = true ∧ (up.half .A).wiringTest .ckf .openCircuit 0 0 240 = false ∧
    (let h := (upA (fun h => { h with rev := Vector.replicate 6 { RevChk.reset with failed := true, clearAt := some 9 } })).half .A
     (h.revOf .cma).failed = true ∧ h.failCond .cma = false ∧ h.inputHeld .cma = false ∧ (h.revOf .cma).clearAt = some 9) ∧
    (let s := upR { rcvOn with wir := { rcvOn.wir with opn := true } }
     s.live .A = true ∧ s.live .B = true ∧ s.a.links.leat.up = true ∧ s.b.links.leat.up = true ∧
       (s.a.rcvOf .ckd).wir.bad ≠ (s.b.rcvOf .ckd).wir.bad) := by
  exact ⟨rfl, rfl, ⟨rfl, rfl, by decide +kernel, rfl⟩, rfl, rfl, rfl, rfl, by decide⟩

theorem test_has_tracker_timers :
    (let s := upT (fun t => { t with src := unitOn, st := 2 })
     s.live .A = true ∧ s.a.trk.src.known = true ∧ s.a.trk.runs = true ∧ s.a.trk.swPend = false ∧ (s.a.gateEnd s.a.trk.src).isSome = true ∧
       s.a.trk.st ≠ 0 ∧ s.a.trk.inLimp = false) ∧
    (let s := upT (fun t => { t with sec := unitOn }); s.a.trk.sec.known = true ∧ (s.a.gateEnd s.a.trk.sec).isSome = true) ∧
    (let s := upA (fun h => { h with fg := { h.fg with osTrip := true, osLast := some 3 } }); s.a.fg.osTrip = true ∧ s.a.fg.osLast = some 3) ∧
    (let s := upU (fun u => { u with cal := { u.cal with diags := [⟨(7, false), .A, .ckf, 1, [], 9⟩] } })
     s.hub.cal.diags.find? (fun d => d.h = .A) = some ⟨(7, false), .A, .ckf, 1, [], 9⟩) ∧ up.a.trk.fires = false ∧ (7 : Nat) ≠ 0 :=
  ⟨⟨rfl, rfl, rfl, rfl, rfl, by decide, rfl⟩, ⟨rfl, rfl⟩, ⟨rfl, rfl⟩, rfl, rfl, by decide⟩

theorem test_has_gates :
    (let h := (upT (fun t => { t with src := { unitOn with inp := some .ckd }, st := 2 })).a
     h.srcGated = true ∧ h.trk.src.inp = some .ckd ∧ (h.predInt h.trk.src).isSome = true ∧
       h.trk.src.cand = none ∧ h.trk.src.bad = 0 ∧ h.trk.st ≠ 5 ∧ h.trk.inLimp = false) ∧ up.a.srcGated = false ∧
    1 ≤ ({ unitOn with bad := 1 } : TUnit).bad ∧
    (let h := (upT (fun t => { t with st := 6, phase := { t.phase with edges := [(5, false)] } })).a
     h.trk.st ≠ 0 ∧ h.trk.inLimp = true ∧ h.trk.phase.edges = [(5, false)]) := by decide +kernel

theorem test_has_speeds : (∀ r, up.a.rpmOf { unitOn with hist := [] } = some r → 9 / 2 ≤ r ∧ r ≤ 3300) ∧
    (up.a.rpmOf { unitOn with hist := [256] }).any (fun r => 3300 < r) = true ∧
    (up.a.rpmOf { unitOn with hist := [10 ^ 12] }).any (fun r => r < 9 / 2) = true := by
  refine ⟨fun r h => ?_, by decide +kernel, by decide +kernel⟩
  have : up.a.rpmOf { unitOn with hist := [] } = none := by decide +kernel
  rw [this] at h; cases h

theorem test_has_twist : up.a.trk.dir.read = false ∧ up.a.tws.mode ≠ 4 ∧
    (upT (fun t => { t with src := { t.src with inp := some .ckf } })).a.srcIsF = true ∧ up.a.srcIsF = false ∧
    (upA (fun h => { h with tws := { h.tws with mode := 4 } })).a.tws.mode = 4 ∧
    (let s := upU (fun u => { u with cal := { u.cal with diags := [⟨(7, false), .A, .ckf, 1, [], 0⟩] } })
     s.hub.cal.diags = [⟨(7, false), .A, .ckf, 1, [], 0⟩] ∧ 0 ≤ s.now) := by decide +kernel

theorem test_has_leat_counters : up.hubOn = true ∧ up.hub.leat.get 0 = none ∧
    (∀ a, (upU (fun u => { u with leat := Vector.replicate 2 (some a) })).hub.leat.get 1 = some a) ∧ ((1 : BitVec 16) - 0).toNat = 1 ∧
    ((1 : BitVec 16) - 0xFFFF).toNat = 2 ∧ ((1 : BitVec 16) - 1).toNat = 0 ∧ ((1 : BitVec 16) - 0x8001).toNat = 32768 ∧
    ((1 : BitVec 16) - 0xFFFE).toNat = 3 := ⟨rfl, rfl, fun _ => rfl, rfl, rfl, rfl, rfl, rfl⟩

theorem test_has_open_calibrations :
    (let t : TwistRun := ⟨(7, false), false, 8, 0, [1], 0, 9, List.replicate 63 ⟨1, 0, 0⟩, [], [], none⟩
     t.cyls.all (fun c => 64 ≤ (t.of c).length) = false) ∧
    (⟨(7, false), alignSpan - 1, 0, 0, 64, 0, 0, 0⟩ : AlignRun).trav < alignSpan := ⟨by decide +kernel, by decide⟩

theorem test_has_heartbeat : up.hubLinks = true ∧ up.a.links.hub.valid ⟨true, 5, 0, 0, true, 0, 0, false, []⟩ = true ∧ up.a.links.hub.up = true ∧
    up.a.links.leat.valid ⟨true, 5, 0, 0, true, 0, 0, false, []⟩ = true ∧ up.a.links.leat.up = true ∧
    up.a.links.hub.valid ⟨false, 5, 0, 0, true, 0, 0, false, []⟩ = false ∧
    (⟨false, 0, 15, none, false⟩ : LinkSt).valid ⟨true, 5, 0, 0, true, 0, 0, false, []⟩ = true := ⟨rfl, rfl, rfl, rfl, rfl, rfl, rfl⟩

theorem test_has_calibration :
    (let r : AlignRun := ⟨(7, false), alignSpan, 0, 0, 64, 0, 0, 0⟩
     let s := upU (fun u => { u with cal := { u.cal with align := some r } })
     s.hubOn = true ∧ s.hub.cal.align = some r ∧ alignSpan ≤ r.trav ∧ (r.result (s.half s.primary)).1.natAbs ≤ 65536) ∧
    65536 < ((⟨(7, false), alignSpan, 0, 64 * 65537, 64, 0, 0, 0⟩ : AlignRun).result up.a).1.natAbs ∧
    (let t : TwistRun := ⟨(7, false), false, 8, 0, [1], 0, 9, List.replicate 64 ⟨1, 0, 0⟩, [], [], none⟩
     t.cyls.all (fun c => 64 ≤ (t.of c).length) = true) := by
  exact ⟨⟨rfl, rfl, by decide, by decide +kernel⟩, by decide +kernel, rfl⟩

/-! ### Slots, drives, pins, floodgate -/

/-- The module in READY with every slot of half A the same, and its tracker in a state. -/
def upS (st : Nat) (x : Slot) : State := upA (fun h => { h with slots := Vector.replicate 1024 x, trk := { h.trk with st := st } })

/-- A slot in a state with an action. -/
def slotIn (st act : Nat) : Slot := { Slot.empty true with st := st, c := { SlotC.zero with w1 := put act 4 4 } }

/-- The module in READY with every drive pair of half A the same. -/
def upP (p : Pair) : State := upA (fun h => { h with pairs := Vector.replicate 24 p })

theorem test_has_slots : (upS 4 (slotIn 3 3)).live .A = true ∧
    (let h := (upS 4 (slotIn 3 3)).a
     (h.slots.get 0).st = 3 ∧ h.trk.fires = true ∧ h.trk.inLimp = false ∧ h.etToAngle (h.slots.get 0) = some 0 ∧
       h.remaining (h.slots.get 0) ≤ 0) ∧
    (let x := (upS 4 (slotIn 4 3)).a.slots.get 0; x.st = 4 ∧ x.c.action = 3) ∧ ((upS 4 (slotIn 5 3)).a.slots.get 0).st = 5 ∧
    ((upS 4 (slotIn 1 3)).a.slots.get 0).st ≠ 2 ∧ ((upS 4 (slotIn 4 3)).a.slots.get 0).st ≠ 5 ∧
    (let h : Half := { (upS 4 (slotIn 4 4)).a with pairs := Vector.replicate 24 { Pair.reset with slot := some 5 } }
     let x := h.slots.get 0
     x.st = 4 ∧ x.c.action = 4 ∧ (h.activeDrive (pairOf x.c.chan)).isSome = true ∧ x.deferred = none ∧ x.c.oneshot = false ∧
       x.freeSeq = [] ∧ x.spoil = false) :=
  ⟨rfl, ⟨rfl, rfl, rfl, rfl, by decide⟩, ⟨rfl, rfl⟩, rfl, by decide, by decide, rfl, rfl, rfl, rfl, rfl, rfl, rfl⟩

/-- Slot 0 of a half one slot, the others another. -/
def mixed (x y : Slot) : Vector Slot 1024 := ⟨⟨x :: List.replicate 1023 y⟩, by
  show (List.replicate 1023 y).length + 1 = 1024
  rw [List.length_replicate]⟩

theorem test_has_loads_of_the_hopper :
    (let h := (upS 4 (slotIn 2 3)).a
     let x := h.slots.get 0
     x.st = 2 ∧ h.remaining x ≤ h.lookahead ∧ h.trk.fires = true ∧ x.cause = 0#16 ∧ x.waits = false) ∧
    (upS 4 (slotIn 2 3)).a.occ 0 < 16 ∧
    (let h : Half := { up.a with slots := mixed (slotIn 2 3) (slotIn 3 3) }; 16 ≤ h.occ 0 ∧ (h.slots.get 0).st = 2) ∧
    ((upS 4 (slotIn 1 3)).a.slots.get 0).st ≠ 2 := by decide +kernel

theorem slots_alike (st : Nat) (x : Slot) (j : Fin 1024) : (upS st x).a.slots.get j = x := by
  show (Vector.replicate 1024 x).get j = x
  simp [Vector.get]

theorem test_has_first_in_the_hopper : (upS 4 (slotIn 2 3)).a.firstWaiting 0 = true := by
  unfold Half.firstWaiting
  rw [List.all_eq_true]
  intro j _
  simp only [slots_alike]
  by_cases c : j = 0
  · simp [c]
  · have : 0 < j.1 := Nat.pos_of_ne_zero (fun e => c (Fin.ext e))
    simp [this]

theorem test_has_edges_of_slots :
    (∀ act ∈ [1, 3, 4], let h := (upS 4 (slotIn 4 act)).a
     let x := h.slots.get 0
     x.st = 4 ∧ x.c.action = act ∧ x.deferred = none ∧ x.c.oneshot = false ∧ x.owed = false ∧ x.freeSeq = [] ∧ x.spoil = false) ∧
    (let x := (upS 4 (slotIn 5 3)).a.slots.get 0; x.st = 5 ∧ x.c.action = 3 ∧ x.owed = false) := by decide +kernel

theorem test_has_no_edge_before : (upS 4 (slotIn 4 3)).a.before 0 = [] := by
  unfold Half.before
  simp only [slots_alike, List.flatMap_eq_nil_iff, List.filter_eq_nil_iff]
  intro r _ j _ h
  simp at h
  omega

theorem test_has_drives : (upP { Pair.reset with srcGap := true }).live .A = true ∧
    ((upP { Pair.reset with srcGap := true }).a.pairs.get 23).srcGap = true ∧ ((upP { Pair.reset with bstGap := true }).a.pairs.get 0).bstGap = true ∧
    (let x := (upP { Pair.reset with blank := true, phase := 3 }).a.pairs.get 0; x.blank = true ∧ x.bstGap = false ∧ x.phase ≠ 7 ∧ x.phase = 3) ∧
    (let x := (upP { Pair.reset with pair := putB true 20 }).a.pairs.get 0; x.phase = 7 ∧ drvPairStuckEn x.pair = true) ∧
    (let x := (upP { Pair.reset with phase := 5 }).a.pairs.get 0; x.phase = 5 ∧ x.blank = false ∧ x.bstGap = false ∧ x.loLat = false) ∧
    (let h : Half := { (upP { Pair.reset with phase := 0 }).a with now := 16 }
     (h.pairs.get 0).phase = 0 ∧ (h.pairs.get 0).phase ≠ 5 ∧ (h.pairs.get 0).phase ≠ 7 ∧ (h.pairs.get 0).pinAt + 16 ≤ h.now) ∧ (1 : Fin 24) ≠ 0 :=
  ⟨rfl, rfl, rfl, ⟨rfl, rfl, by decide, rfl⟩, ⟨rfl, rfl⟩, ⟨rfl, rfl, rfl, rfl⟩, ⟨rfl, by decide, by decide, by decide⟩, by decide⟩

/-- The module in READY, its pairs alike, every profile of half A with one first word for each phase. -/
def upF (w : Word) (p : Pair) : State :=
  upA (fun h => { h with pairs := Vector.replicate 24 p, profs := Vector.replicate 32 (Vector.replicate 16 w) })

theorem test_has_phases :
    (let h := (upF (put 1 2 10) { Pair.reset with phase := 1 }).a
     let x := h.pairs.get 3
     x.blank = false ∧ x.bstGap = false ∧ x.hiLat = false ∧ x.phase = 1 ∧ h.exitOf 3 = 1) ∧
    (let h := (upF (put 2 2 10) { Pair.reset with phase := 4 }).a
     let x := h.pairs.get 3
     x.phase = 4 ∧ h.exitOf 3 = 2 ∧ x.blank = false ∧ x.bstGap = false ∧ x.loLat = false) ∧
    (∀ b, let h := { (upF (putB true 9 ||| 1) { Pair.reset with phase := 2, ls := b }).a with now := 20 }
     let x := h.pairs.get 3
     2 ≤ x.phase ∧ x.phase ≤ 3 ∧ x.blank = false ∧ x.bstGap = false ∧ x.srcGap = false ∧ x.ls = b ∧
       phBChop (phWordB (h.pairProf 3) x.phase) = true ∧ x.lsAt + phBChopMin (phWordB (h.pairProf 3) x.phase) * 20 ≤ h.now) ∧
    (let x := (upP { Pair.reset with srcGap := true, phase := 3 }).a.pairs.get 0; 2 ≤ x.phase ∧ 1 ≤ x.phase ∧ x.phase ≤ 3 ∧ x.srcGap = true) ∧
    (2 : Fin 24) ≠ 3 := by decide +kernel

theorem test_has_drivers :
    (let h := (upA (fun h => { h with fg := { h.fg with latch := false }, chans := Vector.replicate 48 { Chan.reset with out := put 4 3 29 } })).a
     h.driverOff 0 = false ∧ (h.chans.get 0).shortHi = false ∧ h.pinLevel 0 = false) ∧ up.a.driverOff 47 = true ∧
    (∀ b, let c : Chan := { Chan.reset with shortHi := b, shortLo := b, mismatch := b }; c.shortHi = b ∧ c.shortLo = b ∧ c.mismatch = b) := by
  decide +kernel

theorem test_has_latches : (upA (fun h => { h with fg := { h.fg with latch := false } })).a.fg.latch = false ∧ up.a.fg.latch = true ∧
    (upU (fun u => { u with fg := { u.fg with st := 2 } })).hub.fg.st = 2 ∧ (upU (fun u => { u with fg := { u.fg with st := 1 } })).hub.fg.st = 1 ∧
    (let x : FgHub := { up.hub.fg with fga := true }; x.fga = true ∧ x.hiAt = none) ∧
    (upU (fun u => { u with fg := { u.fg with diffAt := some 4 } })).hub.fg.diffAt = some 4 := ⟨rfl, rfl, rfl, rfl, ⟨rfl, rfl⟩, rfl⟩

theorem test_has_pins : up.live .B = true ∧ ((up.half .B).chans.get 47).mismatch = false ∧ ((up.half .B).chans.get 47).shortHi = false ∧
    (up.half .B).pinLevel 47 = false ∧
    (let h := (upA (fun h => { h with fg := { h.fg with latch := false }, chans := Vector.replicate 48 { Chan.reset with out := put 4 3 29 ||| putB true 25 } })).half .A
     (h.chans.get 0).shortLo = false ∧ h.pinLevel 0 = true) := ⟨rfl, rfl, rfl, rfl, rfl, rfl⟩

/-! ### Weir, acquisition, calibration steps -/

/-- The module in READY with comparator G11 of half A a level source, and that source's bookkeeping. -/
def upW (l : LvlSrc) : State :=
  { upA (fun h => { h with cfg := { h.cfg with xcLevel := [11], psfOn := [3] } }) with
    hub := { up.hub with weir := { up.hub.weir with levels := [l] } } }

theorem test_has_levels :
    (let s := upW ⟨0x11B, 0, false, false, 0⟩
     s.clocked = true ∧ s.isLevel 0x11B = true ∧ (s.hub.weir.level 0x11B).st = 0 ∧ (s.hub.weir.srcOf 0x11B).1 = true ∧
       (s.weirMap (WeirSt.setLevel { (s.hub.weir.level 0x11B) with live := true })).hasRoom 0x11B = true) ∧
    (let l := (upW ⟨0x11B, 1, true, false, 0⟩).hub.weir.level 0x11B; l.st ≠ 0 ∧ l.st = 1 ∧ l.asked = false ∧ l.live = true) ∧
    (let l := (upW ⟨0x11B, 1, false, false, 0⟩).hub.weir.level 0x11B; l.st = 1 ∧ l.asked = false ∧ l.live = false) ∧
    (let s := upW ⟨0x103, 0, false, false, 0⟩; s.live .A = true ∧ s.isLevel 0x103 = true ∧ 0x103 = HalfId.A.weirBase + 3) ∧
    srcHalf 0x0FF = none ∧ srcHalf 0x900 = none ∧ up.hub.weir.srcOf 0x0FF = (true, 1) ∧ srcHalf 0x100 = some (.A, 0) ∧ srcHalf 0x8FF = some (.B, 0x3FF) ∧
    up.live .B = true :=
  ⟨⟨rfl, rfl, rfl, rfl, rfl⟩, ⟨by decide, rfl, rfl, rfl⟩, ⟨rfl, rfl, rfl⟩, ⟨rfl, rfl, rfl⟩, rfl, rfl, rfl, rfl, rfl, rfl⟩

theorem test_has_levels_unrecorded :
    (let s := upW ⟨0x11B, 0, false, false, 0⟩
     let t : State := { s with hub := { s.hub with weir := { s.hub.weir with
       queues := Vector.replicate 4 (List.replicate 1024 ⟨0, 0, 0, false, false, false, 0, 0, 0, false⟩) } } }
     (t.weirMap (WeirSt.setLevel { (t.hub.weir.level 0x11B) with live := true })).hasRoom 0x11B = false) ∧
    (let s := upW ⟨0x11B, 0, false, false, 0⟩
     ({ s with hub := { s.hub with weir := { s.hub.weir with srcs := [(0x11B, false, 0)] } } } : State).hub.weir.srcOf 0x11B = (false, 0)) := by decide +kernel

theorem test_has_lost_levels :
    (let s := upW ⟨0x11B, 0, false, false, 0⟩
     let full : State := { s with hub := { s.hub with weir := { s.hub.weir with
       queues := Vector.replicate 4 (List.replicate 1024 ⟨0, 0, 0, false, false, false, 0, 0, 0, false⟩) } } }
     full.hubRoom 0x11B = false ∧ full.ownRoom 0x11B = true ∧ s.hubRoom 0x11B = true) ∧
    (upA (fun h => { h with evq := List.replicate 256 ⟨0, 0, 0, false, false, false, 0, 0, 0, false⟩ })).ownRoom 0x11B = false ∧
    up.reach .A = true ∧ (upA (fun h => { h with links := { h.links with path := false } })).reach .A = false := by decide +kernel

/-- The module in READY with a change in the acquisition of half A. -/
def upQ (f : Acq → Acq) : State := upA (fun h => { h with acq := f h.acq })

theorem test_has_acquisition : up.live .A = true ∧
    ((upA (fun h => { h with acq := { h.acq with aclk := putB true 31 }, trk := { h.trk with st := 4, src := { h.trk.src with inc := 1 } } })).a.aclkNext).isSome = true ∧
    acqTmrEn ((upQ (fun a => { a with tmr := Vector.replicate 4 (putB true 31) })).a.acq.tmr.get 3) = true ∧
    ((upQ (fun a => { a with lines := Vector.replicate 32 ⟨0, 0, [⟨0, 5, false, none⟩]⟩ })).a.acq.lines.get 31).stage = [⟨0, 5, false, none⟩] ∧
    (let r : Run := ⟨⟨0, 0, 0, false, none⟩, 0, [], 9, false, 0, [], [], none⟩
     ((upQ (fun a => { a with seqs := Vector.replicate 9 ⟨0, some r, [], [r], none⟩ })).a.acq.seqs.get 8).run = some r ∧
     ((upQ (fun a => { a with seqs := Vector.replicate 9 ⟨0, some r, [], [r], none⟩ })).a.acq.seqs.get 8).toWrite = [r]) ∧
    xcCfgEn (up.a.acq.xc.get 11).cfg = false ∧
    (let x := (upQ (fun a => { a with xc := Vector.replicate 12 ⟨putB true 31 ||| put 2 2 29, 0, false, false, 0⟩ })).a.acq.xc.get 11
     xcCfgEn x.cfg = true ∧ xcCfgEdge x.cfg = 2) ∧
    (let h := (upQ (fun a => { a with seqs := Vector.replicate 9 ⟨0, none, [], [], some (3, 7, false)⟩ })).a
     (h.acq.seqs.get 8).mask = some (3, 7, false) ∧ h.seqIdle 8 = true) :=
  ⟨rfl, rfl, rfl, rfl, ⟨rfl, rfl⟩, rfl, ⟨rfl, rfl⟩, rfl, rfl⟩

theorem test_has_triggers :
    (let h := (upA (fun h => { h with acq := { h.acq with aclk := putB true 31 }, trk := { h.trk with st := 4 } })).a
     aclkCfgEn h.acq.aclk = true ∧ h.trk.fires = true ∧ h.acq.aclkAt = none) ∧
    (let a := (upQ (fun a => { a with tmr := Vector.replicate 4 (putB true 31 ||| 400) })).a.acq
     acqTmrEn (a.tmr.get 3) = true ∧ acqTmrPeriod (a.tmr.get 3) ≠ 0 ∧ a.tmrAt.get 3 ≤ 0) ∧
    (let h := (upQ (fun a => { a with calDone := true, lines := Vector.replicate 32 ⟨putB true 31 ||| put 2 3 28, 0, List.replicate 3 ⟨0, 0, false, none⟩⟩ })).a
     h.lineOn 31 = true ∧ (h.acq.lines.get 31).running h.now < 4 ∧ firstDue (h.acq.lines.get 31).stage = some ⟨0, 0, false, none⟩) ∧
    firstDue [⟨0, 9, false, none⟩, ⟨1, 5, false, none⟩] = some ⟨1, 5, false, none⟩ ∧
    (up.a.acq.seqs.get 8).run = none ∧ (up.a.acq.seqs.get 8).mask = none := by decide +kernel

theorem test_has_ends_of_sequences :
    (∀ rq : Req, let r : Run := ⟨⟨0, 0, 0, false, none⟩, 0, [0], 9, false, 0, [], [], none⟩
     let q : Seqr := ⟨0, some r, [rq], [r], none⟩
     q.run = some r ∧ q.held = [rq] ∧ q.toWrite = [r] ∧ r.endAt ≤ 9 ∧ r.req.pt = none) ∧
    (let r : Run := ⟨⟨0, 0, 0, false, none⟩, 0, [0], 9, false, 0, [], [], none⟩; r.doneAt 0 ≤ 400 ∧ r.hold = 0) := by
  refine ⟨fun rq => ⟨rfl, rfl, rfl, by decide, rfl⟩, by decide +kernel⟩

theorem test_has_enable_calibration : up.a.acq.calDone = false ∧ up.a.acq.calOn.any (·) = false ∧
    (upQ (fun a => { a with calDone := true })).a.acq.calDone = true := by decide +kernel

theorem test_has_group_steps :
    (let h := (upQ (fun a => { a with calDone := true, grps := Vector.replicate 3 ⟨0, 0, 0, 0, false, none, [(15, 7, false)], none, 0, none, [], 0⟩ })).a
     let d := h.acq.grps.get (grpIx .pGrp)
     d.stage = 0 ∧ h.acq.calDone = true ∧ d.asked = [(15, 7, false)] ∧ (h.calNextAt (grpIx .pGrp)).isSome = true) ∧
    (let h := (upQ (fun a => { a with calDone := true, calCfg := putB true 31, grps := Vector.replicate 3 ⟨0, 0, 0, 2, false, none, [], none, 0, none, [], 0⟩ })).a
     let d := h.acq.grps.get (grpIx .gGrp)
     d.stage = 0 ∧ d.asked = [] ∧ calCfgEn h.acq.calCfg = true ∧ d.susp = false ∧ h.calPick (grpIx .gGrp) (grpN (grpIx .gGrp) + 1) d.next = some 2) ∧
    (let h : Half := { (upQ (fun a => { a with grps := Vector.replicate 3 ⟨1, 1, 0, 0, false, none, [], none, 0, none, [], 0⟩ })).a with now := 64 * 8000 }
     let d := h.acq.grps.get (grpIx .iGrp)
     d.stage = 1 ∧ d.start + 160 ≤ h.now ∧ d.start + 64 * 8000 ≤ h.now ∧ h.seqIdle (sliceSeq (grpIx .iGrp) d.slice) = true ∧ d.perm = none) ∧
    (∀ b, let h : Half := { (upQ (fun a => { a with slices := Vector.replicate 23 ⟨0, b, 0, 0⟩, grps := Vector.replicate 3 ⟨1, 3, 0, 0, false, none, [], none, 0, some (5, 6), [], 0⟩ })).a with now := 160 }
     let d := h.acq.grps.get (grpIx .iGrp)
     d.stage = 3 ∧ d.endAt + 160 ≤ h.now ∧ (h.acq.slices.get (sliceIx (grpIx .iGrp) d.slice)).failed = b ∧ d.fresh = some (5, 6)) ∧
    up.hub.noBg.get HalfId.A.stew = false := by decide +kernel

theorem test_has_waiting_steps :
    (let h := (upQ (fun a => { a with grps := Vector.replicate 3 ⟨0, 2, 0, 0, false, none, [(1, 7, false)], none, 0, none, [(3, 0, none)], 0⟩ })).a
     let d := h.acq.grps.get (grpIx .pGrp)
     d.stage ≠ 1 ∧ d.stage ≠ 0 ∧ d.wait = [(3, 0, none)] ∧ d.asked = [(1, 7, false)]) ∧
    (up.a.acq.grps.get (grpIx .pGrp)).wait = [] := by decide +kernel

theorem test_has_tests_of_the_dac :
    (∀ n ∈ [0, 1], let t := (upQ (fun a => { a with tdac := { a.tdac with busy := true, cfg := put n 2 29 } })).a.acq.tdac
     t.busy = true ∧ tdacCfgTest t.cfg = n) ∧ 5000 < (5001 : Int) - 0 ∧ 500 < (501 : Int).natAbs ∧ 200 < (-201 : Int).natAbs := by decide +kernel

/-- A result of a stage. -/
def resultOf (b : Bool) : ResOut :=
  ⟨b, 0, 1, 0, 0, 0, none, none, none, none, none, none, none, none, none, none, none, 0, 0, none, false, 0⟩

theorem test_has_results : (up.a.ana.lanes.get 11).result .imep = none ∧ (up.a.ana.lanes.get 11).newest = none ∧ Stage.combustion ≠ .imep ∧
    [resultOf false, resultOf true].find? (fun r => r.imep = true) = some (resultOf true) ∧
    [resultOf false, resultOf true].find? (fun r => r.imep = false) = some (resultOf false) ∧
    ((upA (fun h => { h with ana := { h.ana with lanes := Vector.replicate 12 { Lane.reset with results := [resultOf false, resultOf true] } } })).a.ana.lanes.get 11).results =
      [resultOf false, resultOf true] := ⟨rfl, rfl, by decide, rfl, rfl, rfl⟩

theorem test_has_references : up.live .A = true ∧ 2000 ≤ 4500 ∧ 4750 ≤ 5250 ∧ 4075 < 4076 ∧ 4116 < 4117 ∧
    (let a := (upQ (fun a => { a with intOk := true, extOk := true, ssOk := Vector.replicate 12 true })).a.acq
     a.intOk = true ∧ a.extOk = true ∧ a.ssOk.get 11 = true) ∧ up.a.acq.intOk = false ∧ up.a.acq.extOk = false ∧ up.a.acq.ssOk.get 11 = false :=
  ⟨rfl, by decide, by decide, by decide, by decide, ⟨rfl, rfl, rfl⟩, rfl, rfl, rfl⟩

theorem test_has_cal_steps : (∀ n, ((upQ (fun a => { a with grps := Vector.replicate 3 ⟨0, n, 0, 0, false, none, [], none, 0, none, [], 0⟩ })).a.acq.grps.get 2).stage = n) ∧
    (2000 : Int).natAbs ≤ 2000 ∧ (-5000 : Int).natAbs ≤ 5000 ∧ 2000 < (-2001 : Int).natAbs ∧ 5000 < (5001 : Int).natAbs ∧ up.a.acq.tdac.busy = false :=
  ⟨fun _ => rfl, by decide, by decide, by decide, by decide, rfl⟩

/-! ### Sluice engines -/

/-- The module in READY with the engines of half A alike and their programs full of one word. -/
def upE (x : Sle) (w : BitVec 24) : State :=
  upA (fun h => { h with slu := { h.slu with eng := Vector.replicate 8 x, grp := Vector.replicate 2 ⟨Vector.replicate 48 w, Vector.replicate 48 w, false, 0, [], none, false, 0, 0⟩ } })

/-- An engine that runs. -/
def eng : Sle := { Sle.reset with st := 2 }

/-- An instruction word from its opcode and the bits below (R351). -/
def word (op n : Nat) : BitVec 24 := BitVec.ofNat 24 (op * 2 ^ 20 + n * 2 ^ 12)

theorem test_has_counts : ∀ n : Fin 8, Executes .A 7 (isCount n.1) (word 7 n.1) (upE eng (word 7 n.1)) := by
  intro n
  refine ⟨rfl, ?_, rfl, ?_⟩ <;> revert n <;> decide +kernel
theorem test_has_queues : ∀ n : Fin 5, Executes .A 0 (isQueue n.1) (word 4 n.1) (upE eng (word 4 n.1)) := by
  intro n
  refine ⟨rfl, ?_, rfl, ?_⟩ <;> revert n <;> decide +kernel
theorem test_has_signals : ∀ n : Fin 3, Executes .A 0 (isSignal n.1) (BitVec.ofNat 24 (8 * 2 ^ 20 + n.1 * 2 ^ 13)) (upE eng (BitVec.ofNat 24 (8 * 2 ^ 20 + n.1 * 2 ^ 13))) := by
  intro n
  refine ⟨rfl, ?_, rfl, ?_⟩ <;> revert n <;> decide +kernel
theorem test_has_pins_words : Executes .A 0 (slIs 5 (fun w => slF w 14 14 = 0)) (word 5 0) (upE eng (word 5 0)) ∧
    Executes .A 0 (slIs 5 (fun w => slF w 14 14 = 1)) (word 5 4) (upE eng (word 5 4)) :=
  ⟨⟨rfl, by decide +kernel, rfl, by decide +kernel⟩, rfl, by decide +kernel, rfl, by decide +kernel⟩
theorem test_has_other_words : (∀ op ∈ [0, 1, 2, 6], Executes .A 0 (slIs op (fun _ => true)) (word op 0) (upE eng (word op 0))) ∧
    Executes .A 0 (slIs 3 (fun w => slF w 13 13 = 0)) (word 3 0) (upE eng (word 3 0)) ∧
    Executes .A 0 (slIs 3 (fun w => slF w 13 13 = 1)) (word 3 2) (upE eng (word 3 2)) := by
  refine ⟨?_, ⟨rfl, by decide +kernel, rfl, by decide +kernel⟩, rfl, by decide +kernel, rfl, by decide +kernel⟩
  intro op h
  fin_cases h <;> exact ⟨rfl, by decide +kernel, rfl, by decide +kernel⟩

theorem test_has_engine_queues : ({ eng with tx := [5] } : Sle).tx = [5] ∧ sleCfg2TxThr eng.cfg2 = 0 ∧ eng.tx = [] ∧
    ({ eng with rx := List.replicate 8 0 } : Sle).rxRoom = false ∧ slF (word 4 3) 14 12 = 3 ∧ slF (word 4 4) 14 12 = 4 ∧ slF (word 4 1) 14 12 = 1 ∧
    slF (word 4 2) 14 12 = 2 ∧ slF (word 4 0) 14 12 = 0 ∧ slF (BitVec.ofNat 24 0x400800) 11 11 = 1 ∧ ¬ slF (word 4 0) 11 11 = 1 :=
  ⟨rfl, rfl, rfl, by decide +kernel, rfl, rfl, rfl, rfl, rfl, rfl, by decide⟩

theorem test_has_words_seen : ({ eng with tx := [5], txAt := 1 } : Sle).txSeen 0 = [5] ∧ ({ eng with tx := [5], txAt := 0, txNew := 1 } : Sle).txSeen 0 = [] ∧
    ({ eng with txAt := 1 } : Sle).txAt ≠ up.a.now / 4 ∧ eng.txAt = up.a.now / 4 ∧
    (∀ n, (⟨Vector.replicate 48 0, Vector.replicate 48 0, false, 0, [], none, false, 1, n⟩ : Slg).setAt = n) :=
  ⟨rfl, rfl, by decide, rfl, fun _ => rfl⟩

theorem test_has_loads : slF (word 1 0) 14 12 ≠ 1 ∧ slF (BitVec.ofNat 24 0x603801) 14 12 = 3 ∧ slF (BitVec.ofNat 24 0x603801) 11 11 = 1 ∧
    sleCfg2RegHi eng.cfg2 < slF (BitVec.ofNat 24 0x603BFF) 10 0 ∧ slF (BitVec.ofNat 24 0x600801) 14 12 = 0 ∧ slF (BitVec.ofNat 24 0x600801) 11 11 = 1 ∧
    slF (word 3 4) 14 14 = 1 ∧ slF (word 3 0) 14 14 = 0 ∧ ({ eng with rise := some 3 } : Sle).rise = some 3 ∧ ({ eng with fall := some 3 } : Sle).fall = some 3 ∧
    up.a.slCond 0 (word 1 0) = true ∧ up.a.slCond 0 (BitVec.ofNat 24 0x100800) = false := by
  refine ⟨by decide, rfl, rfl, by decide, rfl, rfl, rfl, rfl, rfl, rfl, by decide +kernel, by decide +kernel⟩

theorem test_has_stalls : (let s := upE { eng with stall := true, tlim := 9 } (word 3 0)
      s.live .A = true ∧ ((s.half .A).eng 7).st = 2 ∧ ((s.half .A).eng 7).stall = true ∧ slOp ((s.half .A).slWord 7) = 3 ∧
        slF ((s.half .A).slWord 7) 13 13 = 0 ∧ ((s.half .A).eng 7).latch (decide (slF ((s.half .A).slWord 7) 14 14 = 1)) = none ∧
        ((s.half .A).eng 7).tlim ≠ 0#32) ∧
    ((upE { eng with stall := true } (word 3 0)).a.eng 7).tlim = 0#32 ∧ ((upE eng 0).a.eng 7).rise = none ∧ ((upE eng 0).a.eng 7).fall = none ∧
    (((upE { eng with rise := some 1 } 0).a.eng 7).latch true).isSome = true ∧ ((up.half .A).eng 7).st ≠ 2 :=
  ⟨⟨rfl, rfl, rfl, rfl, rfl, rfl, by decide⟩, rfl, rfl, rfl, rfl, by decide⟩

theorem test_has_shifts : ({ eng with inGot := 32 } : Sle).inGot ≤ 32 ∧ ({ eng with inGot := 32 } : Sle).outLeft ≤ 32 ∧
    (let h := (upE { eng with cfg0 := putB true 9 } 0).a
     (h.eng 0).mid = false ∧ sleCfg0Autofill (h.eng 0).cfg0 = true ∧ (h.eng 0).outLeft = 0 ∧ (h.eng 0).tx = [] ∧ (h.eng 0).inGot = 0 ∧
       (h.eng 0).stall = false) := ⟨by decide, by decide, rfl, rfl, rfl, rfl, rfl, rfl⟩

theorem test_has_next : slF (BitVec.ofNat 24 0x000000) 19 18 = 0 ∧ slF (BitVec.ofNat 24 0x040000) 19 18 = 1 ∧
    slF (BitVec.ofNat 24 0x080000) 19 18 = 2 ∧ eng.c1 = 0#32 ∧ ({ eng with c1 := 1 } : Sle).c1 ≠ 0#32 := by decide +kernel

theorem test_has_conditions : slF (word 0 0) 14 11 = 0 ∧ slF (BitVec.ofNat 24 0x000800) 14 11 = 1 ∧ slF (BitVec.ofNat 24 0x003000) 14 11 = 6 ∧
    slF (word 1 0) 14 12 = 0 ∧ slF (word 1 4) 14 12 = 4 ∧ slF (word 1 5) 14 12 = 5 ∧ slF (word 1 6) 14 12 = 6 ∧
    slF (BitVec.ofNat 24 0x200200) 9 8 = 2 ∧ eng.mid = false ∧ sleCfg0Autofill eng.cfg0 = false ∧ sleCfg0Autostore eng.cfg0 = false ∧
    (∀ n ∈ [0, 1, 2, 3, 4], slF (BitVec.ofNat 24 (0x600800 + n * 2 ^ 12)) 14 12 = n ∧ slF (BitVec.ofNat 24 (0x600800 + n * 2 ^ 12)) 11 11 = 1) := by
  decide +kernel

theorem test_has_waits : (let s := upE { eng with stall := true, c0 := 1 } (word 1 6)
      let x := (s.half .A).eng 7; let w := (s.half .A).slWord 7
      x.st = 2 ∧ x.stall = true ∧ slOp w = 1 ∧ slF w 14 12 = 6 ∧ (x.tcnt - x.beg).toNat < x.c0.toNat) ∧
    (let h := (upE { eng with seen := true } 0).a; (h.eng 0).st = 2 ∧ (h.eng 0).seen = true ∧ h.slPin (sleCfg0Wpin (h.eng 0).cfg0) = false ∧
      (h.eng 0).fall = none) ∧
    (let h : Half := { (upE eng 0).a with slu := { (upE eng 0).a.slu with pins := Vector.replicate 16 ⟨slpCfgReset, false, false, none, true, 0, true, []⟩ } }
     (h.eng 0).seen = false ∧ h.slPin (sleCfg0Wpin (h.eng 0).cfg0) = true ∧ (h.eng 0).rise = none) := by decide +kernel

theorem test_has_terminals : (let p : SlPin := ⟨slpCfgReset, false, false, none, true, 0, true, []⟩
     p.due = [] ∧ p.raw = p.filt ∧ p.rawAt < 1 ∧ 1 ≤ 1) ∧
    (let h : Half := { up.a with slu := { up.a.slu with pins := Vector.replicate 16 ⟨slpCfgReset, false, false, some (4, 0), false, 0, false, []⟩ } }
     h.slOwns 0 15 = true ∧ up.a.slOwns 0 15 = false) := by decide +kernel

/-- The module in READY with a swap waiting in both groups of half A. -/
def upX (x : Sle) : State :=
  upA (fun h => { h with slu := { h.slu with eng := Vector.replicate 8 x, grp := Vector.replicate 2 ⟨Vector.replicate 48 0, Vector.replicate 48 0, false, 0, [], some ⟨15, [], true, some 8, (7, false)⟩, false, 0, 0⟩ } })

theorem test_has_swaps : (upX eng).live .A = true ∧ (upX eng).a.swapReady 1 = true ∧
    ((upX eng).a.slg 1).swap = some ⟨15, [], true, some 8, (7, false)⟩ ∧
    (maskEngs 1 15).any (fun e => decide (((upX { eng with inGot := 1 }).a.eng e).st = 2) && ((upX { eng with inGot := 1 }).a.eng e).inShift) = true :=
  ⟨rfl, by decide +kernel, rfl, by decide +kernel⟩

/-! ### Requests under conditions of their own -/

/-- A request as its row serves it. -/
def ask (mb cmd : Nat) (p : List Byte) : Ask := ⟨mb, cmd, 7, false, p⟩

theorem test_has_mailbox0 : (ask 0 1 (zeros 4)).cmd = 1 ∧ (ask 0 1 (zeros 4)).dirty 17 3 = false ∧ (ask 0 2 (le 4 9)).dirty 18 2 = false ∧
    up.hub.fg.st = 0 ∧ (upU (fun u => { u with fg := { u.fg with st := 1, trips := 9 } })).hub.fg.st = 1 ∧
    (ask 0 2 (le 4 9)).h 16 = (upU (fun u => { u with fg := { u.fg with st := 1, trips := 9 } })).hub.fg.trips.toNat ∧
    (ask 0 2 (le 4 8)).h 16 ≠ (upU (fun u => { u with fg := { u.fg with st := 1, trips := 9 } })).hub.fg.trips.toNat ∧
    up.reaches bothHalves = true ∧ (ask 0 3 (le 4 1)).b 16 = 1 ∧ (ask 0 3 (le 4 1)).dirty 17 3 = false ∧ (ask 0 3 (zeros 4)).b 16 ≠ 1 ∧
    trkCfg0Reversible (upT (fun t => { t with cfg0 := putB true 29 })).a.trk.cfg0 = true :=
  ⟨rfl, rfl, rfl, rfl, rfl, rfl, by decide, rfl, rfl, rfl, by decide, rfl⟩

/-- A backup frame of cylinder 1 with an alive counter. -/
def canData (alive : Nat) : List Byte :=
  let d := [BitVec.ofNat 8 (16 * alive), 1] ++ zeros 28
  d ++ [BitVec.ofNat 8 ((crc16 d).toNat / 256), BitVec.ofNat 8 (crc16 d).toNat]

/-- The module in READY with the backup stream on port 0, its last alive counter of cylinder 1 one of these. -/
def upC (x : Option Nat) : State :=
  upL (fun l => { l with cfg := { l.cfg with backupEn := true, backupPort := 0 }, canAlive := Vector.replicate 24 x })

theorem test_has_can_status : up.clocked = true ∧ up.hub.boot.stage = 4 := ⟨rfl, rfl⟩
theorem test_has_setpoint : Heard 1 1 (fun a => 24 + 28 * a.b 18) (msg (zeros 4)) up := heard rfl rfl rfl (by decide)
theorem test_has_backup_frame : (upC none).clocked = true ∧ (upC none).hub.boot.stage = 4 ∧ (upC none).hub.link.cfg.backupEn = true ∧
    (0 : Fin 2).1 = (upC none).hub.link.cfg.backupPort ∧ (canData 0).length = 32 ∧
    crc16 ((canData 0).take 30) = BitVec.ofNat 16 (256 * byteAt (canData 0) 30 + byteAt (canData 0) 31) ∧
    (BitVec.ofNat 11 (upC none).hub.link.cfg.spBase).toNat = (upC none).hub.link.cfg.spBase + 0 ∧ byteAt (canData 0) 1 = 1 ∧
    (upC none).hub.link.canAlive.get 0 = none ∧ (upC (some 15)).hub.link.canAlive.get 0 = some 15 ∧ byteAt (canData 0) 0 / 16 = 0 ∧
    (0 + 16 - 15) % 16 = 1 ∧ (0 + 16 - 14) % 16 = 2 ∧ (0 + 16 - 0) % 16 = 0 :=
  ⟨rfl, rfl, rfl, rfl, by decide +kernel, by decide +kernel, rfl, by decide +kernel, rfl, rfl, by decide +kernel, rfl, rfl, rfl⟩

theorem test_has_commit_kinds : byteAt (msg (zeros 16)).payload 0 % 2 = 0 ∧ byteAt (msg (1 :: zeros 15)).payload 0 % 2 = 1 ∧ up.hubOn = true ∧
    (upU (fun u => { u with cfg := { u.cfg with write := [([], 7)] } })).hub.cfg.write = [([], 7)] := ⟨rfl, rfl, rfl, rfl⟩

theorem test_has_transfer : (let a := ask 2 1 (le 4 2097152 ++ zeros 4); 128 ≤ a.w 16 ∧ a.w 16 ≤ 2097152 ∧ a.dirty 20 4 = false) ∧
    (let a := ask 2 2 (le 4 4 ++ le 2 4 ++ zeros 6)
     a.w 16 % 4 = 0 ∧ a.h 20 % 4 = 0 ∧ 4 ≤ a.h 20 ∧ a.h 20 ≤ 992 ∧ a.dirty 22 2 = false ∧ a.w 16 + a.h 20 ≤ 8 ∧ 7 < a.w 16 + a.h 20) ∧
    (upU (fun u => { u with cfg := { u.cfg with stage := some ⟨8, []⟩ } })).hub.cfg.stage = some ⟨8, []⟩ ∧ up.hub.cfg.stage = none ∧
    (∃ t, Machine.exec (.imageAbort (msg [])) up = .next t) := by
  refine ⟨⟨by decide +kernel, by decide +kernel, rfl⟩, ⟨rfl, rfl, by decide, by decide, rfl, by decide, by decide⟩, rfl, rfl, _, rfl⟩

/-- The module in READY with every slot of half A held at Expert level by channel 0. -/
def upH : State := upS 0 { Slot.empty true with holder := .expert 0 }

theorem test_has_slot_arm : Heard 3 1 (fun _ => 24) (msg (zeros 4)) (upS 0 (Slot.empty true)) ∧
    (let u := taken 3 1 (msg (zeros 4)) (upS 0 (Slot.empty true))
     u.basic 0 = false ∧ u.reach .A = true ∧ (u.half .A).oddDrive 0 = false ∧ ∃ h k, (u.half .A).grant 0 (.expert 0) = (h, .inr k)) :=
  ⟨heard rfl rfl rfl (by decide), rfl, rfl, rfl, _, 0, rfl⟩

theorem test_has_slot_write : Heard 3 2 (fun _ => 44) (msg (zeros 24)) upH ∧
    (let u := taken 3 2 (msg (zeros 24)) upH; let a := msgAsk 3 2 (msg (zeros 24))
     u.basic 0 = false ∧ u.noHalf (a.b 16) = false ∧ a.dirty 17 1 = false ∧ a.h 18 = 0 ∧ ((u.half .A).slots.get 0).armed = some 0 ∧
       (u.half .A).contentBad a.content = false ∧ a.content.ch = chanNum .A 0 ∧
       actFits (outCfgSrc ((u.half .A).chans.get a.content.chan).out) a.content.action = true ∧ a.content.action ≠ 4) :=
  ⟨heard rfl rfl rfl (by decide), rfl, rfl, rfl, rfl, rfl, by decide +kernel, rfl, rfl, by decide⟩

theorem test_has_slot_free : Heard 3 3 (fun _ => 24) (msg (zeros 4)) upH ∧ Heard 3 4 (fun _ => 24) (msg (zeros 4)) upH ∧
    ((taken 3 3 (msg (zeros 4)) upH).half .A).slots.get 0 = { Slot.empty true with holder := .expert 0 } :=
  ⟨heard rfl rfl rfl (by decide), heard rfl rfl rfl (by decide), rfl⟩

/-- A profile not in use breaks nothing. -/
theorem test_profile_of_zeros (h : Half) : h.profRefused 0 (Vector.replicate 16 0) = false := by
  have g : ∀ n, gainOk n (Vector.replicate 16 0) = true := by
    intro n
    have z : (phAIHi (0 : Word), phAILo (0 : Word), profHdrIMax (0 : Word)) = (0, 0, 0) := by decide +kernel
    simp only [Prod.mk.injEq] at z
    have w : ∀ k, phWordA (Vector.replicate 16 (0 : Word)) k = 0 := by intro k; simp only [phWordA, Vector.toArray_replicate]; by_cases c : 1 + 2 * k < 16 <;> simp [c]
    unfold gainOk
    have e : (Vector.replicate 16 (0 : Word)).get 0 = 0 := rfl
    simp only [w, z, e, Nat.zero_mul]
    decide +kernel
  have k : profOk 0 h.profValid (Vector.replicate 16 0) = true := by
    unfold profOk
    have e : profHdrValid ((Vector.replicate 16 (0 : Word)).get 0) = false := by decide +kernel
    simp only [e, Bool.not_false, Bool.true_or]
  have n : shortOf (Vector.replicate 16 (0 : Word)) = [] := by decide +kernel
  unfold Half.profRefused
  simp only [k, n]
  simp
  exact fun x _ _ => g _

theorem test_has_profile_write : Heard 3 0x10 (fun _ => 88) (msg (zeros 68)) up ∧
    (let u := taken 3 0x10 (msg (zeros 68)) up; let a := msgAsk 3 0x10 (msg (zeros 68))
     u.basic 3 = false ∧ u.reaches bothHalves = true ∧ a.b 16 = 0 ∧ a.dirty 17 3 = false ∧ a.profDirty = false ∧
       a.profile = Vector.replicate 16 0 ∧ u.a.profNew.get 0 = none ∧ u.b.profNew.get 0 = none) :=
  ⟨heard rfl rfl rfl (by decide), rfl, rfl, rfl, rfl, by decide +kernel, by decide +kernel, rfl, rfl⟩

theorem test_has_profile_copy :
    (let s := upA (fun h => { h with profNew := Vector.replicate 32 (some (Vector.replicate 16 0, 7)) })
     (s.a.profNew.get 31) = some (Vector.replicate 16 0, 7) ∧ s.live .A = true ∧ s.a.profIdle 31 = true ∧ s.now = s.hub.tick) :=
  ⟨rfl, rfl, by decide +kernel, rfl⟩

theorem test_has_tracker_set : Heard 3 0x20 (fun _ => 24) (msg [5, 4, 90, 10]) up ∧
    (let u := taken 3 0x20 (msg [5, 4, 90, 10]) up
     u.basic 1 = false ∧ u.reaches bothHalves = true ∧ (u.trackerAhead .A).blankBreaks 5 90 10 = false ∧ (u.trackerAhead .B).blankBreaks 5 90 10 = false ∧
       (u.trackerAhead .A).blankBreaks 0 0 0 = false) :=
  ⟨heard rfl rfl rfl (by decide), rfl, rfl, by decide +kernel, by decide +kernel, by decide +kernel⟩

theorem test_has_acq_set : (∀ p : List Byte, p.length = 8 → Heard 3 0x30 (fun _ => 28) (msg p) up) ∧
    acqItem (msg ([0, 0, 8, 0] ++ le 4 63)) = 0 ∧ acqItem (msg ([0, 1, 31, 0] ++ le 4 65535)) = 1 ∧ acqItem (msg ([0, 2, 0, 0] ++ le 4 4)) = 2 ∧
    acqItem (msg ([0, 3, 3, 0] ++ le 4 16777215)) = 3 ∧ (msgAsk 3 0x30 (msg ([0, 0, 8, 0] ++ le 4 63))).w 20 = 63 ∧
    (msgAsk 3 0x30 (msg ([0, 3, 3, 0] ++ le 4 16777215))).w 20 = 16777215 ∧
    (let u := taken 3 0x30 (msg (zeros 8)) up
     u.basic 4 = false ∧ u.noHalf 0 = false ∧ (u.half .A).targeted 8 = false ∧ ((u.half .A).acq.seqs.get 8).mask = none ∧
       (u.half .A).stepFits 4 = true ∧ acqTmrFsync ((u.half .A).acq.tmr.get 3) = false) :=
  ⟨fun p h => heard rfl rfl (by show 28 = 20 + p.length; omega) (by omega), rfl, rfl, rfl, rfl, rfl, by decide +kernel,
    rfl, rfl, by decide +kernel, rfl, by decide +kernel, rfl⟩

theorem test_has_cl_set : (let p : List Byte := 24 :: zeros 3 ++ leW clCfg0Reset ++ leW clCfg1Reset
    Heard 3 0x40 (fun _ => 32) (msg p) up ∧
      (let u := taken 3 0x40 (msg p) up; let a := msgAsk 3 0x40 (msg p)
       a.b 16 = 24 ∧ u.basic 5 = false ∧ a.dirty 17 3 = false ∧ clWordsBad 23 (a.reg 20) (a.reg 24) = false ∧
         ∀ id : HalfId, (u.half id).clRefused (u.a.ana.lanes.toList ++ u.b.ana.lanes.toList) 24 (a.reg 24) = false)) :=
  ⟨heard rfl rfl rfl (by decide), rfl, rfl, rfl, by decide +kernel, by intro id; cases id <;> decide +kernel⟩

theorem test_has_prog_load : Heard 3 0x50 (fun _ => 252) (msg (zeros 232)) up ∧
    (let u := taken 3 0x50 (msg (zeros 232)) up; let a := msgAsk 3 0x50 (msg (zeros 232))
     a.b 17 = 0 ∧ u.basic 6 = false ∧ u.noHalf (a.b 16) = false ∧ a.loadBad = false ∧
       (u.half .A).loadRefused 0 (a.b 18 % 16) a.program (a.engCfgs 0) = false ∧ (u.half .A).claimable (loadPins (a.engCfgs 0)) = true ∧ u.claimWaits .A (loadPins (a.engCfgs 0)) = false) :=
  ⟨heard rfl rfl (by decide +kernel) (by decide +kernel), by decide +kernel, by decide +kernel, by decide +kernel, by decide +kernel, by decide +kernel, by decide +kernel, by decide +kernel⟩

theorem test_has_sluice_ctl : (∀ p : List Byte, p.length = 4 → Heard 3 0x51 (fun _ => 24) (msg p) up) ∧
    (ctlMasks (msg [1, 1, 0x10, 0])).1 ≠ 0 ∧ (ctlMasks (msg [1, 1, 1, 0])).2.1 ≠ 0 ∧ (ctlMasks (msg [1, 1, 0, 0x11])).2.2 ≠ 0 ∧
    (let u := taken 3 0x51 (msg [1, 1, 0x10, 0]) up; u.basic 6 = false ∧ u.reach .B = true) ∧ 0 / 2 % 8 = 0 ∧ 0x11 / 2 % 8 = 0 :=
  ⟨fun p h => heard rfl rfl (by show 24 = 20 + p.length; omega) (by omega), by decide, by decide, by decide, ⟨rfl, rfl⟩, rfl, rfl⟩

theorem test_has_sluice_xfer : Heard 3 0x52 (fun a => 24 + 4 * a.b 18) (msg ([0, 7, 64, 64] ++ zeros 256)) up ∧
    (let u := taken 3 0x52 (msg ([0, 7, 64, 64] ++ zeros 256)) up; u.basic 6 = false ∧ u.reach .A = true) :=
  ⟨heard rfl rfl (by decide +kernel) (by decide +kernel), rfl, rfl⟩

theorem test_has_gpio : (∀ p : List Byte, p.length = 4 → Heard 3 0x62 (fun _ => 24) (msg p) up) ∧ pinBad 0 95 = false ∧ pinOf 0 95 = (.B, 63) ∧
    pinBad 1 31 = false ∧ pinOf 1 31 = (.B, 15) ∧ up.reach .B = true ∧ 63 = 16 + (47 : Fin 48).1 ∧
    ({ up.b with chans := Vector.replicate 48 { Chan.reset with claim := some (5, 0) } } : Half).isGpio 63 = true ∧
    ({ up.b with slu := { up.b.slu with pins := Vector.replicate 16 ⟨slpCfgReset, false, false, some (5, 0), false, 0, false, []⟩ } } : Half).isGpio 15 = true :=
  ⟨fun p h => heard rfl rfl (by show 24 = 20 + p.length; omega) (by omega), rfl, rfl, rfl, rfl, rfl, rfl, by decide +kernel, by decide +kernel⟩

/-- The module in READY with cylinder 1 in the twist unit of half A and on a lane of 0.2 degrees. -/
def upY : State := upA (fun h => { h with
  tws := { h.tws with cyl := Vector.replicate 24 ⟨putB true 15 ||| put 1 5 0, 0, 0, 0, 0, none, 0⟩ }
  ana := { h.ana with lanes := Vector.replicate 12 { Lane.reset with
    cfg := Vector.ofFn (fun n : Fin 6 => if n.1 = 0 then putB true 31 ||| put 1 5 26 ||| put 3 3 23 else 0) } } })

theorem test_has_cal_twist : (let p : List Byte := [0, 1, 8, 0, 1, 0, 0, 0] ++ le 2 2000 ++ le 2 3600
    Heard 4 0x11 (fun _ => 32) (msg p) upY ∧
      (let u := taken 4 0x11 (msg p) upY; let a := msgAsk 4 0x11 (msg p)
       u.reaches bothHalves = true ∧ a.b 16 = 0 ∧ a.b 17 = 1 ∧ 8 ≤ a.b 18 ∧ maskCyls (a.b 20 + 256 * a.b 21 + 65536 * a.b 22) = [1] ∧
         a.dirty 23 1 = false ∧ a.h 24 ≤ 2000 ∧ 1 ≤ a.h 26 ∧ a.h 26 ≤ 3600 ∧ u.twistHalves 1 ≠ [] ∧ u.fineLane 1 = true ∧ u.hub.cal.twist = none)) :=
  ⟨heard rfl rfl rfl (by decide), rfl, rfl, rfl, by decide +kernel, by decide +kernel, rfl, by decide +kernel, by decide +kernel,
    by decide +kernel, by decide +kernel, by decide +kernel, rfl⟩

theorem test_has_cal_apply : Heard 4 0x12 (fun _ => 28) (msg (zeros 8)) up ∧ (taken 4 0x12 (msg (zeros 8)) up).reaches bothHalves = true ∧
    (taken 4 0x12 (msg (zeros 8)) (upU (fun u => { u with cal := { u.cal with res := [⟨0, none, []⟩] } }))).hub.cal.res.find?
      (fun r => r.id = (msgAsk 4 0x12 (msg (zeros 8))).w 16) = some ⟨0, none, []⟩ ∧ up.stopped = true :=
  ⟨heard rfl rfl rfl (by decide), rfl, rfl, rfl⟩

theorem test_has_session : (∀ p : List Byte, p.length = 4 → Heard 4 0x20 (fun _ => 24) (msg p) up) ∧ sessionHalves 3 = [.A, .B] ∧
    (taken 4 0x20 (msg ([3, 1] ++ le 2 600)) up).reaches (sessionHalves 3) = true ∧
    (let a := msgAsk 4 0x20 (msg ([3, 1] ++ le 2 600)); a.b 16 ≤ 3 ∧ a.b 17 = 1 ∧ 1 ≤ a.h 18 ∧ a.h 18 ≤ 600) ∧
    (msgAsk 4 0x20 (msg (3 :: zeros 3))).b 17 = 0 ∧ (upQ (fun a => { a with session := some 4 })).a.acq.session = some 4 :=
  ⟨fun p h => heard rfl rfl (by show 24 = 20 + p.length; omega) (by omega), rfl, rfl, by decide +kernel, rfl, rfl⟩

theorem test_has_slice_cal : Heard 4 0x21 (fun _ => 24) (msg [1, 2, 15, 0]) up ∧ (taken 4 0x21 (msg [1, 2, 15, 0]) up).noHalf 1 = false ∧
    (msgAsk 4 0x21 (msg [1, 2, 1, 0])).b 18 < grpN 2 := ⟨heard rfl rfl rfl (by decide), rfl, by decide⟩

theorem test_has_tdac : (∀ p : List Byte, p.length = 8 → Heard 4 0x22 (fun _ => 28) (msg p) up) ∧
    (let u := taken 4 0x22 (msg ([0, 47, 2, 0] ++ le 2 4095 ++ zeros 2)) up
     u.noHalf 0 = false ∧ (u.half .A).acq.tdac.busy = false ∧ (u.half .A).fg.latch = true) ∧ tdacNeeds 0 47 = false ∧
    (msgAsk 4 0x22 (msg ([0, 47, 2, 0] ++ le 2 4095 ++ zeros 2))).h 20 = 4095 :=
  ⟨fun p h => heard rfl rfl (by show 28 = 20 + p.length; omega) (by omega), ⟨rfl, rfl, rfl⟩, rfl, rfl⟩

/-! The conditions of OWNER_ENROL, JTAG_UNLOCK and FW_COMMIT end in a signature, which is uninterpreted (log 6): no state can be shown
to pass it. What can be shown is the message, and a refusal. -/

theorem test_has_owner_enrol : Heard 6 3 (fun _ => 116) (msg (zeros 96)) up ∧ up.hub.flash.owner.isSome = false :=
  ⟨heard rfl rfl rfl (by decide), rfl⟩
theorem test_has_jtag_unlock : Heard 6 5 (fun _ => 104) (msg (zeros 16 ++ le 4 1 ++ zeros 64)) up ∧
    (msgAsk 6 5 (msg (zeros 16 ++ le 4 1 ++ zeros 64))).w 32 = 1 := ⟨heard rfl rfl rfl (by decide), rfl⟩
theorem test_has_fw_commit : Heard 6 0x12 (fun _ => 20) (msg []) up ∧ (up.hub.cfg.fw.any Xfer.full) = false :=
  ⟨heard rfl rfl rfl (by decide), rfl⟩
theorem test_has_jtag : up.hub.sec.jtag = none ∧ (upU (fun u => { u with sec := { u.sec with jtag := some (0, 9) } })).hub.sec.jtag = some (0, 9) :=
  ⟨rfl, rfl⟩
theorem test_has_scan : (upU (fun u => { u with sec := { u.sec with jtag := some (0, 9) } })).hub.sec.jtag ≠ none ∧
    (up.half .A).fg.latch = true ∧ ((upA (fun h => { h with fg := { h.fg with latch := false } })).half .A).fg.latch = false :=
  ⟨nofun, rfl, rfl⟩
theorem test_has_sleep : (⟨7, 7, 1, false, none⟩ : HReq).mb = 7 ∧ (⟨7, 7, 1, false, none⟩ : HReq).cmd = 1 := ⟨rfl, rfl⟩

/-! ### Clocks, power, boot, resets, registers -/

theorem test_has_ptp : up.hubOn = true ∧ (upL (fun l => { l with cfg := { l.cfg with ptpEn := true, ppsIn := true } })).hub.link.cfg.ptpEn = true ∧
    (upL (fun l => { l with cfg := { l.cfg with ptpEn := true, ppsIn := true } })).hub.link.cfg.ppsIn = true ∧ up.hub.ptp.lock ≤ 1 ∧
    (∀ n, (upU (fun u => { u with ptp := { u.ptp with lock := n } })).hub.ptp.lock = n) ∧ (1000 : Int).natAbs ≤ 1000 ∧ (10000 : Int).natAbs ≤ 10000 ∧
    10000 < (-10001 : Int).natAbs ∧ (upU (fun u => { u with ptp := { u.ptp with run := 15 } })).hub.ptp.run + 1 = 16 ∧
    (upU (fun u => { u with ptp := { u.ptp with syncAt := some 3, hold := true } })).hub.ptp.syncAt = some 3 ∧ up.hub.ptp.hold = false ∧
    (upU (fun u => { u with ptp := { u.ptp with syncAt := some 3, hold := true } })).hub.ptp.hold = true :=
  ⟨rfl, rfl, rfl, by decide, fun _ => rfl, by decide, by decide, by decide, rfl, rfl, rfl, rfl⟩

theorem test_has_time_map : up.hub.ptp.mapAt = none ∧ (∀ t, ({ up.hub.ptp with mapAt := some t } : PtpSt).mapAt = some t) := ⟨rfl, fun _ => rfl⟩

/-- The module in READY with a change in the supplies. -/
def upV (f : Pwr → Pwr) : State := upU (fun u => { u with pwr := f u.pwr })

theorem test_has_power : (∀ n, (upV (fun p => { p with shed := n })).hub.pwr.shed = n) ∧ 139 < shedThr 1 ∧ 99 < shedThr 4 ∧ shedThr 1 + 5 ≤ 145 ∧
    shedThr 4 + 5 ≤ 105 ∧ (upV (fun p => { p with queue := [3, 5] })).hub.pwr.queue = [3, 5] ∧ (upV (fun p => { p with scrub := some 2 })).hub.pwr.scrub = some 2 ∧
    (upV (fun p => { p with overAt := some 2 })).hub.pwr.overAt = some 2 ∧ up.hub.pwr.raised = false ∧ (upV (fun p => { p with raised := true })).hub.pwr.raised = true ∧
    (upV (fun p => { p with on := Vector.replicate 24 true })).hub.pwr.on.get 23 = true ∧
    (let p := (upV (fun p => { p with trip := Vector.ofFn (fun i => i.1 = 23) })).hub.pwr
     p.mayRetry 23 = true ∧ ∀ m, m ≠ 23 → p.mayRetry m = false) ∧ (upV (fun p => { p with off4 := Vector.replicate 24 true })).hub.pwr.off4.get 23 = true :=
  ⟨fun _ => rfl, by decide, by decide, by decide, by decide, rfl, rfl, rfl, rfl, rfl, rfl, ⟨by decide +kernel, by decide +kernel⟩, rfl⟩

theorem test_has_boot : (upB (fun b => { b with awake := false })).clocked = false ∧ up.clocked = true ∧ State.reset.clocked = true ∧
    State.reset.hub.boot.stage = 0 ∧ State.reset.hub.boot.picked = false ∧
    (upB (fun b => { b with stage := 0, picked := true })).hub.boot.picked = true ∧ (upB (fun b => { b with stage := 1 })).hub.boot.stage = 1 ∧
    (upB (fun b => { b with stage := 2 })).hub.flash.store.find? (fun x => (upB (fun b => { b with stage := 2 })).storedOk x) = none ∧
    up.hub.boot.warm = false ∧ (upB (fun b => { b with stage := 3 })).hub.boot.stage = 3 ∧
    (upB (fun b => { b with trial := true })).hub.boot.trial = true ∧ (upB (fun b => { b with keyAt := some 4, key := false })).hub.boot.keyAt = some 4 ∧
    (upB (fun b => { b with keyAt := some 4, key := false })).hub.boot.key = false :=
  ⟨rfl, rfl, rfl, rfl, rfl, rfl, rfl, rfl, rfl, rfl, rfl, rfl, rfl⟩

theorem test_has_failed_trial :
    (let s := upU (fun u => { u with boot := { u.boot with stage := 0, picked := false, warm := true }, flash := { u.flash with fw := put1 u.flash.fw 0 ⟨2, [], 3⟩ } })
     s.clocked = true ∧ s.hub.boot.stage = 0 ∧ s.hub.boot.picked = false ∧ s.hub.flash.endTrials.2 = true ∧ s.hub.boot.warm = true) ∧
    State.reset.hub.flash.endTrials.2 = false := by decide +kernel

theorem test_has_resets : up.hubOn = true ∧ up.live .A = true ∧ up.live .B = true ∧
    (upB (fun b => { b with follow := [(2, 9)] })).hub.boot.follow = [(2, 9)] ∧
    (upU (fun u => { u with sec := { u.sec with jtag := some (0, 9) } })).hub.sec.jtag.isSome = true ∧ up.areaOn (.slotStore .B 1023) = true ∧
    up.areaOn .hubSram = true ∧ up.placeOn (.trkCfg0 .A) = true ∧ up.placeOn .resetCause = true ∧
    ((upS 4 (slotIn 2 3)).a.slots.get 0).st = 2 ∧ ((upS 4 (slotIn 7 3)).a.slots.get 0).st = 7 ∧ ((upS 4 (slotIn 5 3)).a.slots.get 0).st = 5 :=
  ⟨rfl, rfl, rfl, rfl, rfl, rfl, rfl, rfl, rfl, rfl, rfl, rfl⟩

end Sys2Proof.Tests
end

section
/-! PROOFS. What every command does, whichever it is: it answers a next state and leaves the queue alone; and a step with a command in
front runs it. -/

namespace Sys2Proof.Machine

open Sys2Proof Sys2Proof.Safety

/-! ### Which commands do more than the rest -/

/-- REQ_DB_WRITE hands what stands in the request buffer to the row of that message (R374). -/
def ringsReqDb : Instr → Bool
  | .reqDbWrite _ => true
  | _ => false

/-- Commands that can change a firmware slot, the owner key or the rollback floor (R450, R489, R492, R498), REQ_DB_WRITE among them by
the message it hands on. -/
def opensVault : Instr → Bool
  | .ownerEnrol _ | .fwBegin _ | .fwChunk _ | .fwCommit _ | .coldBoot | .trialConfirm | .reqDbWrite _ => true
  | _ => false

/-! ### The vault under the commands that leave it shut -/

/-- Every command but those of `opensVault` and `setsFrame` leaves the whole vault. -/
theorem exec_vault {s t : State} : ∀ c, opensVault c = false → setsFrame c = false → exec c s = .next t → t.vault = s.vault
  | .frameTick _, _, h, _ => nomatch h
  | .frameOverrun o, _, _, q => execFrameOverrun_vault o s t q
  | .heartbeatReceive h link hb, _, _, q => execHeartbeatReceive_vault h link hb s t q
  | .datagramRepeat, _, _, q => execDatagramRepeat_vault s t q
  | .streamRecover stream, _, _, q => execStreamRecover_vault stream s t q
  | .qualifiedEdge h ix e, _, _, q => execQualifiedEdge_vault h ix e s t q
  | .edgeBlanked h e, _, _, q => execEdgeBlanked_vault h e s t q
  | .blankingWindowEnd h ix, _, _, q => execBlankingWindowEnd_vault h ix s t q
  | .varmDecay h ix, _, _, q => execVarmDecay_vault h ix s t q
  | .overspeedTripTimeout h, _, _, q => execOverspeedTripTimeout_vault h s t q
  | .gateClose h u, _, _, q => execGateClose_vault h u s t q
  | .stopTimeout h, _, _, q => execStopTimeout_vault h s t q
  | .receiverEnable h ix lvl, _, _, q => execReceiverEnable_vault h ix lvl s t q
  | .edgeLatchClear h ix, _, _, q => execEdgeLatchClear_vault h ix s t q
  | .wiringConditionSet h ix c cm dc, _, _, q => execWiringConditionSet_vault h ix c cm dc s t q
  | .wiringConditionClear h ix c cm dc, _, _, q => execWiringConditionClear_vault h ix c cm dc s t q
  | .receiverFailedClear h ix, _, _, q => execReceiverFailedClear_vault h ix s t q
  | .receiverDisagree ix, _, _, q => execReceiverDisagree_vault ix s t q
  | .twistRecompute h, _, _, q => execTwistRecompute_vault h s t q
  | .calAlignResult, _, _, q => execCalAlignResult_vault s t q
  | .calTwistResult, _, _, q => execCalTwistResult_vault s t q
  | .calTwistTimeout, _, _, q => execCalTwistTimeout_vault s t q
  | .hopperLoad h k, _, _, q => execHopperLoad_vault h k s t q
  | .slotDue h k, _, _, q => execSlotDue_vault h k s t q
  | .slotOffsetExpire h k, _, _, q => execSlotOffsetExpire_vault h k s t q
  | .slotWidthExpire h k, _, _, q => execSlotWidthExpire_vault h k s t q
  | .drvSourceGapEnd h p, _, _, q => execDrvSourceGapEnd_vault h p s t q
  | .drvBlankEnd h p, _, _, q => execDrvBlankEnd_vault h p s t q
  | .drvHiLatch h p dt, _, _, q => execDrvHiLatch_vault h p dt s t q
  | .drvLoLatch h p dt, _, _, q => execDrvLoLatch_vault h p dt s t q
  | .drvChop h p aboveHi aboveLo, _, _, q => execDrvChop_vault h p aboveHi aboveLo s t q
  | .drvPhaseTimeout h p aboveLo, _, _, q => execDrvPhaseTimeout_vault h p aboveLo s t q
  | .drvOvercurrent h p, _, _, q => execDrvOvercurrent_vault h p s t q
  | .drvStuckOn h p, _, _, q => execDrvStuckOn_vault h p s t q
  | .outPinFlag h m flag, _, _, q => execOutPinFlag_vault h m flag s t q
  | .floodgateInputLow w dt, _, _, q => execFloodgateInputLow_vault w dt s t q
  | .fgDisagree h, _, _, q => execFgDisagree_vault h s t q
  | .psfAssert h b, _, _, q => execPsfAssert_vault h b s t q
  | .levelAssert src, _, _, q => execLevelAssert_vault src s t q
  | .levelDeassert src, _, _, q => execLevelDeassert_vault src s t q
  | .weirStatusQuery src, _, _, q => execWeirStatusQuery_vault src s t q
  | .weirAcknowledge src, _, _, q => execWeirAcknowledge_vault src s t q
  | .weirDoorbell src payload, _, _, q => execWeirDoorbell_vault src payload s t q
  | .angleClockTrigger h, _, _, q => execAngleClockTrigger_vault h s t q
  | .acqTimerExpire h n, _, _, q => execAcqTimerExpire_vault h n s t q
  | .crossing h g rising dt, _, _, q => execCrossing_vault h g rising dt s t q
  | .triggerDelayExpire h t', _, _, q => execTriggerDelayExpire_vault h t' s t q
  | .sequenceEnd h q', _, _, q => execSequenceEnd_vault h q' s t q
  | .conversionRecordWrite h q' v, _, _, q => execConversionRecordWrite_vault h q' v s t q
  | .resultsComplete h j stage, _, _, q => execResultsComplete_vault h j stage s t q
  | .refOkSet h r mv, _, _, q => execRefOkSet_vault h r mv s t q
  | .refOkClear h r mv, _, _, q => execRefOkClear_vault h r mv s t q
  | .calStepStart h g, _, _, q => execCalStepStart_vault h g s t q
  | .calTakeover h g, _, _, q => execCalTakeover_vault h g s t q
  | .calStepLate h g, _, _, q => execCalStepLate_vault h g s t q
  | .sliceCalDone h g ofsPpm gainPpm, _, _, q => execSliceCalDone_vault h g ofsPpm gainPpm s t q
  | .calHandback h g, _, _, q => execCalHandback_vault h g s t q
  | .tdacVerdict h m, _, _, q => execTdacVerdict_vault h m s t q
  | .jump h e edges, _, _, q => execJump_vault h e edges s t q
  | .wait h e edges, _, _, q => execWait_vault h e edges s t q
  | .shift h e edges, _, _, q => execShift_vault h e edges s t q
  | .stampArm h e, _, _, q => execStampArm_vault h e s t q
  | .stampMeasure h e, _, _, q => execStampMeasure_vault h e s t q
  | .stampTimeout h e, _, _, q => execStampTimeout_vault h e s t q
  | .stallRelease h e edges, _, _, q => execStallRelease_vault h e edges s t q
  | .wpinEdgeLatch h e edges dt, _, _, q => execWpinEdgeLatch_vault h e edges dt s t q
  | .queueFill h e, _, _, q => execQueueFill_vault h e s t q
  | .queueStore h e, _, _, q => execQueueStore_vault h e s t q
  | .queueStoreC0 h e, _, _, q => execQueueStoreC0_vault h e s t q
  | .queueTakeC0 h e, _, _, q => execQueueTakeC0_vault h e s t q
  | .queueTakeC1 h e, _, _, q => execQueueTakeC1_vault h e s t q
  | .pinsLevel h e, _, _, q => execPinsLevel_vault h e s t q
  | .pinsDirection h e, _, _, q => execPinsDirection_vault h e s t q
  | .load h e edges, _, _, q => execLoad_vault h e edges s t q
  | .countAddC0 h e, _, _, q => execCountAddC0_vault h e s t q
  | .countSubC0 h e, _, _, q => execCountSubC0_vault h e s t q
  | .countAddC1 h e, _, _, q => execCountAddC1_vault h e s t q
  | .countSubC1 h e, _, _, q => execCountSubC1_vault h e s t q
  | .countC0MinusC1 h e, _, _, q => execCountC0MinusC1_vault h e s t q
  | .countC0PlusC1 h e, _, _, q => execCountC0PlusC1_vault h e s t q
  | .countShiftC0 h e, _, _, q => execCountShiftC0_vault h e s t q
  | .countAndC0 h e, _, _, q => execCountAndC0_vault h e s t q
  | .signalSetFlag h e, _, _, q => execSignalSetFlag_vault h e s t q
  | .signalClearFlag h e, _, _, q => execSignalClearFlag_vault h e s t q
  | .signalWeir h e, _, _, q => execSignalWeir_vault h e s t q
  | .programSwap h g, _, _, q => execProgramSwap_vault h g s t q
  | .forcedSwap h g, _, _, q => execForcedSwap_vault h g s t q
  | .stop m, _, _, q => execStop_vault m s t q
  | .floodgateRelease m, _, _, q => execFloodgateRelease_vault m s t q
  | .setDirection m, _, _, q => execSetDirection_vault m s t q
  | .fgStatus m, _, _, q => execFgStatus_vault m s t q
  | .setpoint m, _, _, q => execSetpoint_vault m s t q
  | .canBackupFrame port ident data, _, _, q => execCanBackupFrame_vault port ident data s t q
  | .canStatusFrame, _, _, q => execCanStatusFrame_vault s t q
  | .imageBegin m, _, _, q => execImageBegin_vault m s t q
  | .imageChunk m, _, _, q => execImageChunk_vault m s t q
  | .configCommit m, _, _, q => execConfigCommit_vault m s t q
  | .configDryRun m, _, _, q => execConfigDryRun_vault m s t q
  | .configFlashWriteDone ok, _, _, q => execConfigFlashWriteDone_vault ok s t q
  | .imageAbort m, _, _, q => execImageAbort_vault m s t q
  | .configRead m, _, _, q => execConfigRead_vault m s t q
  | .configInfo m, _, _, q => execConfigInfo_vault m s t q
  | .linkSet m, _, _, q => execLinkSet_vault m s t q
  | .slotArm m, _, _, q => execSlotArm_vault m s t q
  | .slotWrite m, _, _, q => execSlotWrite_vault m s t q
  | .slotFree m, _, _, q => execSlotFree_vault m s t q
  | .slotRead m, _, _, q => execSlotRead_vault m s t q
  | .profileWrite m, _, _, q => execProfileWrite_vault m s t q
  | .profileCopy h ix, _, _, q => execProfileCopy_vault h ix s t q
  | .profileRead m, _, _, q => execProfileRead_vault m s t q
  | .trackerSet m, _, _, q => execTrackerSet_vault m s t q
  | .twistSet m, _, _, q => execTwistSet_vault m s t q
  | .acqSetMask m, _, _, q => execAcqSetMask_vault m s t q
  | .acqMaskApply h q', _, _, q => execAcqMaskApply_vault h q' s t q
  | .acqSetDelay m, _, _, q => execAcqSetDelay_vault m s t q
  | .acqSetStep m, _, _, q => execAcqSetStep_vault m s t q
  | .acqSetPeriod m, _, _, q => execAcqSetPeriod_vault m s t q
  | .clSet m, _, _, q => execClSet_vault m s t q
  | .progLoad m, _, _, q => execProgLoad_vault m s t q
  | .sluiceStart m, _, _, q => execSluiceStart_vault m s t q
  | .sluiceHalt m, _, _, q => execSluiceHalt_vault m s t q
  | .sluiceClockRestart m, _, _, q => execSluiceClockRestart_vault m s t q
  | .sluiceXfer m, _, _, q => execSluiceXfer_vault m s t q
  | .pinClaim m, _, _, q => execPinClaim_vault m s t q
  | .pinRelease m, _, _, q => execPinRelease_vault m s t q
  | .gpioSet m, _, _, q => execGpioSet_vault m s t q
  | .wheelDiag m, _, _, q => execWheelDiag_vault m s t q
  | .statusRead m, _, _, q => execStatusRead_vault m s t q
  | .faultRead m, _, _, q => execFaultRead_vault m s t q
  | .calAlign m, _, _, q => execCalAlign_vault m s t q
  | .calTwist m, _, _, q => execCalTwist_vault m s t q
  | .calApply m, _, _, q => execCalApply_vault m s t q
  | .calAbort m, _, _, q => execCalAbort_vault m s t q
  | .sessionOpen m, _, _, q => execSessionOpen_vault m s t q
  | .sessionClose m, _, _, q => execSessionClose_vault m s t q
  | .sessionTimeout h, _, _, q => execSessionTimeout_vault h s t q
  | .sliceCal m, _, _, q => execSliceCal_vault m s t q
  | .tdacOpenShort m, _, _, q => execTdacOpenShort_vault m s t q
  | .tdacGain m, _, _, q => execTdacGain_vault m s t q
  | .tdacManual m, _, _, q => execTdacManual_vault m s t q
  | .tdacStop m, _, _, q => execTdacStop_vault m s t q
  | .sensorRead m, _, _, q => execSensorRead_vault m s t q
  | .telemSet m, _, _, q => execTelemSet_vault m s t q
  | .tarnInfo m, _, _, q => execTarnInfo_vault m s t q
  | .recordRead m, _, _, q => execRecordRead_vault m s t q
  | .traceRead m, _, _, q => execTraceRead_vault m s t q
  | .toothlogRead m, _, _, q => execToothlogRead_vault m s t q
  | .attest m, _, _, q => execAttest_vault m s t q
  | .identity m, _, _, q => execIdentity_vault m s t q
  | .ownerEnrol _, h, _, _ => nomatch h
  | .challenge m, _, _, q => execChallenge_vault m s t q
  | .jtagUnlock m, _, _, q => execJtagUnlock_vault m s t q
  | .jtagClose, _, _, q => execJtagClose_vault s t q
  | .fwBegin _, h, _, _ => nomatch h
  | .fwChunk _, h, _, _ => nomatch h
  | .fwCommit _, h, _, _ => nomatch h
  | .sleepNotice m, _, _, q => execSleepNotice_vault m s t q
  | .linkReset m, _, _, q => execLinkReset_vault m s t q
  | .reset m, _, _, q => execReset_vault m s t q
  | .logRead m, _, _, q => execLogRead_vault m s t q
  | .managementRead port bytes, _, _, q => execManagementRead_vault port bytes s t q
  | .managementWrite port bytes, _, _, q => execManagementWrite_vault port bytes s t q
  | .reqDbWrite _, h, _, _ => nomatch h
  | .cqHeadWrite v, _, _, q => execCqHeadWrite_vault v s t q
  | .ptpSync ofsNs, _, _, q => execPtpSync_vault ofsNs s t q
  | .ptpSyncTimeout, _, _, q => execPtpSyncTimeout_vault s t q
  | .ppsPulse ofsNs, _, _, q => execPpsPulse_vault ofsNs s t q
  | .timeMapWrite sec ns, _, _, q => execTimeMapWrite_vault sec ns s t q
  | .tcxoFail, _, _, q => execTcxoFail_vault s t q
  | .shedEnter dV, _, _, q => execShedEnter_vault dV s t q
  | .shedLeave dV, _, _, q => execShedLeave_vault dV s t q
  | .supplyRestartStep, _, _, q => execSupplyRestartStep_vault s t q
  | .scrubDeferExpire, _, _, q => execScrubDeferExpire_vault s t q
  | .powerOver, _, _, q => execPowerOver_vault s t q
  | .ssSupplyTrip n, _, _, q => execSsSupplyTrip_vault n s t q
  | .ssSupplyRetry n, _, _, q => execSsSupplyRetry_vault n s t q
  | .supplyApply dV key, _, _, q => execSupplyApply_vault dV key s t q
  | .keyHigh _, _, h, _ => nomatch h
  | .coldBoot, h, _, _ => nomatch h
  | .bootStageAdvance, _, _, q => execBootStageAdvance_vault s t q
  | .trialConfirm, h, _, _ => nomatch h
  | .keyLow, _, _, q => execKeyLow_vault s t q
  | .shutdown, _, h, _ => nomatch h
  | .undervoltageShutdown, _, h, _ => nomatch h
  | .watchdogExpire _, _, h, _ => nomatch h
  | .eccError _ _, _, h, _ => nomatch h
  | .registerWrite r v, _, _, q => execRegisterWrite_vault r v s t q
  | .comparatorStateChange h ix tooth, _, _, q => execComparatorStateChange_vault h ix tooth s t q
  | .floodgateInputHigh w dt, _, _, q => execFloodgateInputHigh_vault w dt s t q
  | .drvBoostGapEnd h p, _, _, q => execDrvBoostGapEnd_vault h p s t q
  | .discardedFrame t' bytes udpLen, _, _, q => execDiscardedFrame_vault t' bytes udpLen s t q
  | .unknownCommand mb cmd m, _, _, q => execUnknownCommand_vault mb cmd m s t q
  | .requestBufferWrite ofs data, _, _, q => execRequestBufferWrite_vault ofs data s t q
  | .registerRead r, _, _, q => execRegisterRead_vault r s t q
  | .resetFollows, _, h, _ => nomatch h
  | .jtagReset, _, h, _ => nomatch h
  | .wheelDiagTimeout h, _, _, q => execWheelDiagTimeout_vault h s t q

/-- Every command but those of `opensVault` leaves the vault but for FRAME and the instant of the last tick. -/
theorem exec_vault_clock {s t : State} (c : Instr) (ho : opensVault c = false) (q : exec c s = .next t) :
    t.vault = s.vault.clock t.hub.frame t.hub.tick := by
  cases hf : setsFrame c with
  | false => exact clock_of (exec_vault c ho hf q) rfl
  | true =>
    cases c with
    | frameTick inp => exact execFrameTick_vault inp s t q
    | keyHigh dV => exact execKeyHigh_vault dV s t q
    | shutdown => exact execShutdown_vault s t q
    | undervoltageShutdown => exact execUndervoltageShutdown_vault s t q
    | watchdogExpire core => exact execWatchdogExpire_vault core s t q
    | eccError area corrected => exact execEccError_vault area corrected s t q
    | resetFollows => exact execResetFollows_vault s t q
    | jtagReset => exact execJtagReset_vault s t q
    | coldBoot => nomatch ho
    | _ => nomatch hf

/-! ### Every outcome is a next state -/

/-- An outcome that is a next state: no fault, no refusal. -/
def Answers (o : Host.Outcome State Fault Refusal) : Prop := ∃ t, o = .next t

theorem answers_next (t : State) : Answers (.next t) := ⟨t, rfl⟩

/-- A row with a guard answers on both sides of it. -/
theorem answers_ite (c : Prop) [Decidable c] (t u : State) : Answers (if c then .next t else .next u) := by
  split
  · exact answers_next t
  · exact answers_next u

/-! A row that names an event answers whether the state waits for that event or not (log 3). -/

theorem execDatagramRepeat_answers (s : State) : Answers (execDatagramRepeat s) := by
  unfold execDatagramRepeat
  split <;> exact answers_next _

theorem execReceiverDisagree_answers (i : Inp) (s : State) : Answers (execReceiverDisagree i s) := by
  unfold execReceiverDisagree
  split <;> exact answers_next _

theorem execCalTwistResult_answers (s : State) : Answers (execCalTwistResult s) := by
  unfold execCalTwistResult
  split <;> exact answers_next _

theorem execCalTwistTimeout_answers (s : State) : Answers (execCalTwistTimeout s) := by
  unfold execCalTwistTimeout
  split <;> exact answers_next _

theorem execFgDisagree_answers (h : HalfId) (s : State) : Answers (execFgDisagree h s) := by
  unfold execFgDisagree
  split <;> exact answers_next _

theorem execWeirDoorbell_answers (src : Fin 4096) (payload : Word) (s : State) : Answers (execWeirDoorbell src payload s) := by
  unfold execWeirDoorbell
  split <;> exact answers_next _

theorem execJtagClose_answers (s : State) : Answers (execJtagClose s) := by
  unfold execJtagClose
  split <;> exact answers_next _

theorem execWheelDiagTimeout_answers (h : HalfId) (s : State) : Answers (execWheelDiagTimeout h s) := by
  unfold execWheelDiagTimeout
  split <;> exact answers_next _

theorem execCalAlignResult_answers (s : State) : Answers (execCalAlignResult s) := by
  unfold execCalAlignResult
  split
  · exact answers_next _
  · exact answers_ite _ _ _

theorem execConfigFlashWriteDone_answers (ok : Bool) (s : State) : Answers (execConfigFlashWriteDone ok s) := by
  unfold execConfigFlashWriteDone
  split
  · exact answers_next _
  · exact answers_ite _ _ _

theorem execPtpSyncTimeout_answers (s : State) : Answers (execPtpSyncTimeout s) := by
  unfold execPtpSyncTimeout
  split
  · exact answers_next _
  · exact answers_ite _ _ _

theorem execSupplyRestartStep_answers (s : State) : Answers (execSupplyRestartStep s) := by
  unfold execSupplyRestartStep
  split
  · exact answers_next _
  · exact answers_ite _ _ _

theorem execScrubDeferExpire_answers (s : State) : Answers (execScrubDeferExpire s) := by
  unfold execScrubDeferExpire
  split
  · exact answers_next _
  · exact answers_ite _ _ _

theorem execPowerOver_answers (s : State) : Answers (execPowerOver s) := by
  unfold execPowerOver
  split
  · exact answers_next _
  · exact answers_ite _ _ _

theorem execShutdown_answers (s : State) : Answers (execShutdown s) := by
  unfold execShutdown
  split
  · exact answers_next _
  · exact answers_ite _ _ _

theorem execResetFollows_answers (s : State) : Answers (execResetFollows s) := by
  unfold execResetFollows
  split
  · exact answers_next _
  · exact answers_ite _ _ _

theorem execResultsComplete_answers (h : HalfId) (j : Fin 12) (stage : Stage) (s : State) : Answers (execResultsComplete h j stage s) := by
  unfold execResultsComplete
  split
  · exact answers_next _
  · split
    · exact answers_next _
    · dsimp only
      split <;> exact answers_next _

/-- Every command but REQ_DB_WRITE answers: a row without a guard as it stands, a row with one on both of its sides. -/
theorem exec_answers_of_not_reqDb (s : State) (c : Instr) (hc : ringsReqDb c = false) : Answers (exec c s) := by
  cases c with
  | reqDbWrite len => nomatch hc
  | datagramRepeat => exact execDatagramRepeat_answers s
  | receiverDisagree ix => exact execReceiverDisagree_answers ix s
  | calAlignResult => exact execCalAlignResult_answers s
  | calTwistResult => exact execCalTwistResult_answers s
  | calTwistTimeout => exact execCalTwistTimeout_answers s
  | fgDisagree h => exact execFgDisagree_answers h s
  | weirStatusQuery src => exact answers_ite _ _ _
  | weirDoorbell src payload => exact execWeirDoorbell_answers src payload s
  | conversionRecordWrite h q v => exact answers_ite _ _ _
  | resultsComplete h j stage => exact execResultsComplete_answers h j stage s
  | canStatusFrame => exact answers_ite _ _ _
  | configCommit m => exact answers_ite _ _ _
  | configDryRun m => exact answers_ite _ _ _
  | configFlashWriteDone ok => exact execConfigFlashWriteDone_answers ok s
  | acqSetMask m => exact answers_ite _ _ _
  | acqSetDelay m => exact answers_ite _ _ _
  | acqSetStep m => exact answers_ite _ _ _
  | acqSetPeriod m => exact answers_ite _ _ _
  | sluiceStart m => exact answers_ite _ _ _
  | sluiceHalt m => exact answers_ite _ _ _
  | sluiceClockRestart m => exact answers_ite _ _ _
  | sessionOpen m => exact answers_ite _ _ _
  | sessionClose m => exact answers_ite _ _ _
  | tdacOpenShort m => exact answers_ite _ _ _
  | tdacGain m => exact answers_ite _ _ _
  | tdacManual m => exact answers_ite _ _ _
  | jtagClose => exact execJtagClose_answers s
  | ptpSyncTimeout => exact execPtpSyncTimeout_answers s
  | ppsPulse ofsNs => exact answers_ite _ _ _
  | timeMapWrite sec ns => exact answers_ite _ _ _
  | tcxoFail => exact answers_ite _ _ _
  | supplyRestartStep => exact execSupplyRestartStep_answers s
  | scrubDeferExpire => exact execScrubDeferExpire_answers s
  | powerOver => exact execPowerOver_answers s
  | ssSupplyTrip n => exact answers_ite _ _ _
  | ssSupplyRetry n => exact answers_ite _ _ _
  | shutdown => exact execShutdown_answers s
  | resetFollows => exact execResetFollows_answers s
  | wheelDiagTimeout h => exact execWheelDiagTimeout_answers h s
  | _ => exact ⟨_, rfl⟩

/-! ### A message out of the request buffer -/

/-- What an outcome is that comes of handing on a message: that of one of the rows of messages, none of which rings REQ_DB or sets FRAME, or
that of a command which no row knows. -/
def Mailed (s : State) (o : Host.Outcome State Fault Refusal) : Prop :=
  (∃ c, ringsReqDb c = false ∧ setsFrame c = false ∧ o = exec c s) ∨ ∃ mb cmd m, o = .next (s.unknown mb cmd m)

theorem mailed_exec {s : State} (c : Instr) (hr : ringsReqDb c = false) (hf : setsFrame c = false) : Mailed s (exec c s) :=
  .inl ⟨c, hr, hf, rfl⟩

theorem mailed_unknown (mb cmd : Nat) (m : Msg) (s : State) : Mailed s (.next (s.unknown mb cmd m)) := .inr ⟨mb, cmd, m, rfl⟩

theorem State.sluiceCtl_mailed (m : Msg) (s : State) : Mailed s (s.sluiceCtl m) := by
  unfold State.sluiceCtl
  dsimp only
  split
  · exact mailed_exec (.sluiceStart m) rfl rfl
  · split
    · exact mailed_exec (.sluiceHalt m) rfl rfl
    · exact mailed_exec (.sluiceClockRestart m) rfl rfl

theorem State.acqSetAny_mailed (m : Msg) (s : State) : Mailed s (s.acqSetAny m) := by
  unfold State.acqSetAny
  split
  · exact mailed_exec (.acqSetDelay m) rfl rfl
  · exact mailed_exec (.acqSetStep m) rfl rfl
  · exact mailed_exec (.acqSetPeriod m) rfl rfl
  · exact mailed_exec (.acqSetMask m) rfl rfl

theorem State.mail02_mailed (mb cmd : Nat) (m : Msg) (s : State) : Mailed s (s.mail02 mb cmd m) := by
  unfold State.mail02
  split
  · exact mailed_exec (.stop m) rfl rfl
  · exact mailed_exec (.floodgateRelease m) rfl rfl
  · exact mailed_exec (.setDirection m) rfl rfl
  · exact mailed_exec (.fgStatus m) rfl rfl
  · exact mailed_exec (.setpoint m) rfl rfl
  · exact mailed_exec (.imageBegin m) rfl rfl
  · exact mailed_exec (.imageChunk m) rfl rfl
  · split
    · exact mailed_exec (.configDryRun m) rfl rfl
    · exact mailed_exec (.configCommit m) rfl rfl
  · exact mailed_exec (.imageAbort m) rfl rfl
  · exact mailed_exec (.configRead m) rfl rfl
  · exact mailed_exec (.configInfo m) rfl rfl
  · exact mailed_exec (.linkSet m) rfl rfl
  · exact mailed_unknown ..

theorem State.mail3_mailed (cmd : Nat) (m : Msg) (s : State) : Mailed s (s.mail3 cmd m) := by
  unfold State.mail3
  split
  · exact mailed_exec (.slotArm m) rfl rfl
  · exact mailed_exec (.slotWrite m) rfl rfl
  · exact mailed_exec (.slotFree m) rfl rfl
  · exact mailed_exec (.slotRead m) rfl rfl
  · exact mailed_exec (.profileWrite m) rfl rfl
  · exact mailed_exec (.profileRead m) rfl rfl
  · exact mailed_exec (.trackerSet m) rfl rfl
  · exact mailed_exec (.twistSet m) rfl rfl
  · exact State.acqSetAny_mailed m s
  · exact mailed_exec (.clSet m) rfl rfl
  · exact mailed_exec (.progLoad m) rfl rfl
  · exact State.sluiceCtl_mailed m s
  · exact mailed_exec (.sluiceXfer m) rfl rfl
  · exact mailed_exec (.pinClaim m) rfl rfl
  · exact mailed_exec (.pinRelease m) rfl rfl
  · exact mailed_exec (.gpioSet m) rfl rfl
  · exact mailed_unknown ..

theorem State.mail4_mailed (cmd : Nat) (m : Msg) (s : State) : Mailed s (s.mail4 cmd m) := by
  unfold State.mail4
  split
  · exact mailed_exec (.wheelDiag m) rfl rfl
  · exact mailed_exec (.statusRead m) rfl rfl
  · exact mailed_exec (.faultRead m) rfl rfl
  · exact mailed_exec (.calAlign m) rfl rfl
  · exact mailed_exec (.calTwist m) rfl rfl
  · exact mailed_exec (.calApply m) rfl rfl
  · exact mailed_exec (.calAbort m) rfl rfl
  · split
    · exact mailed_exec (.sessionClose m) rfl rfl
    · exact mailed_exec (.sessionOpen m) rfl rfl
  · exact mailed_exec (.sliceCal m) rfl rfl
  · split
    · exact mailed_exec (.tdacOpenShort m) rfl rfl
    · split
      · exact mailed_exec (.tdacGain m) rfl rfl
      · exact mailed_exec (.tdacManual m) rfl rfl
  · exact mailed_exec (.tdacStop m) rfl rfl
  · exact mailed_exec (.sensorRead m) rfl rfl
  · exact mailed_unknown ..

theorem State.mail57_mailed (mb cmd : Nat) (m : Msg) (s : State) : Mailed s (s.mail57 mb cmd m) := by
  unfold State.mail57
  split
  · exact mailed_exec (.telemSet m) rfl rfl
  · exact mailed_exec (.tarnInfo m) rfl rfl
  · exact mailed_exec (.recordRead m) rfl rfl
  · exact mailed_exec (.traceRead m) rfl rfl
  · exact mailed_exec (.toothlogRead m) rfl rfl
  · exact mailed_exec (.attest m) rfl rfl
  · exact mailed_exec (.identity m) rfl rfl
  · exact mailed_exec (.ownerEnrol m) rfl rfl
  · exact mailed_exec (.challenge m) rfl rfl
  · exact mailed_exec (.jtagUnlock m) rfl rfl
  · exact mailed_exec (.fwBegin m) rfl rfl
  · exact mailed_exec (.fwChunk m) rfl rfl
  · exact mailed_exec (.fwCommit m) rfl rfl
  · exact mailed_exec (.sleepNotice m) rfl rfl
  · exact mailed_exec (.linkReset m) rfl rfl
  · exact mailed_exec (.reset m) rfl rfl
  · exact mailed_exec (.logRead m) rfl rfl
  · exact mailed_unknown ..

theorem State.mail_mailed (mb cmd : Nat) (m : Msg) (s : State) : Mailed s (s.mail mb cmd m) := by
  unfold State.mail
  split
  · exact State.mail02_mailed mb cmd m s
  · split
    · exact State.mail3_mailed cmd m s
    · split
      · exact State.mail4_mailed cmd m s
      · exact State.mail57_mailed mb cmd m s

/-- REQ_DB_WRITE answers a state with the same vault, or does what the row of a message does in such a state. -/
theorem execReqDbWrite_cases (len : BitVec 16) (s : State) :
    (∃ u, u.vault = s.vault ∧ execReqDbWrite len s = .next u) ∨
      ∃ c u, ringsReqDb c = false ∧ setsFrame c = false ∧ u.vault = s.vault ∧ execReqDbWrite len s = exec c u := by
  unfold execReqDbWrite
  split
  · exact .inl ⟨s, rfl, rfl⟩
  · split
    · exact .inl ⟨_, State.spiLost_vault s, rfl⟩
    · dsimp only
      split
      · obtain ⟨c, hr, hf, h⟩ | ⟨mb, cmd, m, h⟩ := State.mail_mailed (byteAt (s.hub.link.buf.take len.toNat) 0)
            (u16 (s.hub.link.buf.take len.toNat) 2) (bufMsg (s.hub.link.buf.take len.toNat)) s.takeBuffer
        · exact .inr ⟨c, _, hr, hf, State.takeBuffer_vault s, h⟩
        · exact .inl ⟨_, (State.unknown_vault ..).trans (State.takeBuffer_vault s), h⟩
      · exact .inl ⟨_, (State.discard_vault ..).trans (State.takeBuffer_vault s), rfl⟩

/-! ### Every command answers -/

/-- In every state every command answers a next state. -/
theorem exec_answers (c : Instr) (s : State) : Answers (exec c s) := by
  cases c with
  | reqDbWrite len =>
    obtain ⟨u, -, h⟩ | ⟨c, u, hr, -, -, h⟩ := execReqDbWrite_cases len s
    · exact ⟨u, h⟩
    · exact (exec_answers_of_not_reqDb u c hr).imp fun _ => h.trans
  | _ => exact exec_answers_of_not_reqDb s _ rfl

/-! ### The vault under the commands that open it -/

/-- A request that is not served, or one of whose checks refuses it, leaves the vault; else it has its command's effect in a state with
the same vault. -/
theorem State.request_vault_cases {mb : Fin 8} {cmd : Nat} {len : Ask → Nat} {m : Msg} {s : State} {serve : Ask → State → State}
    {cs : Ask → State → List (Bool × Nat)} {eff : Ask → State → State} (h : ∀ a u, serve a u = u.checked a (cs a u) (eff a)) :
    (s.request mb cmd len serve m).vault = s.vault ∨
      ∃ a u, u.vault = s.vault ∧ (cs a u).find? (·.1) = none ∧ s.request mb cmd len serve m = eff a u := by
  have hh := State.hear_vault mb cmd m s
  unfold State.request
  dsimp only
  split
  · exact .inl hh
  · unfold State.accept
    dsimp only
    split
    · exact .inl ((State.refuse_vault ..).trans hh)
    · split
      · exact .inl ((State.refuse_vault ..).trans hh)
      · split
        · exact .inl ((State.refuse_vault ..).trans hh)
        · split
          · exact .inl ((State.refuse_vault ..).trans hh)
          · rw [h]
            unfold State.checked
            split
            · exact .inl ((State.done_vault ..).trans ((State.linkMap_vault ..).trans hh))
            · next hn => exact .inr ⟨_, _, (State.linkMap_vault ..).trans hh, hn, rfl⟩

/-- OWNER_ENROL leaves the vault but for the owner key. -/
theorem execOwnerEnrol_vault (m : Msg) (s t : State) (q : execOwnerEnrol m s = .next t) :
    t.vault = { s.vault with owner := t.vault.owner } := by
  cases Host.Outcome.next.inj q
  obtain h | ⟨a, u, hu, -, h⟩ := State.request_vault_cases (serve := State.serveEnrol) (fun _ _ => rfl)
  · rw [h]
  · rw [h, State.done_vault, State.log_vault, ← hu]
    rfl

/-- FW_BEGIN leaves the vault but for the firmware slots. -/
theorem execFwBegin_vault (m : Msg) (s t : State) (q : execFwBegin m s = .next t) : t.vault = { s.vault with fw := t.vault.fw } := by
  cases Host.Outcome.next.inj q
  obtain h | ⟨a, u, hu, -, h⟩ := State.request_vault_cases (serve := State.serveFwBegin) (fun _ _ => rfl)
  · rw [h]
  · rw [h, State.done_vault, State.cfgMap_vault, ← hu]
    rfl

/-- FW_CHUNK leaves the vault but for the firmware slots. -/
theorem execFwChunk_vault (m : Msg) (s t : State) (q : execFwChunk m s = .next t) : t.vault = { s.vault with fw := t.vault.fw } := by
  cases Host.Outcome.next.inj q
  obtain h | ⟨a, u, hu, -, h⟩ := State.request_vault_cases (serve := State.serveFwChunk) (fun _ _ => rfl)
  · rw [h]
  · rw [h, State.done_vault, State.cfgMap_vault, ← hu]
    rfl

/-- FW_COMMIT leaves the vault but for the firmware slots. -/
theorem execFwCommit_vault (m : Msg) (s t : State) (q : execFwCommit m s = .next t) : t.vault = { s.vault with fw := t.vault.fw } := by
  cases Host.Outcome.next.inj q
  obtain h | ⟨a, u, hu, -, h⟩ := State.request_vault_cases (serve := State.serveFwCommit) (fun _ _ => rfl)
  · rw [h]
  · rw [h, State.done_vault, State.log_vault, State.cfgMap_vault, ← hu]
    rfl

/-- TRIAL_CONFIRM leaves the vault but for the firmware slots and the rollback floor. -/
theorem execTrialConfirm_vault (s t : State) (q : execTrialConfirm s = .next t) :
    t.vault = { s.vault with fw := t.vault.fw, floor := t.vault.floor } := by
  cases Host.Outcome.next.inj q
  unfold State.trialConfirm
  dsimp only
  split
  · rfl
  · rw [State.bootMap_vault, ← State.advanceTo_vault (s.hub.boot.since + 60 * etPerSec) s]
    rfl

/-- The boot fallback leaves the vault but for the firmware slots, FRAME and the instant of the last tick. -/
theorem State.bootFallback_vault (s : State) :
    s.bootFallback.vault = { s.vault with fw := s.bootFallback.vault.fw }.clock s.bootFallback.hub.frame s.bootFallback.hub.tick := by
  unfold State.bootFallback
  split
  · rw [State.moduleReset_vault]
    rfl
  · rfl

/-- What the ROM selects leaves the owner key and the rollback floor. -/
theorem Flash.select_keeps (f : Flash) : f.select.1.owner = f.owner ∧ f.select.1.floor = f.floor := by
  unfold Flash.select
  split
  · extract_lets f1 j
    split
    · exact ⟨rfl, rfl⟩
    · split <;> exact ⟨rfl, rfl⟩
  · extract_lets i ok f1
    split
    · exact ⟨rfl, rfl⟩
    · split <;> exact ⟨rfl, rfl⟩

/-- COLD_BOOT leaves the state, or changes the flash and the boot state of the one after the boot fallback, not the owner key and not the
rollback floor. -/
theorem State.coldBoot_cases (s : State) :
    s.coldBoot = s ∨ ∃ f g k, f.owner = s.bootFallback.hub.flash.owner ∧ f.floor = s.bootFallback.hub.flash.floor ∧
      s.coldBoot = ((s.bootFallback.flashMap (fun _ => f)).bootMap g).bootMap k := by
  unfold State.coldBoot
  split
  · exact .inl rfl
  · obtain ⟨ho, hf⟩ := Flash.select_keeps s.bootFallback.hub.flash.endTrials.1
    dsimp only
    refine .inr ?_
    split
    · refine ⟨_, _, _, ?_, ?_, rfl⟩
      · split <;> exact ho
      · split <;> exact hf
    · refine ⟨_, _, _, ?_, ?_, rfl⟩
      · split <;> exact ho
      · split <;> exact hf

/-- COLD_BOOT leaves the vault but for the firmware slots, FRAME and the instant of the last tick. -/
theorem execColdBoot_vault (s t : State) (q : execColdBoot s = .next t) :
    t.vault = { s.vault with fw := t.vault.fw }.clock t.vault.frame t.vault.tick := by
  cases Host.Outcome.next.inj q
  obtain h | ⟨f, g, k, ho, hf, h⟩ := State.coldBoot_cases s
  · rw [h]
    rfl
  · obtain ⟨hp, -, ho', hf', -⟩ := Vault.mk.inj (State.bootFallback_vault s)
    rw [h, State.bootMap_vault, State.bootMap_vault, Vault.mk.injEq]
    exact ⟨hp, rfl, ho.trans ho', hf.trans hf', rfl, rfl⟩

/-! ### The queue under every command -/

/-- Every command but REQ_DB_WRITE leaves the queue. -/
theorem exec_pending_of_not_reqDb {s t : State} (c : Instr) (hc : ringsReqDb c = false) (q : exec c s = .next t) :
    t.pending = s.pending := by
  cases ho : opensVault c with
  | false => exact congrArg Vault.pending (exec_vault_clock c ho q)
  | true =>
    cases c with
    | ownerEnrol m => exact congrArg Vault.pending (execOwnerEnrol_vault m s t q)
    | fwBegin m => exact congrArg Vault.pending (execFwBegin_vault m s t q)
    | fwChunk m => exact congrArg Vault.pending (execFwChunk_vault m s t q)
    | fwCommit m => exact congrArg Vault.pending (execFwCommit_vault m s t q)
    | coldBoot => exact congrArg Vault.pending (execColdBoot_vault s t q)
    | trialConfirm => exact congrArg Vault.pending (execTrialConfirm_vault s t q)
    | reqDbWrite len => nomatch hc
    | _ => nomatch ho

/-- Every command leaves the queue. -/
theorem exec_pending (c : Instr) (s t : State) (q : exec c s = .next t) : t.pending = s.pending := by
  cases c with
  | reqDbWrite len =>
    obtain ⟨u, hu, h⟩ | ⟨c, u, hr, -, hu, h⟩ := execReqDbWrite_cases len s
    · rw [← Host.Outcome.next.inj (h.symm.trans q)]
      exact congrArg Vault.pending hu
    · exact (exec_pending_of_not_reqDb c hr (h.symm.trans q)).trans (congrArg Vault.pending hu)
  | _ => exact exec_pending_of_not_reqDb _ rfl q

/-! ### A step -/

/-- A step with a command in front runs it on the state with the queue's rest. -/
theorem step_of_pending_cons {c : Instr} {q : List Instr} {s : State} (h : s.pending = c :: q) :
    step s = exec c { s with pending := q } := by
  unfold step
  rw [h]

end Sys2Proof.Machine

open Sys2Proof.Machine

/-- Settles O3: by cases over the rows, the guarded ones answer on both sides, and REQ_DB_WRITE does what a message's row does. -/
theorem everyCommandAnswersANextState : Obligations.EveryCommandAnswersANextState := by
  unfold Obligations.EveryCommandAnswersANextState
  exact exec_answers

/-- Settles O4: the queue is part of the vault, of which a command changes at most slots, owner key, floor, FRAME and tick. -/
theorem commandsLeaveTheQueueAlone : Obligations.CommandsLeaveTheQueueAlone := by
  unfold Obligations.CommandsLeaveTheQueueAlone
  exact exec_pending

/-- Settles O1: the step's match on the queue takes its front. -/
theorem stepRunsTheFrontCommand : Obligations.StepRunsTheFrontCommand := by
  unfold Obligations.StepRunsTheFrontCommand
  intro c q s
  exact step_of_pending_cons rfl

end

section
/-! PROOFS. The frame tick and the instants between: a step with no command waiting, FRAME and the instant of the last tick, and the
foregrounds that overrun. -/

namespace Sys2Proof.Machine

open Sys2Proof Sys2Proof.Safety

/-! ### Late foregrounds (R41) -/

/-- A fold none of whose steps changes any value. -/
theorem foldl_of_fixed {α β : Type} {f : β → α → β} (l : List α) (h : ∀ x ∈ l, ∀ b, f b x = b) (b : β) : l.foldl f b = b := by
  induction l with
  | nil => rfl
  | cons x l ih =>
    rw [List.foldl_cons, h x List.mem_cons_self b]
    exact ih fun y hy => h y (List.mem_cons_of_mem x hy)

/-- No foreground is next by an instant before those of all that are owed. -/
theorem State.nextOwed_none {t : Nat} {s : State} (h : ∀ n, (s.hub.owed.get n).all (fun e => t < e) = true) : s.nextOwed t = none := by
  unfold State.nextOwed
  refine List.foldl_fixed' (fun n => ?_) _
  have hn := h n
  cases ho : s.hub.owed.get n with
  | none => rfl
  | some e =>
    rw [ho] at hn
    exact if_neg (by simpa using hn)

/-- Where one core alone is owed its foreground, that one is next once its instant has come. -/
theorem State.nextOwed_only {n : Fin 4} {e : Nat} (t : Nat) {s : State} (hn : s.hub.owed.get n = some e)
    (ho : ∀ m, m ≠ n → s.hub.owed.get m = none) : s.nextOwed t = if e ≤ t then some (n, e) else none := by
  obtain ⟨l, r, hl⟩ := List.append_of_mem (List.mem_finRange n)
  obtain ⟨-, hnr, hlr⟩ := List.nodup_append.mp (hl ▸ List.nodup_finRange 4)
  have hl' : ∀ m ∈ l, s.hub.owed.get m = none := fun m hm => ho m (hlr m hm n List.mem_cons_self)
  have hr' : ∀ m ∈ r, s.hub.owed.get m = none := fun m hm => ho m (fun h => (List.nodup_cons.mp hnr).1 (h ▸ hm))
  unfold State.nextOwed idxs
  rw [hl, List.foldl_append, List.foldl_cons, foldl_of_fixed l, foldl_of_fixed r, hn]
  · intro m hm b
    rw [hr' m hm]
  · intro m hm b
    rw [hl' m hm]

/-- With no foreground next, none runs late. -/
theorem State.lateOne_of_none {t : Nat} {s : State} (h : s.nextOwed t = none) : s.lateOne t = s := by
  unfold State.lateOne
  rw [h]

/-- The foreground that is next runs at its instant, and is owed no more. -/
theorem State.lateOne_of_some {t : Nat} {s : State} {n : Fin 4} {e : Nat} (h : s.nextOwed t = some (n, e)) : s.lateOne t =
    ((s.advanceTo e).hubMap (fun u => { u with owed := put1 u.owed n none, lastWd := put1 u.lastWd n e })).foreground n := by
  unfold State.lateOne
  rw [h]

theorem State.late_of_none {t : Nat} {s : State} (h : s.nextOwed t = none) : s.late t = s :=
  List.foldl_fixed' (fun _ => State.lateOne_of_none h) _

/-! ### What a vault says -/

theorem pending_of_vault {t : State} {v : Vault} (h : t.vault = v) : t.pending = v.pending := congrArg Vault.pending h

theorem frame_tick_of_vault {t : State} {v : Vault} (h : t.vault = v) : t.hub.frame = v.frame ∧ t.hub.tick = v.tick :=
  ⟨congrArg Vault.frame h, congrArg Vault.tick h⟩

/-! ### No command waiting -/

/-- A step with no command in front lets one period pass, and the late foregrounds of its end run. -/
theorem step_of_pending_nil {s : State} (h : s.pending = []) : step s = .next ((s.advance 1).late (s.now + 1)) := by
  unfold step
  rw [h]

/-- Time owes no core a foreground and frees none of one. -/
theorem State.advance_owed (n : Nat) (s : State) : (s.advance n).hub.owed = s.hub.owed :=
  congrArg HubSteady.owed (State.advance_hub n s)

theorem State.advance_pending (n : Nat) (s : State) : (s.advance n).pending = s.pending := pending_of_vault (State.advance_vault n s)

theorem State.late_pending (t : Nat) (s : State) : (s.late t).pending = s.pending := pending_of_vault (State.late_vault t s)

/-! ### FRAME and the instant of the last tick -/

/-- Every command but REQ_DB_WRITE and those of `setsFrame` leaves FRAME and the instant of the last tick. -/
theorem exec_frame_tick_of_not_reqDb {s t : State} (c : Instr) (hr : ringsReqDb c = false) (hf : setsFrame c = false)
    (q : exec c s = .next t) : t.hub.frame = s.hub.frame ∧ t.hub.tick = s.hub.tick := by
  cases ho : opensVault c with
  | false => exact frame_tick_of_vault (exec_vault c ho hf q)
  | true =>
    cases c with
    | ownerEnrol m => exact frame_tick_of_vault (execOwnerEnrol_vault m s t q)
    | fwBegin m => exact frame_tick_of_vault (execFwBegin_vault m s t q)
    | fwChunk m => exact frame_tick_of_vault (execFwChunk_vault m s t q)
    | fwCommit m => exact frame_tick_of_vault (execFwCommit_vault m s t q)
    | trialConfirm => exact frame_tick_of_vault (execTrialConfirm_vault s t q)
    | coldBoot => nomatch hf
    | reqDbWrite len => nomatch hr
    | _ => nomatch ho

/-- Every command but those of `setsFrame` leaves FRAME and the instant of the last tick. -/
theorem exec_frame_tick {s t : State} (c : Instr) (hf : setsFrame c = false) (q : exec c s = .next t) :
    t.hub.frame = s.hub.frame ∧ t.hub.tick = s.hub.tick := by
  cases c with
  | reqDbWrite len =>
    obtain ⟨u, hu, h⟩ | ⟨c, u, hr, hc, hu, h⟩ := execReqDbWrite_cases len s
    · rw [← Host.Outcome.next.inj (h.symm.trans q)]
      exact frame_tick_of_vault hu
    · obtain ⟨hf, ht⟩ := frame_tick_of_vault hu
      exact (exec_frame_tick_of_not_reqDb c hr hc (h.symm.trans q)).imp (·.trans hf) (·.trans ht)
  | _ => exact exec_frame_tick_of_not_reqDb _ rfl hf q

/-- With no trial that has failed, or no hub reset before, the ROM finds nothing to fall back from. -/
theorem State.bootFallback_none {s : State} (h : s.hub.flash.endTrials.2 = false ∨ s.hub.boot.warm = false) : s.bootFallback = s := by
  unfold State.bootFallback
  refine if_neg ?_
  rw [Bool.and_eq_true]
  rintro ⟨hf, hw⟩
  exact h.elim (absurd hf <| Bool.eq_false_iff.mp ·) (absurd hw <| Bool.eq_false_iff.mp ·)

/-- COLD_BOOT without a boot fallback leaves FRAME and the instant of the last tick. -/
theorem State.coldBoot_frame_tick {s : State} (h : s.hub.flash.endTrials.2 = false ∨ s.hub.boot.warm = false) :
    s.coldBoot.hub.frame = s.hub.frame ∧ s.coldBoot.hub.tick = s.hub.tick := by
  obtain hs | ⟨f, g, k, -, -, hs⟩ := State.coldBoot_cases s
  · rw [hs]
    exact ⟨rfl, rfl⟩
  · rw [hs, State.bootFallback_none h]
    exact ⟨rfl, rfl⟩

/-- A frame tick adds one to FRAME, stands at the instant the clock was brought to, and leaves the queue. -/
theorem State.frameTick_frame_tick (i : TickIn) (s : State) : (s.frameTick i).hub.frame = s.hub.frame + 1 ∧
    (s.frameTick i).hub.tick = ((s.late (s.hub.tick + 8000)).advanceTo (s.hub.tick + 8000)).now ∧ (s.frameTick i).pending = s.pending := by
  obtain ⟨hf, ht⟩ := frame_tick_of_vault (State.frameTick_vault i s)
  exact ⟨hf, ht, pending_of_vault (State.frameTick_vault i s)⟩

/-- FRAME_TICK ticks where EVCLK runs. -/
theorem execFrameTick_of_clocked {s : State} (i : TickIn) (h : s.clocked = true) : execFrameTick i s = .next (s.frameTick i) :=
  congrArg Host.Outcome.next (if_pos h)

/-- Without EVCLK there is no tick. -/
theorem execFrameTick_of_not_clocked {s : State} (i : TickIn) (h : s.clocked = false) : execFrameTick i s = .next s :=
  congrArg Host.Outcome.next (if_neg (ne_true_of_eq_false h))

/-! ### Overruns (R40, R41) -/

/-- The state in which a FRAME_OVERRUN is counted: 7.000 us after the tick, the core's overrun remembered. -/
def State.pastOverrun (o : Overrun) (s : State) : State :=
  ((s.late (s.hub.tick + 5600)).advanceTo (s.hub.tick + 5600)).overran o.core.ix o.ends

/-- FRAME_OVERRUN of a core that works: counted in the half of a steward, in the hub for S0 and S1. -/
theorem execFrameOverrun_of_coreOn {o : Overrun} {s : State} (h : s.coreOn o.core.ix = true) : execFrameOverrun o s =
    .next (match o.core with
      | .stewA => (s.pastOverrun o).onHalf .A (fun h => h.raise 0x1F (locInp h.id 7))
      | .stewB => (s.pastOverrun o).onHalf .B (fun h => h.raise 0x1F (locInp h.id 7))
      | _ => (s.pastOverrun o).raiseHub 0x1F locHub) := by
  unfold execFrameOverrun
  rw [h]
  rfl

/-- A core that overran has no background in its frame. -/
@[simp] theorem State.overran_noBg (n : Fin 4) (ends : Nat) (s : State) : (s.overran n ends).hub.noBg.get n = true := put1_get_self ..

/-- A foreground that runs on past the next tick is remembered with its end. -/
theorem State.overran_behind_past {n : Fin 4} {ends : Nat} (s : State) (h : 8000 < ends) :
    (s.overran n ends).hub.behind.get n = some (s.hub.tick + ends) := by
  show (if 8000 < ends then put1 s.hub.behind n (some (s.hub.tick + ends)) else s.hub.behind).get n = _
  rw [if_pos h, put1_get_self]

/-- One that ends by the next tick is not. -/
theorem State.overran_behind_within {n : Fin 4} {ends : Nat} (s : State) (h : ends ≤ 8000) :
    (s.overran n ends).hub.behind = s.hub.behind := if_neg (Nat.not_lt.mpr h)

/-- S0 with no background in the frame writes no telemetry. -/
theorem State.background_of_noBg {s : State} (h : s.hub.noBg.get 0 = true) : s.background = s := by
  unfold State.background
  rw [h, Bool.not_true, Bool.and_false]
  rfl

/-- Where neither steward runs, a step of their foreground is left undone. -/
theorem State.fore_of_none {on : HalfId → Bool} (f : Half → Half) (s : State) (hA : on .A = false) (hB : on .B = false) : s.fore on f = s := by
  unfold State.fore
  refine foldl_of_fixed _ (fun id _ t => ?_) s
  cases id
  · exact if_neg (ne_true_of_eq_false hA)
  · exact if_neg (ne_true_of_eq_false hB)

/-- A core runs its foreground at a tick if the one before has ended. -/
theorem State.runs_of_behind {n : Fin 4} {e : Nat} {s : State} (h : s.hub.behind.get n = some e) : s.runs n = decide (e ≤ s.now) := by
  unfold State.runs
  rw [h]
  rfl

/-- What a core is owed after a tick. -/
@[simp] theorem State.dogs_owed (n : Fin 4) (s : State) : s.dogs.hub.owed.get n = if s.runs n then none else s.hub.behind.get n :=
  Vector.get_ofFn ..

/-- A core without foreground has no background either. -/
@[simp] theorem State.dogs_noBg (n : Fin 4) (s : State) : s.dogs.hub.noBg.get n = !s.runs n := Vector.get_ofFn ..

end Sys2Proof.Machine

open Sys2Proof Sys2Proof.Machine

/-- Settles O2: the one period keeps the queue and moves the instant; the late foregrounds that follow keep the queue, and there are none
where no instant is so near. -/
theorem emptyQueueLetsOnePeriodPass : Obligations.EmptyQueueLetsOnePeriodPass := by
  unfold Obligations.EmptyQueueLetsOnePeriodPass
  intro s h
  have hp : (s.advance 1).pending = [] := (State.advance_pending 1 s).trans h
  have hl : ((s.advance 1).late (s.now + 1)).pending = [] := (State.late_pending ..).trans hp
  refine ⟨step_of_pending_nil h, hl, State.advance_now 1 s, hp, fun ho => ?_⟩
  rw [← State.advance_owed 1 s] at ho
  rw [step_of_pending_nil h, State.late_of_none (State.nextOwed_none ho)]

/-- Settles O5: by the vault under each command, REQ_DB_WRITE doing what a message's row does; COLD_BOOT without a boot fallback
changes flash and boot state alone. -/
theorem onlyTicksAndResetsMoveTheFrameCounter : Obligations.OnlyTicksAndResetsMoveTheFrameCounter := by
  unfold Obligations.OnlyTicksAndResetsMoveTheFrameCounter
  refine ⟨fun c s t hf q => exec_frame_tick c hf q, fun s t h q => ?_⟩
  rw [← Host.Outcome.next.inj q]
  exact State.coldBoot_frame_tick h

/-- Settles O6: the tick by its vault, the overrun row by its core, and what a tick owes by the choice of the next late foreground. -/
theorem frameTicksAdvanceAndOverrunsCount : Obligations.FrameTicksAdvanceAndOverrunsCount := by
  unfold Obligations.FrameTicksAdvanceAndOverrunsCount
  refine ⟨fun inp s => ⟨fun h => ?_, execFrameTick_of_not_clocked inp⟩, fun ends s => ⟨?_, ?_, ?_, ?_⟩,
    fun s => ⟨State.background_of_noBg, ?_, ?_, ?_⟩⟩
  · obtain ⟨hf, ht, hp⟩ := State.frameTick_frame_tick inp s
    refine ⟨_, execFrameTick_of_clocked inp h, hf, ht, ?_, hp⟩
    rw [ht, State.advanceTo_now]
    exact le_max_right ..
  · exact fun h => execFrameOverrun_of_coreOn (o := ⟨.stewA, ends⟩) h
  · exact fun h => execFrameOverrun_of_coreOn (o := ⟨.stewB, ends⟩) h
  · exact fun h => ⟨execFrameOverrun_of_coreOn (o := ⟨.s0, ends⟩) h, execFrameOverrun_of_coreOn (o := ⟨.s1, ends⟩) h⟩
  · exact fun n => ⟨State.overran_noBg n ends s, State.overran_behind_past s, State.overran_behind_within s⟩
  · exact fun on f hA hB => State.fore_of_none f s hA hB
  · intro n e h
    have hr : s.runs n = decide (e ≤ s.now) := State.runs_of_behind h
    constructor
    · intro he
      have hr : s.runs n = false := hr.trans (decide_eq_false (Nat.not_le.mpr he))
      simp [hr, h]
    · intro he
      have hr : s.runs n = true := hr.trans (decide_eq_true he)
      simp [hr]
  · intro n e t hn ho
    have hx := State.nextOwed_only t hn ho
    constructor
    · intro he
      rw [if_neg (Nat.not_le.mpr he)] at hx
      exact State.lateOne_of_none hx
    · intro he
      rw [if_pos he] at hx
      exact State.lateOne_of_some hx

end

section
/-! PROOFS. The heartbeats: what a link makes of one, and what the check units on the Leat make of it (R27 to R29, R383, R384). -/

namespace Sys2Proof.Machine

open Sys2Proof

/-! ### What a report of counts leaves alone -/

@[simp] theorem Half.cylMap_steady (k : Fin 24) (f : CylSt → CylSt) (h : Half) : (h.cylMap k f).steady = h.steady := rfl
@[simp] theorem Half.slotMap_steady (k : Fin 1024) (f : Slot → Slot) (h : Half) : (h.slotMap k f).steady = h.steady := rfl

@[simp] theorem Half.setCount_steady (k : Fin 24) (n : Word) (ks : List Nat) (h : Half) : (h.setCount k n ks).steady = h.steady := by
  unfold Half.setCount
  extract_lets s cyl h1 o fix h2 _ _ h3
  have e2 : h2.steady = h.steady := by
    refine (eachIdx_steady 1024 _ (fun j t => ?_) h1).trans (Half.cylMap_steady ..)
    split
    · exact Half.slotMap_steady ..
    · rfl
  clear_value h2
  have e3 : h3.steady = h.steady := e2
  split
  · rfl
  · split <;> exact e3

@[simp] theorem Half.takeCountOf_steady (k : Fin 24) (n : Word) (h : Half) : (h.takeCountOf k n).steady = h.steady := by
  unfold Half.takeCountOf
  dsimp only
  split
  · split
    · rfl
    · exact Half.setCount_steady ..
  · rfl

@[simp] theorem Half.recount_steady (k : Fin 24) (h : Half) : (h.recount k).steady = h.steady := by
  unfold Half.recount
  dsimp only
  split
  · split
    · rfl
    · exact Half.takeCountOf_steady ..
  · rfl

/-- The report of a count changes nothing of the half that a hand-over leaves alone. -/
theorem Half.countReport_steady (cyl : Nat) (fr n : Word) (h : Half) : (h.countReport cyl fr n).steady = h.steady := by
  refine eachIdx_steady 24 _ (fun k h => ?_) h
  dsimp only
  split
  · rfl
  · split
    · exact Half.takeCountOf_steady ..
    · split
      · rfl
      · exact Half.recount_steady ..

/-! ### The check units on the Leat (R27, R383, R384) -/

theorem LinkOnly.half {s t : State} (h : LinkOnly s t) (id : HalfId) : t.half id = s.half id := by
  obtain ⟨l, w, f, rfl⟩ := h
  cases id <;> rfl

theorem LinkOnly.checkFail_none (s : State) : LinkOnly s (s.checkFail none) := (LinkOnly.linkMap ..).then_ (.raiseHub ..)

/-- The counter of a direction of the Leat follows a frame. -/
def State.leatFollow (id : HalfId) (hb : Heartbeat) (s : State) : State :=
  s.hubMap (fun u => { u with leat := put1 u.leat id.toward (some hb.alive) })

/-- What the check units make of a frame that matches its CRC, by the distance of its alive counter from the last. -/
theorem State.leatCheck_of_some {id : HalfId} {hb : Heartbeat} {s : State} {a : BitVec 16} (hs : s.hubOn = true) (hc : hb.crcOk = true)
    (ha : s.hub.leat.get id.toward = some a) : s.leatCheck id hb =
      if (hb.alive - a).toNat = 1 then s.leatFollow id hb
      else if (hb.alive - a).toNat = 2 then (s.leatFollow id hb).raiseHub 0x61 locHub
      else if (hb.alive - a).toNat = 0 ∨ 32768 ≤ (hb.alive - a).toNat then s.checkFail none
      else (s.leatFollow id hb).checkFail none := by
  unfold State.leatCheck
  simp only [hs, hc, ha, Bool.not_true, Bool.false_eq_true, if_false, Bool.or_eq_true, decide_eq_true_eq]
  rfl

/-- The first frame of a direction is accepted. -/
theorem State.leatCheck_of_none {id : HalfId} {hb : Heartbeat} {s : State} (hs : s.hubOn = true) (hc : hb.crcOk = true)
    (ha : s.hub.leat.get id.toward = none) : s.leatCheck id hb = s.leatFollow id hb := by
  unfold State.leatCheck
  simp only [hs, hc, ha, Bool.not_true, Bool.false_eq_true, if_false]
  rfl

/-- The check units touch no half. -/
theorem State.leatCheck_half (id j : HalfId) (hb : Heartbeat) (s : State) : (s.leatCheck id hb).half j = s.half j := by
  have hf : (s.leatFollow id hb).half j = s.half j := State.hubMap_half ..
  cases hs : s.hubOn with
  | false =>
    unfold State.leatCheck
    rw [hs]
    rfl
  | true =>
    cases hc : hb.crcOk with
    | false =>
      unfold State.leatCheck
      rw [hs, hc]
      exact (LinkOnly.checkFail_none s).half j
    | true =>
      cases ha : s.hub.leat.get id.toward with
      | none => rw [State.leatCheck_of_none hs hc ha, hf]
      | some a =>
        rw [State.leatCheck_of_some hs hc ha]
        split
        · exact hf
        · split
          · exact ((LinkOnly.raiseHub ..).half j).trans hf
          · split
            · exact (LinkOnly.checkFail_none s).half j
            · exact ((LinkOnly.checkFail_none _).half j).trans hf

/-! ### A heartbeat on a link (R28, R29) -/

/-- The link of a kind. -/
def Links.on (link : Link) (k : Links) : LinkSt := match link with | .leat => k.leat | .hub => k.hub

/-- The link of a kind changed. -/
def Links.put (link : Link) (l : LinkSt) (k : Links) : Links :=
  match link with
  | .leat => { k with leat := l }
  | .hub => { k with hub := l }

theorem LinkSt.hear_of_not_valid {l : LinkSt} {hb : Heartbeat} (h : l.valid hb = false) : l.hear hb = { l with good := 0 } :=
  if_neg (ne_true_of_eq_false h)

theorem LinkSt.hear_of_valid {l : LinkSt} {hb : Heartbeat} (h : l.valid hb = true) : l.hear hb =
    { l with alive := some hb.alive, got := true, missed := 0, good := l.good + 1, up := l.up || 16 ≤ l.good + 1 } := if_pos h

/-- A link that is up stays up. -/
theorem LinkSt.hear_of_valid_up {l : LinkSt} {hb : Heartbeat} (h : l.valid hb = true) (hu : l.up = true) : l.hear hb =
    { l with alive := some hb.alive, got := true, missed := 0, good := l.good + 1 } := by
  obtain ⟨up, missed, good, alive, got⟩ := l
  subst hu
  exact LinkSt.hear_of_valid h

/-- The sixteenth valid heartbeat in a row restores a link that is down. -/
theorem LinkSt.hear_up_iff {l : LinkSt} {hb : Heartbeat} (h : l.valid hb = true) (hu : l.up = false) :
    (l.hear hb).up = true ↔ 15 ≤ l.good := by
  rw [LinkSt.hear_of_valid h, hu, Bool.false_or, decide_eq_true_eq]
  omega

/-- An invalid heartbeat on the hub link changes nothing but that link. -/
theorem State.heartbeat_hub_of_not_valid {id : HalfId} {hb : Heartbeat} {s : State} (hl : s.live id = true) (hh : s.hubLinks = true)
    (hv : (s.half id).links.hub.valid hb = false) : s.heartbeat id .hub hb =
      s.setHalf { s.half id with links := (s.half id).links.put .hub ((s.half id).links.hub.hear hb) } id := by
  unfold State.heartbeat
  simp only [hl, hh, hv]
  rfl

/-- A valid heartbeat on a link that is up: the link follows, and what it says stands for agreement; the counts it brings touch no link. -/
theorem State.heartbeat_links {id : HalfId} {link : Link} {hb : Heartbeat} {s : State} (hl : s.live id = true)
    (hh : link = .hub → s.hubLinks = true) (hv : ((s.half id).links.on link).valid hb = true)
    (hu : ((s.half id).links.on link).up = true) : ((s.heartbeat id link hb).half id).links =
      { (s.half id).links.put link (((s.half id).links.on link).hear hb) with other := some hb } := by
  have hw : (!s.live id || (decide (link = .hub) && !s.hubLinks)) = false := by
    cases link with
    | leat => rw [hl]; rfl
    | hub => rw [hl, hh rfl]; rfl
  unfold State.heartbeat
  rw [hw]
  extract_lets h l s0 set _ h1 _ h2 s1
  have hl' : l = (s.half id).links.on link := rfl
  have e0 : s0.half id = s.half id := by
    simp only [s0]
    split
    · exact State.leatCheck_half ..
    · rfl
  have e1 : h1.links = (s.half id).links.put link (l.hear hb) := by
    show set (s0.half id).links = _
    rw [e0]
    cases link <;> rfl
  have e2 : h2.links = { h1.links with other := some hb } :=
    congrArg Steady.links (eachOf_steady hb.counts _ (fun c t => Half.countReport_steady c.1 hb.frame c.2 t) _)
  have e3 : (s1.half id).links = h2.links := by
    have ef := (SameRun.flush (s0.setHalf h2 id)).half id
    rw [State.setHalf_half] at ef
    exact (congrArg Half.links (State.hubMap_half ..)).trans (congrArg Steady.links ef)
  rw [hl', hv, hu]
  show (s1.half id).links = _
  rw [e3, e2, e1, hl']

end Sys2Proof.Machine

open Sys2Proof Sys2Proof.Machine

/-- Settles O28: a valid heartbeat on a link that is up by the one lemma for both links, the rest by what a link hears, and by the
distance of the alive counter. -/
theorem heartbeatsKeepOrRestoreALink : Obligations.HeartbeatsKeepOrRestoreALink := by
  unfold Obligations.HeartbeatsKeepOrRestoreALink
  intro id hb s hl
  refine ⟨fun hh => ⟨fun hv => ?_, fun hv hu => ⟨_, rfl, ?_⟩⟩, fun hv hu => ⟨_, rfl, ?_⟩, fun l => LinkSt.hear_up_iff, fun h => rfl, fun hs hc =>
    ⟨State.leatCheck_of_none hs hc, fun a ha => ?_⟩⟩
  · refine congrArg Host.Outcome.next ((State.heartbeat_hub_of_not_valid hl hh hv).trans ?_)
    rw [LinkSt.hear_of_not_valid hv]
    rfl
  · exact (State.heartbeat_links (link := .hub) hl (fun _ => hh) hv hu).trans (by rw [Links.on, LinkSt.hear_of_valid_up hv hu]; rfl)
  · exact (State.heartbeat_links (link := .leat) hl nofun hv hu).trans (by rw [Links.on, LinkSt.hear_of_valid_up hv hu]; rfl)
  · rw [State.leatCheck_of_some hs hc ha]
    refine ⟨fun h => if_pos h, fun h => ?_, fun h => ?_, fun h => ?_⟩
    · rw [if_neg (by omega), if_pos h]
      rfl
    · rw [if_neg (by omega), if_neg (by omega), if_pos h]
    · rw [if_neg (by omega), if_neg (by omega), if_neg (by omega)]
      rfl

end

section
/-! PROOFS. The reference time: PTP, PPS, the time map and the TCXO (R33, R34, R404, R405). -/

namespace Sys2Proof.Machine

open Sys2Proof

/-- Valid syncs in a row within 1 us, after one that brings an offset. -/
def PtpSt.runAfter (ofs : Int) (p : PtpSt) : Nat := if ofs.natAbs ≤ 1000 then p.run + 1 else 0

/-- A sync that is taken, LOCK standing at a value. -/
def State.ptpTake (ofs : Int) (lock : Nat) (s : State) : State :=
  s.ptpMap (fun q => { q with ofs := if q.lock = 3 then q.ofs else satI 30 ofs, run := s.hub.ptp.runAfter ofs, syncAt := some s.now, lock := lock })

/-- A sync under PTP_EN: PPS keeps LOCK; an offset beyond 10 us ends LOCKED with PTP_UNLOCK; else LOCKED stays, and the 16th in a row
within 1 us reaches it. -/
theorem State.ptpSync_of_en {s : State} (ofs : Int) (hs : s.hubOn = true) (he : s.hub.link.cfg.ptpEn = true) : s.ptpSync ofs =
    if s.hub.ptp.lock = 3 then s.ptpTake ofs 3
    else if s.hub.ptp.lock = 2 ∧ 10000 < ofs.natAbs then (s.ptpTake ofs 1).raiseHub 0x67 locHub
    else if s.hub.ptp.lock = 2 ∨ 16 ≤ s.hub.ptp.runAfter ofs then s.ptpTake ofs 2
    else s.ptpTake ofs 1 := by
  have hr : (if ofs.natAbs ≤ 1000 then s.hub.ptp.run + 1 else 0) = s.hub.ptp.runAfter ofs := rfl
  unfold State.ptpSync
  simp only [hs, he, hr, Bool.not_true, Bool.or_self, Bool.false_eq_true, if_false, Bool.and_eq_true, Bool.or_eq_true, decide_eq_true_eq]
  by_cases h3 : s.hub.ptp.lock = 3
  · simp only [h3]
    rfl
  · by_cases ho : s.hub.ptp.lock = 2 ∧ 10000 < ofs.natAbs
    · simp only [ho, and_self, if_true]
      rfl
    · by_cases hl : s.hub.ptp.lock = 2 ∨ 16 ≤ s.hub.ptp.runAfter ofs
      · simp only [h3, ho, hl, if_true, if_false]
        rfl
      · simp only [h3, ho, hl, if_false]
        rfl

/-- Syncs have ceased, LOCK standing at a value. -/
def State.ptpCease (lock : Nat) (s : State) : State := s.ptpMap (fun q => { q with syncAt := none, run := 0, lock := lock })

theorem State.ptpCease_of_lock (s : State) : s.ptpMap (fun q => { q with syncAt := none, run := 0, lock := if q.lock = 3 then 3 else 0 }) =
    s.ptpCease (if s.hub.ptp.lock = 3 then 3 else 0) := rfl

/-- 3 s after the last sync: PPS keeps LOCK, else it goes to FREE with PTP_UNLOCK. -/
theorem execPtpSyncTimeout_of_syncAt {s : State} {t : Nat} (hs : s.hubOn = true) (ht : s.hub.ptp.syncAt = some t) : execPtpSyncTimeout s =
    .next (if (s.advanceTo (t + 3 * etPerSec)).hub.ptp.lock = 3 then (s.advanceTo (t + 3 * etPerSec)).ptpCease 3
      else ((s.advanceTo (t + 3 * etPerSec)).ptpCease 0).raiseHub 0x67 locHub) := by
  unfold execPtpSyncTimeout
  rw [ht]
  dsimp only
  rw [hs, if_neg (by decide)]
  generalize s.advanceTo (t + 3 * etPerSec) = u
  rw [State.ptpCease_of_lock]
  split <;> rfl

theorem execPpsPulse_of_ppsIn {s : State} (ofs : Int) (hs : s.hubOn = true) (hp : s.hub.link.cfg.ppsIn = true) : execPpsPulse ofs s =
    .next (s.ptpMap (fun q => { q with ppsAt := some s.now, lock := 3, ofs := satI 30 ofs })) := by
  unfold execPpsPulse
  rw [hs, hp]
  rfl

theorem execTimeMapWrite_of_hubOn {s : State} (sec ns : Nat) (hs : s.hubOn = true) :
    let u := s.advanceTo (s.hub.ptp.mapDue s.now)
    execTimeMapWrite sec ns s = .next (u.ptpMap (fun q => { q with mapF := u.hub.frame, mapS := sec % 2 ^ 48, mapNs := ns, mapAt := some u.now })) := by
  unfold execTimeMapWrite
  rw [hs]
  rfl

/-- A TCXO failure raises CLOCK_HOLDOVER, once while it stands. -/
theorem execTcxoFail_of_hubOn {s : State} (hs : s.hubOn = true) : execTcxoFail s =
    .next (if s.hub.ptp.hold then s else (s.ptpMap (fun q => { q with hold := true })).raiseHub 0x72 locHub) := by
  unfold execTcxoFail
  rw [hs]
  cases s.hub.ptp.hold <;> rfl

theorem PtpSt.mapDue_of_none {p : PtpSt} (now : Nat) (h : p.mapAt = none) : p.mapDue now = now := by
  unfold PtpSt.mapDue
  rw [h]

theorem PtpSt.mapDue_of_some {p : PtpSt} {t : Nat} (now : Nat) (h : p.mapAt = some t) : p.mapDue now = t + etPerSec := by
  unfold PtpSt.mapDue
  rw [h]

end Sys2Proof.Machine

open Sys2Proof Sys2Proof.Machine

/-- Settles O57: by the effect of each row of the clocks with the hub running. -/
theorem referenceTimeFollowsPtpAndPps : Obligations.ReferenceTimeFollowsPtpAndPps := by
  unfold Obligations.ReferenceTimeFollowsPtpAndPps
  intro ofs sec ns s hs p n put_
  refine ⟨fun he => ?_, fun t ht => ?_, execPpsPulse_of_ppsIn ofs hs, execTimeMapWrite_of_hubOn sec ns hs, PtpSt.mapDue_of_none s.now,
    fun t => PtpSt.mapDue_of_some s.now, fun hh => ?_, fun hh => ?_⟩
  · have hx : exec (.ptpSync ofs) s = .next (s.ptpSync ofs) := rfl
    rw [hx, State.ptpSync_of_en ofs hs he]
    refine ⟨fun (hl : s.hub.ptp.lock ≤ 1) (hn : s.hub.ptp.runAfter ofs < 16) => ?_, fun (hl : s.hub.ptp.lock ≤ 1) hn => ?_,
      fun (hl : s.hub.ptp.lock = 2) ho => ?_, fun (hl : s.hub.ptp.lock = 2) ho => ?_, fun hl => ?_⟩
    · rw [if_neg (by omega), if_neg (by omega), if_neg (by omega)]
      rfl
    · rw [if_neg (by omega), if_neg (by omega), if_pos (.inr hn)]
      rfl
    · rw [if_neg (by omega), if_neg (by omega), if_pos (.inl hl)]
      rfl
    · rw [if_neg (by omega), if_pos ⟨hl, ho⟩]
      rfl
    · rw [if_pos hl]
      rfl
  · have hx : exec .ptpSyncTimeout s = _ := execPtpSyncTimeout_of_syncAt hs ht
    rw [hx]
    exact ⟨fun h => congrArg Host.Outcome.next (if_pos h), fun h => congrArg Host.Outcome.next (if_neg h)⟩
  · exact (execTcxoFail_of_hubOn hs).trans (by rw [if_neg (ne_true_of_eq_false hh)])
  · exact (execTcxoFail_of_hubOn hs).trans (by rw [if_pos hh])

end

section
/-! PROOFS. The wheel receivers: how a command reaches a half that works, and what it does to its receiver there (R55 to R84, R463, R529). -/

namespace Sys2Proof.Machine

open Sys2Proof

/-! ### A command at a half that works -/

theorem State.act_of_live {id : HalfId} {s : State} (f : Half → Half) (hl : s.live id = true) : s.act id f = s.onHalf id f := if_pos hl

/-- What a command does to a half is what its function answers there. -/
theorem State.onHalf_congr {id : HalfId} {f g : Half → Half} {s : State} (h : f (s.half id) = g (s.half id)) :
    s.onHalf id f = s.onHalf id g := by
  unfold State.onHalf
  rw [h]

/-- A row at an instant the half knows brings the clock there and acts. -/
theorem State.due_of_live {id : HalfId} {t : Half → Option Nat} {x : Nat} {s : State} (f : Half → Half) (hl : s.live id = true)
    (ht : t (s.half id) = some x) : s.due id t f = (s.advanceTo x).onHalf id f := by
  unfold State.due
  rw [hl, ht]
  exact State.act_of_live f ((State.advanceTo_live x s id).trans hl)

/-! ### One receiver of a half -/

@[simp] theorem Half.rcvMap_rcvOf_self (i : Inp) (f : Rcv → Rcv) (h : Half) : (h.rcvMap i f).rcvOf i = f (h.rcvOf i) := upd_get_self ..

@[simp] theorem Half.revMap_revOf_self (i : Inp) (f : RevChk → RevChk) (h : Half) : (h.revMap i f).revOf i = f (h.revOf i) := upd_get_self ..

theorem Inp.ofCode_ix (i : Inp) : Inp.ofCode i.ix.1 = i := by cases i <;> rfl

/-- No two inputs have one number. -/
theorem Inp.ix_ne {i j : Inp} (h : j ≠ i) : j.ix ≠ i.ix := fun e => h (by rw [← Inp.ofCode_ix j, e, Inp.ofCode_ix])

theorem Half.rcvMap_rcvOf_ne {i j : Inp} (f : Rcv → Rcv) (h : Half) (n : j ≠ i) : (h.rcvMap i f).rcvOf j = h.rcvOf j :=
  upd_get_ne _ _ _ _ (Inp.ix_ne n)

/-! ### The comparator and the edge latch (R56, R60, R67) -/

/-- In VR mode the lobe that an edge ends has armed above V_ARM. -/
theorem Rcv.changes_iff_of_vr {r : Rcv} (e : EdgeIn) (h : wrxCfg0Mode r.cfg0 = false) : r.changes e = true ↔ r.varm < (e.pkPos : Rat) := by
  unfold Rcv.changes
  simp [h]

/-- In HALL mode the output differs. -/
theorem Rcv.changes_iff_of_hall {r : Rcv} (e : EdgeIn) (h : wrxCfg0Mode r.cfg0 = true) : r.changes e = true ↔ e.pol ≠ r.tooth := by
  unfold Rcv.changes
  simp [h]

/-- An edge that its receiver does not pass on leaves the half with its due gates closed. -/
theorem Half.qualified_of_not_passed {i : Inp} {e : EdgeIn} {h g : Half} (hg : g = h.dueGates 3)
    (hn : wrxCfg0En (g.rcvOf i).cfg0 = false ∨ (g.rcvOf i).selects (seenBy (g.rcvOf i) e).pol = false ∨
      (g.rcvOf i).changes (seenBy (g.rcvOf i) e) = false ∨ g.now < (g.rcvOf i).blankEnd) : h.qualified i e = g := by
  subst hg
  unfold Half.qualified
  refine if_pos ?_
  simpa [or_assoc] using hn

theorem execQualifiedEdge_of_live {id : HalfId} {s : State} (i : Inp) (e : EdgeIn) (hl : s.live id = true) : execQualifiedEdge id i e s =
    .next (((s.advance e.dt).onHalf id (fun h => (h.qualified i e).twist)).diagsDone) := by
  unfold execQualifiedEdge
  rw [State.act_of_live _ ((State.advance_live e.dt s id).trans hl)]

end Sys2Proof.Machine

open Sys2Proof Sys2Proof.Machine

/-- Settles O23: the row by the half at work, the edge not passed on by the one test before the latch, and the latch as one update of its
receiver. -/
theorem qualifiedEdgeIsLatchedAndTracked : Obligations.QualifiedEdgeIsLatchedAndTracked := by
  unfold Obligations.QualifiedEdgeIsLatchedAndTracked
  intro id i e s h
  refine ⟨execQualifiedEdge_of_live i e, Half.qualified_of_not_passed rfl, fun r => ⟨Rcv.changes_iff_of_vr e, Rcv.changes_iff_of_hall e,
    fun _ => ⟨rfl, rfl⟩⟩, ?_, fun _ => Half.rcvMap_rcvOf_ne _ h, rfl⟩
  have hr : (h.latchEdge i e).rcvOf i = _ := Half.rcvMap_rcvOf_self i _ h
  rw [hr]
  exact ⟨rfl, rfl, rfl, rfl, rfl, rfl, rfl, rfl, rfl⟩

end

section
/-! PROOFS. The rows of one receiver: blanked edges, comparator changes, V_ARM's decay, clearing and enabling (R58 to R74). -/

namespace Sys2Proof.Machine

open Sys2Proof

/-- One bit placed in a word. -/
theorem putB_getElem (b : Bool) {lo k : Nat} (h : k < 32) : (putB b lo)[k] = (b && decide (lo = k)) := by
  cases b with
  | false => simp [putB, put]
  | true =>
    show (BitVec.ofNat 32 (1 <<< lo))[k] = _
    rw [← BitVec.getLsbD_eq_getElem, BitVec.getLsbD_ofNat, Nat.one_shiftLeft, Nat.testBit_two_pow]
    simp [h]

/-- EN stands in the word that enabling writes (R69, R71). -/
theorem wrxCfg0En_enabling (w : Word) (inv : Bool) : wrxCfg0En ((w &&& ~~~(putB true 27)) ||| putB true 31 ||| putB inv 27) = true := by
  simp [wrxCfg0En, putB_getElem]

/-- So does INVERT as the image gives it. -/
theorem wrxCfg0Invert_enabling (w : Word) (inv : Bool) : wrxCfg0Invert ((w &&& ~~~(putB true 27)) ||| putB true 31 ||| putB inv 27) = inv := by
  simp [wrxCfg0Invert, putB_getElem]

/-- A blanked edge reaches its receiver where that is enabled, blanking runs and its output changes. -/
theorem execEdgeBlanked_of_live {id : HalfId} {b : BlankedEdge} {s : State} (hl : s.live id = true)
    (he : wrxCfg0En ((s.half id).rcvOf b.inp).cfg0 = true) (hb : (s.half id).now < ((s.half id).rcvOf b.inp).blankEnd) :
    let r := (s.half id).rcvOf b.inp
    let e := seenBy r ⟨0, r.afterEdge != wrxCfg0Invert r.cfg0, b.pkPos, b.pkNeg, 0, false⟩
    execEdgeBlanked id b s = .next (s.onHalf id (fun h => if r.changes e then h.rcvMap b.inp (Rcv.blanked h.now (e.pkPos, e.pkNeg)) else h)) := by
  intro r e
  unfold execEdgeBlanked
  rw [State.act_of_live _ hl]
  refine congrArg Host.Outcome.next (State.onHalf_congr ?_)
  show (if (wrxCfg0En r.cfg0 && decide ((s.half id).now < r.blankEnd) && r.changes e) = true then _ else _) = _
  rw [he, decide_eq_true hb]
  rfl

theorem execBlankingWindowEnd_of_live {id : HalfId} {i : Inp} {s : State} (hl : s.live id = true)
    (he : wrxCfg0En ((s.half id).rcvOf i).cfg0 = true) : execBlankingWindowEnd id i s =
      .next ((s.advanceTo ((s.half id).rcvOf i).blankEnd).onHalf id (fun h => h)) :=
  congrArg Host.Outcome.next (State.due_of_live _ hl (if_pos he))

theorem execComparatorStateChange_of_live {id : HalfId} {i : Inp} {s : State} (tooth : Bool) (hl : s.live id = true)
    (he : wrxCfg0En ((s.half id).rcvOf i).cfg0 = true) : execComparatorStateChange id i tooth s =
      .next (s.onHalf id (fun h => h.rcvMap i (fun r => { r with tooth := tooth, held := false }))) :=
  congrArg Host.Outcome.next ((State.act_of_live _ hl).trans (State.onHalf_congr (if_pos he)))

theorem execReceiverEnable_of_live {id : HalfId} {i : Inp} {s : State} (lvl : InLevel) (hl : s.live id = true)
    (hd : wrxCfg0En ((s.half id).rcvOf i).cfg0 = false) (hc : (s.half id).cfg.ens.contains i = true) :
    execReceiverEnable id i lvl s = .next (s.onHalf id (fun h => h.enable i lvl)) := by
  refine congrArg Host.Outcome.next ((State.act_of_live _ hl).trans (State.onHalf_congr (if_neg ?_)))
  show ¬ (wrxCfg0En ((s.half id).rcvOf i).cfg0 || !(s.half id).cfg.ens.contains i) = true
  rw [hd, hc]
  decide

/-- Enabling a receiver that is not FAILED is one update of it (R58, R69). -/
theorem Half.enable_rcvOf_of_not_failed {i : Inp} (lvl : InLevel) {h : Half} (hf : (h.revOf i).failed = false) : (h.enable i lvl).rcvOf i =
    { (h.rcvOf i).initArm with
      cfg0 := ((h.rcvOf i).cfg0 &&& ~~~(putB true 27)) ||| putB true 31 ||| putB (h.cfg.inverts.contains i) 27, tooth := lvl = .above,
      held := lvl = .inside, firstPend := true, nEdges := 0, lastAt := h.now, lastInt := 0, blankEnd := h.now, seq := [], lastQ := h.now,
      lobeRun := (0, 0), lobeLast := (0, 0), lobeCur := (0, 0) } := by
  unfold Half.enable
  extract_lets inv h1 c0 un h2
  have hc : c0.failed = false := hf
  rw [hc]
  exact Half.rcvMap_rcvOf_self i _ h

end Sys2Proof.Machine

open Sys2Proof Sys2Proof.Machine

/-- Settles O24: each row by the half at work and the condition its receiver meets; enabling as one update of the receiver. -/
theorem receiverCommandsChangeTheirReceiverAlone : Obligations.ReceiverCommandsChangeTheirReceiverAlone := by
  unfold Obligations.ReceiverCommandsChangeTheirReceiverAlone
  intro id i s hl
  refine ⟨fun tooth pkPos pkNeg he => ⟨fun hb => ?_, execComparatorStateChange_of_live tooth hl he, execBlankingWindowEnd_of_live hl he⟩,
    fun x hx => congrArg Host.Outcome.next (State.due_of_live _ hl hx), congrArg Host.Outcome.next (State.act_of_live _ hl),
    fun lvl hd hc => ⟨execReceiverEnable_of_live lvl hl hd hc, fun hf => ?_⟩⟩
  · have hx := execEdgeBlanked_of_live (b := ⟨i, pkPos, pkNeg⟩) hl he hb
    exact ⟨fun h => hx.trans (congrArg Host.Outcome.next (State.onHalf_congr (if_pos h))),
      fun h => hx.trans (congrArg Host.Outcome.next (State.onHalf_congr (if_neg (ne_true_of_eq_false h))))⟩
  · intro h r
    have hr : r = _ := Half.enable_rcvOf_of_not_failed lvl hf
    rw [hr]
    exact ⟨wrxCfg0En_enabling .., rfl, rfl, rfl, wrxCfg0Invert_enabling ..⟩

end

section
/-! PROOFS. The wiring conditions, FAILED, and what the halves make of each other's flags (R78, R82 to R84, R463, R529). -/

namespace Sys2Proof.Machine

open Sys2Proof

/-! ### The flags of a receiver -/

/-- The flags with that of a condition set; the clipped signature's is the one its CM in mV names (R78). -/
def Wiring.setCond (c : Cond) (cm : Nat) (w : Wiring) : Wiring :=
  match c with
  | .openCircuit => { w with opn := true }
  | .shortGnd => { w with shortGnd := true }
  | .shortBat => { w with shortBat := true }
  | .clipped => { w with clip := if cm < 1500 then 1 else if cm > 4000 then 2 else 3 }
  | .silent => { w with silent := true }

/-- The flags with that of a condition cleared; SILENT ends with the next edge alone (R529). -/
def Wiring.clearCond (c : Cond) (w : Wiring) : Wiring :=
  match c with
  | .openCircuit => { w with opn := false }
  | .shortGnd => { w with shortGnd := false }
  | .shortBat => { w with shortBat := false }
  | .clipped => { w with clip := 0 }
  | .silent => w

/-- The flags of one receiver changed. -/
def Half.wirMap (i : Inp) (f : Wiring → Wiring) (h : Half) : Half := h.rcvMap i (fun r => { r with wir := f r.wir })

/-- A flag is set: the events of what is new (R83). -/
def Half.flagUp (i : Inp) (c : Cond) (cm : Nat) (h : Half) : Half := Half.wiringEvents h i (h.wirMap i (Wiring.setCond c cm))

/-- FAILED follows the flags of a receiver; the tracker learns of it where it is new (R82). -/
def Half.failing (i : Inp) (h : Half) : Half :=
  if h.failCond i then (if h.failed i then h.setFailed i else (h.setFailed i).onFailed i) else h

/-- An event raised where a flag is new leaves the receivers and their FAILED. -/
theorem Half.wiringEvents_rcv_rev (old : Half) (i : Inp) (h : Half) :
    (Half.wiringEvents old i h).rcv = h.rcv ∧ (Half.wiringEvents old i h).rev = h.rev := by
  unfold Half.wiringEvents
  simp [apply_ite Half.rcv, apply_ite Half.rev]

/-- An open circuit newly set is the one event of its flag. -/
theorem Half.flagUp_openCircuit {i : Inp} {cm : Nat} {h : Half} (hn : (h.rcvOf i).wir.opn = false) : h.flagUp i .openCircuit cm =
    (h.wirMap i (Wiring.setCond .openCircuit cm)).raise 0x00 (locInp h.id i.ix.1) := by
  unfold Half.flagUp Half.wiringEvents
  extract_lets a b loc up
  have hb : b = Wiring.setCond .openCircuit cm a := congrArg Rcv.wir (Half.rcvMap_rcvOf_self i _ h)
  have hk : ∀ p n g, up p p n g = g := fun p _ _ => if_neg (by rw [Bool.not_and_self]; decide)
  have hu : ∀ n g, up a.fOpen (Wiring.setCond .openCircuit cm a).fOpen n g = g.raise n loc := fun n g => if_pos (by
    show (!a.opn && true) = true
    rw [show a.opn = false from hn]
    rfl)
  rw [hb]
  exact (hk ..).trans ((hk ..).trans ((hk ..).trans ((hk ..).trans ((hk ..).trans (hu ..)))))

/-! ### WIRING_CONDITION_SET and WIRING_CONDITION_CLEAR -/

/-- A measurement leaves the flags. -/
theorem Half.measure_wir (i : Inp) (cm dc : Nat) (h : Half) : ((h.measure i cm dc).rcvOf i).wir = (h.rcvOf i).wir := by
  unfold Half.measure
  rw [Half.rcvMap_rcvOf_self]

theorem execWiringConditionSet_of_live {id : HalfId} {s : State} (i : Inp) (c : Cond) (cm dc : Nat) (hl : s.live id = true) :
    execWiringConditionSet id i c cm dc s = .next ((s.onHalf id (fun h => h.wiringSet i c cm dc s.hub.boot.v)).disCheck) := by
  unfold execWiringConditionSet
  rw [State.act_of_live _ hl]

theorem execWiringConditionClear_of_live {id : HalfId} {s : State} (i : Inp) (c : Cond) (cm dc : Nat) (hl : s.live id = true) :
    execWiringConditionClear id i c cm dc s = .next ((s.onHalf id (fun h => h.wiringClear i c cm dc s.hub.boot.v)).disCheck) := by
  unfold execWiringConditionClear
  rw [State.act_of_live _ hl]

/-- WIRING_CONDITION_SET measures; where its test holds, the flag is set and FAILED follows, and SILENT leads on to the direction check and
LIMP. -/
theorem Half.wiringSet_eq (i : Inp) (c : Cond) (cm dc v : Nat) (h : Half) : h.wiringSet i c cm dc v =
    let m := h.measure i cm dc
    let f := (m.flagUp i c cm).failing i
    if m.wiringTest i c cm dc v = true then (if c = .silent then f.dirCheck.tryLimp else f) else m := by
  extract_lets m f
  have hs : h.wiringSet i c cm dc v = if !m.wiringTest i c cm dc v then m else if c = .silent then f.dirCheck.tryLimp else f := by
    cases c <;> rfl
  rw [hs]
  cases m.wiringTest i c cm dc v <;> rfl

/-- The condition of a flag stands still: the clipped signature until its count of good gaps or teeth, SILENT whatever is measured (R529). -/
def Half.condStands (i : Inp) (c : Cond) (cm dc v : Nat) (h : Half) : Bool :=
  match c with
  | .clipped => (h.revOf i).okRun < h.clipCount i
  | .silent => true
  | _ => h.wiringTest i c cm dc v

/-- The second of R82 starts with the last condition gone, unless INPUT_HOLD holds the input (R463). -/
def Half.startClear (i : Inp) (h : Half) : Half :=
  if h.failed i && !h.failCond i && (h.revOf i).clearAt.isNone then
    h.revMap i (fun x => { x with clearAt := if h.inputHeld i then none else some h.now, hold := h.inputHeld i })
  else h

/-- WIRING_CONDITION_CLEAR measures; where the condition is gone, its flag clears, and with the last one the second starts. -/
theorem Half.wiringClear_eq (i : Inp) (c : Cond) (cm dc v : Nat) (h : Half) : h.wiringClear i c cm dc v =
    let m := h.measure i cm dc
    if m.condStands i c cm dc v = true then m else (m.wirMap i (Wiring.clearCond c)).startClear i := by
  cases c <;> rfl

/-- Unless the receiver is FAILED, no condition holds it and its second does not run yet, none starts. -/
theorem Half.startClear_of_not {i : Inp} {h : Half} (hn : (h.failed i && !h.failCond i && (h.revOf i).clearAt.isNone) = false) :
    h.startClear i = h := if_neg (ne_true_of_eq_false hn)

theorem Half.startClear_of_failed {i : Inp} {h : Half} (hf : h.failed i = true) (hc : h.failCond i = false)
    (hn : (h.revOf i).clearAt = none) : h.startClear i =
      h.revMap i (fun x => { x with clearAt := if h.inputHeld i then none else some h.now, hold := h.inputHeld i }) :=
  if_pos (by rw [hf, hc, hn]; rfl)

/-- FAILED by an open or short set (R82). -/
theorem Half.failCond_of_bad {i : Inp} {h : Half} (hb : (h.rcvOf i).wir.bad = true) : h.failCond i = true := by
  unfold Half.failCond
  rw [hb]
  rfl

/-- The flags that a condition set leaves, its events raised. -/
theorem Half.flagUp_wir (i : Inp) (c : Cond) (cm : Nat) (h : Half) : ((h.flagUp i c cm).rcvOf i).wir = Wiring.setCond c cm (h.rcvOf i).wir := by
  unfold Half.flagUp Half.rcvOf
  rw [(Half.wiringEvents_rcv_rev ..).1]
  exact congrArg Rcv.wir (Half.rcvMap_rcvOf_self i _ h)

/-! ### FAILED and its end (R82, R113) -/

/-- FAILED clears one second after its last condition. -/
theorem execReceiverFailedClear_of_clearAt {id : HalfId} {i : Inp} {s : State} {t : Nat} (hl : s.live id = true)
    (hf : ((s.half id).revOf i).failed = true) (hc : (s.half id).failCond i = false) (hh : (s.half id).inputHeld i = false)
    (ht : ((s.half id).revOf i).clearAt = some t) : execReceiverFailedClear id i s =
      .next ((s.advanceTo (t + etPerSec)).onHalf id (fun h => h.onFailedClear i)) := by
  refine congrArg Host.Outcome.next (State.due_of_live _ hl ?_)
  show (if ((s.half id).revOf i).failed && !(s.half id).failCond i && !(s.half id).inputHeld i then _ else none) = _
  rw [hf, hc, hh, ht]
  rfl

/-- With FAILED gone the second unit of that input seeks again. -/
theorem Half.onFailedClear_secSt {i : Inp} {h : Half} (hi : h.trk.sec.inp = some i) : (h.onFailedClear i).trk.secSt ≠ 3 := by
  show (if h.trk.sec.inp = some i && h.trk.secSt = 3 then 1 else h.trk.secSt) ≠ 3
  rw [hi]
  split <;> simp_all

/-! ### Disagreement of the halves (R84) -/

theorem execReceiverDisagree_of_disAt {i : Inp} {s : State} {t : Nat} (h : s.hub.disAt.get i.ix = some (t, false)) :
    execReceiverDisagree i s =
      .next (((s.advanceTo (t + 100 * etPerMs)).hubMap (fun u => { u with disAt := put1 u.disAt i.ix (some (t, true)) })).onHalves
        (fun h => h.raise 0x06 (h.inLoc i))) := by
  unfold execReceiverDisagree
  rw [h]

/-- Halves that work and hear each other over the Leat disagree on an input by its open and short flags. -/
theorem State.disagree_of_leat (i : Inp) {s : State} (hA : s.live .A = true) (hB : s.live .B = true) (ha : s.a.links.leat.up = true)
    (hb : s.b.links.leat.up = true) : s.disagree i = ((s.a.rcvOf i).wir.bad != (s.b.rcvOf i).wir.bad) := by
  unfold State.disagree
  rw [hA, hB, ha, hb]
  rfl

/-- Where the halves agree on an input, nothing counts. -/
theorem State.disCheck_disAt_of_agree {i : Inp} {s : State} (h : s.disagree i = false) : s.disCheck.hub.disAt.get i.ix = none := by
  unfold State.disCheck
  simp [Inp.ofCode_ix, h]

/-- A new disagreement counts from now. -/
theorem State.disCheck_disAt_of_new {i : Inp} {s : State} (h : s.disagree i = true) (hn : s.hub.disAt.get i.ix = none) :
    s.disCheck.hub.disAt.get i.ix = some (s.now, false) := by
  unfold State.disCheck
  simp [Inp.ofCode_ix, h, hn]

end Sys2Proof.Machine

open Sys2Proof Sys2Proof.Machine

/-- Settles O25: both rows by what a half makes of a condition that holds or is gone, FAILED by the flags, its end and the disagreement by
their instants. -/
theorem wiringConditionsSetAndClear : Obligations.WiringConditionsSetAndClear := by
  unfold Obligations.WiringConditionsSetAndClear
  intro id i c cm dc s hl h v raised cleared m flag up failing
  have hset : raised = Wiring.setCond c cm := by funext w; cases c <;> rfl
  have hclear : cleared = Wiring.clearCond c := by funext w; cases c <;> rfl
  have hup : up = m.flagUp i c cm := by
    simp only [up, flag, hset]
    rfl
  have hs : h.wiringSet i c cm dc v = if m.wiringTest i c cm dc v = true then (if c = .silent then failing.dirCheck.tryLimp else failing)
      else m := by
    simp only [failing, hup]
    exact Half.wiringSet_eq ..
  have hc : h.wiringClear i c cm dc v = if m.condStands i c cm dc v = true then m else (flag cleared).startClear i := by
    simp only [flag, hclear]
    exact Half.wiringClear_eq ..
  have hm : (m.rcvOf i).wir = (h.rcvOf i).wir := Half.measure_wir i cm dc h
  refine ⟨⟨execWiringConditionSet_of_live i c cm dc hl, fun ht => ?_, fun ht => ?_, ?_, fun j hj => ?_, ?_, fun hb => ?_, ?_⟩,
    ⟨execWiringConditionClear_of_live i c cm dc hl, ?_⟩,
    fun t => execReceiverFailedClear_of_clearAt hl, ?_,
    fun t => execReceiverDisagree_of_disAt, fun hA hB ha hb => ?_⟩
  · rw [hs, ht]
    rfl
  · rw [hs, if_pos ht]
    exact ⟨fun h => if_neg h, fun h => if_pos h⟩
  · rw [← hm]
    exact congrArg Rcv.wir (Half.rcvMap_rcvOf_self i _ m)
  · exact (Half.rcvMap_rcvOf_ne _ m hj).trans (Half.rcvMap_rcvOf_ne _ h hj)
  · intro hc ho
    subst hc
    rw [hup, Half.flagUp_openCircuit (by rw [hm, ho])]
    simp only [flag, hset]
    rfl
  · rw [hup]
    refine Half.failCond_of_bad ?_
    rw [Half.flagUp_wir, hm, ← hset]
    exact hb
  · have hr : (up.setFailed i).revOf i = _ := Half.revMap_revOf_self i _ up
    rw [hr]
    exact ⟨rfl, rfl⟩
  · intro gone
    have hg : gone = !m.condStands i c cm dc v := by
      cases c with
      | clipped => exact (decide_eq_decide.mpr Nat.not_lt.symm).trans decide_not
      | _ => rfl
    rw [hg, hc]
    refine ⟨fun h => if_pos (by simpa using h), fun h hn => ?_, fun h hf hn ht => ?_⟩
    · rw [if_neg (by simpa using h)]
      exact Half.startClear_of_not hn
    · rw [if_neg (by simpa using h)]
      exact Half.startClear_of_failed hf hn ht
  · refine ⟨?_, ?_, Half.onFailedClear_secSt⟩
    · exact congrArg RevChk.failed (Half.revMap_revOf_self i _ h)
    · exact congrArg Rcv.firstPend (Half.rcvMap_rcvOf_self i _ _)
  · have hd := State.disagree_of_leat i hA hB ha hb
    exact ⟨fun h => State.disCheck_disAt_of_new (hd.trans (bne_iff_ne.mpr h)),
      fun h => State.disCheck_disAt_of_agree (hd.trans (bne_eq_false_iff_eq.mpr h))⟩

end

section
/-! PROOFS. The loss of sync: what the slots' withdrawal at a loss leaves alone, and what the tracker's own change leaves (R105, R111, R185). -/

namespace Sys2Proof.Machine

open Sys2Proof

/-! ### What a loss leaves alone -/

/-- The parts of a half that the withdrawal of its slots at a loss does not touch: the steady ones, the profiles, the floodgate and the
slots remembered as fired. -/
structure Calm where
  steady : Steady
  profs  : Vector (Vector Word 16) 32
  fg     : Fg
  fired  : List Fired

/-- They, of a half. -/
def Half.calm (h : Half) : Calm := ⟨h.steady, h.profs, h.fg, h.fired⟩

theorem Half.trk_of_calm {h t : Half} (e : t.calm = h.calm) : t.trk = h.trk := congrArg (fun c => c.steady.trk) e

/-- A loop keeps the calm parts where each step does so on what it meets there. -/
theorem eachOf_calm {α : Type} (l : List α) {f : α → Half → Half} {h : Half}
    (k : ∀ x t, t.calm = h.calm → (f x t).calm = h.calm) : (eachOf l f h).calm = h.calm :=
  List.foldlRecOn (motive := fun t => Half.calm t = h.calm) l _ rfl (fun t e x _ => k x t e)

theorem eachIdx_calm {n : Nat} {f : Fin n → Half → Half} {h : Half}
    (k : ∀ x t, t.calm = h.calm → (f x t).calm = h.calm) : (eachIdx n f h).calm = h.calm :=
  eachOf_calm (idxs n) k

/-- A loop over steps that keep the calm parts of a half in which no event may fire. -/
theorem eachIdx_calm_of_not_fires {n : Nat} {f : Fin n → Half → Half} {h : Half}
    (k : ∀ x (t : Half), t.trk.fires = false → (f x t).calm = t.calm) (hf : h.trk.fires = false) : (eachIdx n f h).calm = h.calm :=
  eachIdx_calm (fun x t e => (k x t (by rw [Half.trk_of_calm e, hf])).trans e)

/-! ### The updates of one part -/

@[simp] theorem Half.emit_calm (o : Out) (h : Half) : (h.emit o).calm = h.calm := rfl
@[simp] theorem Half.acqMap_calm (f : Acq → Acq) (h : Half) : (h.acqMap f).calm = h.calm := rfl
@[simp] theorem Half.pairMap_calm (p : Fin 24) (f : Pair → Pair) (h : Half) : (h.pairMap p f).calm = h.calm := rfl
@[simp] theorem Half.chanMap_calm (m : Fin 48) (f : Chan → Chan) (h : Half) : (h.chanMap m f).calm = h.calm := rfl
@[simp] theorem Half.slotMap_calm (k : Fin 1024) (f : Slot → Slot) (h : Half) : (h.slotMap k f).calm = h.calm := rfl
@[simp] theorem Half.returnResv_calm (k cyc : Nat) (h : Half) : (h.returnResv k cyc).calm = h.calm := rfl
@[simp] theorem Half.dropResv_calm (k cyc : Nat) (h : Half) : (h.dropResv k cyc).calm = h.calm := rfl
@[simp] theorem Half.newCycles_calm (h : Half) : h.newCycles.calm = h.calm := rfl
@[simp] theorem Half.freeze_calm (k : Fin 1024) (c : SlotC) (cyc : Nat) (tags cause : BitVec 16) (turn : Nat) (h : Half) :
    (h.freeze k c cyc tags cause turn).calm = h.calm := rfl

@[simp] theorem Half.bankMap_calm (b : Nat) (f : Bank → Bank) (h : Half) : (h.bankMap b f).calm = h.calm := by
  unfold Half.bankMap
  split <;> rfl

@[simp] theorem Half.raise_calm (c : Nat) (loc : Word) (h : Half) : (h.raise c loc).calm = h.calm := by
  unfold Half.raise
  extract_lets h1 _ h2
  have e : h2.calm = h.calm := by simp only [h2]; split <;> rfl
  split <;> exact e

@[simp] theorem Half.tagGated_calm (k : Fin 1024) (h : Half) : (h.tagGated k).calm = h.calm := by
  unfold Half.tagGated
  split <;> rfl

/-! ### The pins and the drive sequencers -/

@[simp] theorem Half.overrun_calm (q : Fin 9) (rq : Req) (ts : Nat) (h : Half) : (h.overrun q rq ts).calm = h.calm := by
  unfold Half.overrun
  simp only
  split
  · simp [apply_ite Half.calm]
  · simp

@[simp] theorem Half.trigger_calm (t : Fin 32) (step : Bool) (pt : Option (Int × List Int)) (h : Half) :
    (h.trigger t step pt).calm = h.calm := by
  unfold Half.trigger
  simp only
  split
  · rfl
  · split
    · rfl
    · exact eachOf_calm _ (fun q t e => (Half.overrun_calm ..).trans e)

@[simp] theorem Half.pulseTrig_calm (m : Nat) (starts : Bool) (h : Half) : (h.pulseTrig m starts).calm = h.calm :=
  eachIdx_calm (fun t u e => by simp [apply_ite Half.calm, e])

@[simp] theorem Half.settle1_calm (m : Fin 48) (h : Half) : (h.settle1 m).calm = h.calm := by
  unfold Half.settle1
  simp [apply_ite Half.calm]

@[simp] theorem Half.pairTrig_calm (p : Fin 24) (h : Half) : (h.pairTrig p).calm = h.calm := by
  unfold Half.pairTrig
  simp [apply_ite Half.calm]

@[simp] theorem Half.settlePair_calm (p : Fin 24) (h : Half) : (h.settlePair p).calm = h.calm := by
  unfold Half.settlePair
  simp [apply_ite Half.calm]

@[simp] theorem Half.boostDone_calm (p : Fin 24) (drop : Bool) (h : Half) : (h.boostDone p drop).calm = h.calm := by
  unfold Half.boostDone
  simp [apply_ite Half.calm]

@[simp] theorem Half.toFast_calm (p : Fin 24) (drop : Bool) (h : Half) : (h.toFast p drop).calm = h.calm := by
  unfold Half.toFast Half.enterPhase Half.enterGap
  simp

@[simp] theorem Half.drvAbort_calm (p : Fin 24) (h : Half) : (h.drvAbort p).calm = h.calm := by
  unfold Half.drvAbort
  simp [apply_ite Half.calm]

/-! ### The end of a slot's content -/

@[simp] theorem Half.record_calm (k : Fin 1024) (c : SlotC) (cyc outcome : Nat) (tags : BitVec 16) (edge : Word) (late : Nat) (h : Half) :
    (h.record k c cyc outcome tags edge late).calm = h.calm := by
  unfold Half.record
  simp only
  split <;> simp

@[simp] theorem Half.release_calm (k : Fin 1024) (h : Half) : (h.release k).calm = h.calm := by
  unfold Half.release
  extract_lets s h1 h2
  have e2 : h2.calm = h.calm := by simp [h2, h1, apply_ite Half.calm]
  exact (eachOf_calm _ (fun q t e => (Half.emit_calm _ t).trans e)).trans e2

@[simp] theorem Half.slotDone_calm (k : Fin 1024) (outcome : Nat) (h : Half) : (h.slotDone k outcome).calm = h.calm := by
  unfold Half.slotDone
  simp only
  split
  · simp
  · simp [apply_ite Half.calm]

@[simp] theorem Half.withdrawContent_calm (k : Fin 1024) (outcome : Nat) (h : Half) : (h.withdrawContent k outcome).calm = h.calm := by
  unfold Half.withdrawContent
  simp only
  split <;> simp

@[simp] theorem Half.withdraw_calm (k : Fin 1024) (outcome : Nat) (h : Half) : (h.withdraw k outcome).calm = h.calm := by
  unfold Half.withdraw
  simp [apply_ite Half.calm]

@[simp] theorem Half.dropDeferred_calm (k : Fin 1024) (outcome : Nat) (h : Half) : (h.dropDeferred k outcome).calm = h.calm := by
  unfold Half.dropDeferred
  simp only
  split <;> simp

/-- Where no event may fire, no slot loads (R103). -/
theorem Half.hopperLoad_of_not_fires {k : Fin 1024} {h : Half} (hf : h.trk.fires = false) : h.hopperLoad k = h := by
  unfold Half.hopperLoad
  exact if_pos (by simp [hf])

/-- A slot that reaches DONE where no event may fire loads nothing in its place, so it makes nothing due. -/
theorem Half.finish_calm {k : Fin 1024} {outcome : Nat} {h : Half} (hf : h.trk.fires = false) : (h.finish k outcome).calm = h.calm := by
  have e := Half.slotDone_calm k outcome h
  have hd : (h.slotDone k outcome).trk.fires = false := by rw [Half.trk_of_calm e, hf]
  unfold Half.finish
  rw [Half.hopperLoad_of_not_fires hd, e]

theorem Half.endPulse_calm {k : Fin 1024} {outcome : Nat} {h : Half} (hf : h.trk.fires = false) : (h.endPulse k outcome).calm = h.calm := by
  unfold Half.endPulse
  extract_lets m
  have e : (((h.tagGated k).chanMap m (fun c => { c with pulses := c.pulses.filter (· ≠ k) })).settle1 m).calm = h.calm := by simp
  exact (Half.finish_calm (by rw [Half.trk_of_calm e, hf])).trans e

theorem Half.abortDrive_calm {k : Fin 1024} {h : Half} (hf : h.trk.fires = false) : (h.abortDrive k).calm = h.calm := by
  unfold Half.abortDrive
  extract_lets s
  have e : ((h.tagGated k).drvAbort (pairOf s.c.chan)).calm = h.calm := by simp
  exact (Half.finish_calm (by rw [Half.trk_of_calm e, hf])).trans e

/-! ### The half's slots, outputs and waiting commits at a loss (R185) -/

theorem Half.lossSlot_calm {k : Fin 1024} {h : Half} (hf : h.trk.fires = false) : (h.lossSlot k).calm = h.calm := by
  have e := Half.dropDeferred_calm k 9 h
  have hd : (h.dropDeferred k 9).trk.fires = false := by rw [Half.trk_of_calm e, hf]
  unfold Half.lossSlot
  simp [apply_ite Half.calm, Half.endPulse_calm hd, Half.abortDrive_calm hd]

@[simp] theorem Half.dropSet_calm (m : Fin 48) (h : Half) : (h.dropSet m).calm = h.calm := by
  unfold Half.dropSet
  split
  · rfl
  · simp [apply_ite Half.calm]

@[simp] theorem Half.skipAtCommit_calm (outcome cyc : Nat) (limp : BitVec 16) (x : Cand) (h : Half) :
    (h.skipAtCommit outcome cyc limp x).calm = h.calm := by
  unfold Half.skipAtCommit
  simp [apply_ite Half.calm]

theorem eachOf_skipAtCommit_calm (l : List Cand) (outcome cyc : Nat) (limp : BitVec 16) (h : Half) :
    (eachOf l (Half.skipAtCommit outcome cyc limp) h).calm = h.calm :=
  eachOf_calm l (fun _ _ e => (Half.skipAtCommit_calm ..).trans e)

@[simp] theorem Half.dropCommit_calm (outcome : Nat) (k : Fin 24) (h : Half) : (h.dropCommit outcome k).calm = h.calm := by
  unfold Half.dropCommit
  simp only
  split
  · rfl
  · simp only [eachOf_skipAtCommit_calm, Half.emit_calm]
    rfl

/-- The withdrawal at a loss changes slots, outputs, cylinders, ledger, faults and what is handed over, and no calm part: in a sync state
that allows no event nothing loads or falls due in place of what is withdrawn. -/
theorem Half.lossSlots_calm {h : Half} (hf : h.trk.fires = false) : h.lossSlots.calm = h.calm := by
  have e1 : (eachIdx 1024 Half.lossSlot h).calm = h.calm := eachIdx_calm_of_not_fires (fun _ _ => Half.lossSlot_calm) hf
  have e2 : (eachIdx 48 Half.dropSet (eachIdx 1024 Half.lossSlot h)).calm = h.calm :=
    (eachIdx_calm (fun m t e => (Half.dropSet_calm m t).trans e)).trans e1
  exact (eachIdx_calm (fun k t e => (Half.dropCommit_calm 9 k t).trans e)).trans e2

/-! ### The loss of sync (R105, R111) -/

theorem Trk.fires_of_st {t : Trk} (h : t.st = 0 ∨ t.st = 1 ∨ t.st = 7) : t.fires = false := by
  unfold Trk.fires
  rcases h with h | h | h <;> simp [h]

/-- A half `u` is the half `h` with its tracker put to a state without an angle and its fired slots forgotten. -/
structure Half.Stopped (dst : Nat) (h u : Half) : Prop where
  st     : u.trk.st = dst
  src    : u.trk.src = { TUnit.seek none with pos := h.trk.src.pos, bad := h.trk.src.bad }
  swPend : u.trk.swPend = false
  fired  : u.fired = []
  id     : u.id = h.id
  cfg    : u.cfg = h.cfg
  links  : u.links = h.links
  profs  : u.profs = h.profs
  fg     : u.fg = h.fg

/-- It speaks of calm parts alone. -/
theorem Half.Stopped.of_calm {dst : Nat} {h u v : Half} (hu : Stopped dst h u) (e : v.calm = u.calm) : Stopped dst h v where
  st := (congrArg Trk.st (Half.trk_of_calm e)).trans hu.st
  src := (congrArg Trk.src (Half.trk_of_calm e)).trans hu.src
  swPend := (congrArg Trk.swPend (Half.trk_of_calm e)).trans hu.swPend
  fired := (congrArg Calm.fired e).trans hu.fired
  id := (congrArg (fun c => c.steady.id) e).trans hu.id
  cfg := (congrArg (fun c => c.steady.cfg) e).trans hu.cfg
  links := (congrArg (fun c => c.steady.links) e).trans hu.links
  profs := (congrArg Calm.profs e).trans hu.profs
  fg := (congrArg Calm.fg e).trans hu.fg

/-- A loss is told and the slots follow it: SYNC_LOSS raised and posted, R185, and the analysis told (R111, R454). -/
def Half.tellLoss (dst : Nat) (loc : Word) (last : Int) (h : Half) : Half :=
  (((h.raise 0x11 loc).emit (.unsol 0 0x8003 h.frame (le 1 h.id.num ++ le 1 dst ++ zeros 2 ++ leI 4 last) true)).lossSlots.newCycles).emit .anaLoss

theorem Half.tellLoss_calm {dst : Nat} {loc : Word} {last : Int} {h : Half} (hf : h.trk.fires = false) :
    (h.tellLoss dst loc last).calm = h.calm := by
  have e : ((h.raise 0x11 loc).emit (.unsol 0 0x8003 h.frame (le 1 h.id.num ++ le 1 dst ++ zeros 2 ++ leI 4 last) true)).calm = h.calm := by simp
  unfold Half.tellLoss
  rw [Half.emit_calm, Half.newCycles_calm, Half.lossSlots_calm (by rw [Half.trk_of_calm e, hf]), e]

/-- Losing sync stops the tracker with nothing handed over and no slot changed; then, from LOST or out of a state that allowed events, the
loss is told, and elsewhere the cycles alone begin anew. -/
theorem Half.loseSync_eq (dst : Nat) (h : Half) : ∃ (u : Half) (loc : Word) (last : Int), h.Stopped dst u ∧ u.out = h.out ∧ u.slots = h.slots ∧
    h.loseSync dst = if dst = 7 ∨ h.trk.fires = true then u.tellLoss dst loc last else u.newCycles := by
  unfold Half.loseSync
  extract_lets t acts last loc dir _ h1 h2 _ h3
  obtain ⟨r, e2⟩ : ∃ r, h2 = { h1 with rcv := r } := by
    simp only [h2]
    split <;> exact ⟨_, rfl⟩
  clear_value h2
  subst e2
  refine ⟨h3, loc, last, ⟨rfl, rfl, rfl, rfl, rfl, rfl, rfl, rfl, rfl⟩, rfl, rfl, ?_⟩
  simp only [acts, t, Bool.not_eq_true', ← Bool.not_eq_true, Bool.or_eq_true, decide_eq_true_eq, ite_not]
  rfl

end Sys2Proof.Machine

open Sys2Proof Sys2Proof.Machine

/-- Settles O27: the tracker stops first, and in a state without an angle no event may fire, so what R185 then does to the slots leaves it
stopped; where R185 does not apply only the cycles begin anew. -/
theorem lossOfSyncStopsTheTracker : Obligations.LossOfSyncStopsTheTracker := by
  unfold Obligations.LossOfSyncStopsTheTracker
  intro dst h hd
  obtain ⟨u, loc, last, hu, ho, hsl, e⟩ := Half.loseSync_eq dst h
  have hf : u.trk.fires = false := Trk.fires_of_st (by rwa [hu.st])
  have hc : (h.loseSync dst).calm = u.calm := by
    rw [e]
    split
    · exact Half.tellLoss_calm hf
    · exact Half.newCycles_calm u
  obtain ⟨st, src, sw, fired, id, cfg, links, -, fg⟩ := hu.of_calm hc
  refine ⟨st, src, sw, fired, id, cfg, links, fg, fun h7 hn => ?_⟩
  rw [e, if_neg (by simp [h7, hn])]
  exact ⟨ho, hsl⟩

end

section
/-! PROOFS. The calibrations that run on end: an alignment, and the weights and offsets (R148 to R150, R443). -/

namespace Sys2Proof.Machine

open Sys2Proof

/-! ### The alignment (R148) -/

/-- An alignment that has travelled its revolutions ends: its delta within one degree is kept, beyond it is rejected. -/
theorem execCalAlignResult_of_travelled {s : State} {r : AlignRun} (hs : s.hubOn = true) (hr : s.hub.cal.align = some r)
    (ht : alignSpan ≤ r.trav) :
    let d := (r.result (s.half s.primary)).1
    let m := (r.result (s.half s.primary)).2
    execCalAlignResult s = .next ((if 65536 < d.natAbs then s.calMap (fun c => { c with align := none, next := c.next + 1 })
        else s.calMap (fun c => { c with align := none, res := (⟨c.next, some (d, m, false), []⟩ :: c.res).take 4, next := c.next + 1 })).finish
      4 r.req.1 (if 65536 < d.natAbs then 0x140 else 0) (leI 4 d ++ leI 4 m ++ le 4 s.hub.cal.next)) := by
  intro d m
  have hn : (!s.hubOn || decide (r.trav < alignSpan)) ≠ true := by simp [hs, ht]
  unfold execCalAlignResult
  rw [hr]
  dsimp only
  rw [if_neg hn]
  by_cases hd : 65536 < d.natAbs <;> simp only [hd, d, m] <;> rfl

/-- Before that it runs on. -/
theorem execCalAlignResult_of_underway {s : State} {r : AlignRun} (hr : s.hub.cal.align = some r) (ht : r.trav < alignSpan) :
    execCalAlignResult s = .next s := by
  unfold execCalAlignResult
  rw [hr]
  exact if_pos (by simp [ht])

/-! ### Weights and offsets (R149, R150) -/

/-- A weight and offset calibration ends with the fit of each of its cylinders, by the weights and offsets in force: the result is kept, no
cut stands, and its request completes. -/
theorem State.twistEnd_eq (t : TwistRun) (s : State) :
    let fits := t.cyls.map (fun c => twistFit c (s.weightOf c).1 (s.weightOf c).2 (t.of c))
    s.twistEnd t = ((s.calMap (fun c => { c with twist := none, res := (⟨c.next, none, fits⟩ :: c.res).take 4, next := c.next + 1 })).uncut).finish
      4 t.req.1 (if fits.any (·.rej) then 0x140 else 0) (le 4 s.hub.cal.next ++ le 1 fits.length ++ zeros 3 ++ fits.flatMap TwistFit.bytes) := rfl

/-- It ends once each named cylinder has its 64 samples. -/
theorem execCalTwistResult_of_twist {s : State} {t : TwistRun} (hs : s.hubOn = true) (ht : s.hub.cal.twist = some t) :
    execCalTwistResult s = .next (if t.cyls.all (fun c => 64 ≤ (t.of c).length) then s.twistEnd t else s) := by
  unfold execCalTwistResult
  rw [ht, hs]
  rfl

/-- It ends at its TIMEOUT, whatever samples there are. -/
theorem execCalTwistTimeout_of_twist {s : State} {t : TwistRun} (hs : s.hubOn = true) (ht : s.hub.cal.twist = some t) :
    execCalTwistTimeout s = .next ((s.advanceTo t.until_).twistEnd t) := by
  unfold execCalTwistTimeout
  rw [ht, hs]
  rfl

end Sys2Proof.Machine

open Sys2Proof Sys2Proof.Machine

/-- Settles O29: an alignment by whether its revolutions are travelled and its delta lies within a degree, the weights and offsets by what
their end does, at the last sample or at TIMEOUT. -/
theorem calibrationsEnd : Obligations.CalibrationsEnd := by
  unfold Obligations.CalibrationsEnd
  intro s hs
  refine ⟨?_, ?_, fun r => execCalAlignResult_of_underway⟩
  · intro r hr ht d m pay
    have e : exec .calAlignResult s = _ := execCalAlignResult_of_travelled hs hr ht
    rw [e]
    exact ⟨fun hd => by rw [if_neg (Nat.not_lt.mpr hd), if_neg (Nat.not_lt.mpr hd)], fun hd => by rw [if_pos hd, if_pos hd]⟩
  · intro t ht ending
    have e : exec .calTwistResult s = _ := execCalTwistResult_of_twist hs ht
    rw [e]
    exact ⟨fun ha => congrArg _ ((if_pos ha).trans (State.twistEnd_eq t s)), fun ha => congrArg _ (if_neg (ne_true_of_eq_false ha)),
      (execCalTwistTimeout_of_twist hs ht).trans (congrArg _ (State.twistEnd_eq t _))⟩

end

section
/-! PROOFS. Mailbox 4: what each of its requests does where none of its conditions holds (R148, R149, R298, R299, R441 to R445). -/

namespace Sys2Proof.Machine

open Sys2Proof Sys2Proof.Safety

/-! ### A request that is served -/

/-- A request none of whose conditions holds is carried out. -/
theorem State.checked_of_none {a : Ask} {cs : List (Bool × Nat)} (ok : State → State) {s : State} (h : cs.find? (·.1) = none) :
    s.checked a cs ok = ok s := by
  unfold State.checked
  rw [h]

/-- The row of an accepted message answers what the service of its request makes of the state in which it is served. -/
theorem exec_of_heard {c : Instr} {mb : Fin 8} {cmd : Nat} {len : Ask → Nat} {m : Msg} {s t : State} {serve : Ask → State → State}
    (hx : exec c s = .next (s.request mb cmd len serve m)) (hh : Heard mb cmd len m s)
    (ht : serve (msgAsk mb.1 cmd m) (taken mb cmd m s) = t) : exec c s = .next t :=
  hx.trans (congrArg _ ((request_heard hh serve).trans ht))

theorem fin?_val {n : Nat} (i : Fin n) : fin? n i.1 = some i := dif_pos i.2

/-! ### Calibrations (R148, R149, R443) -/

/-- CAL_TWIST by METHOD CUT with PERMIT_CUT: it starts on cylinders that a half serves and a fine lane analyses, none running. -/
theorem State.serveCalTwist_of_cut {a : Ask} {u : State} (hr : u.reaches bothHalves = true) (hm : a.b 16 = 0) (hi : a.b 17 = 1)
    (hc : 8 ≤ a.b 18) (hn : maskCyls (a.b 20 + 256 * a.b 21 + 65536 * a.b 22) ≠ []) (hd : a.dirty 23 1 = false) (h24 : a.h 24 ≤ 2000)
    (h26 : 1 ≤ a.h 26 ∧ a.h 26 ≤ 3600)
    (hy : ∀ c ∈ maskCyls (a.b 20 + 256 * a.b 21 + 65536 * a.b 22), u.twistHalves c ≠ [] ∧ u.fineLane c = true)
    (ht : u.hub.cal.twist = none) : u.serveCalTwist a = u.calMap (fun x => { x with twist := some ⟨(a.seq, a.silent), false, a.b 18, a.b 19,
      maskCyls (a.b 20 + 256 * a.b 21 + 65536 * a.b 22), a.h 24, u.now + a.h 26 * etPerSec, [], [], [], none⟩ }) := by
  unfold State.serveCalTwist
  generalize maskCyls (a.b 20 + 256 * a.b 21 + 65536 * a.b 22) = cyls at hn hy ⊢
  have hh : cyls.any (fun c => (u.twistHalves c).isEmpty) = false := by
    simpa using fun c hc => (hy c hc).1
  have hf : cyls.any (fun c => !u.fineLane c) = false := by
    simpa using fun c hc => (hy c hc).2
  dsimp only
  rw [State.checked_of_none]
  · rw [hm]
    rfl
  · simp [hr, hm, hi, hn, hd, hh, hf, ht, Nat.not_lt.mpr hc, Nat.not_lt.mpr h24, Nat.not_lt.mpr h26.2, Nat.ne_of_gt h26.1]

/-- CAL_APPLY of a result that is kept, an alignment with the engine stopped. -/
theorem State.serveCalApply_of_kept {a : Ask} {u : State} {r : CalRes} (hr : u.reaches bothHalves = true) (hd : a.dirty 23 1 = false)
    (hk : u.hub.cal.res.find? (fun r => r.id = a.w 16) = some r) (hs : r.align = none ∨ u.stopped = true) :
    u.serveCalApply a = (u.applyResult r (maskCyls (a.b 20 + 256 * a.b 21 + 65536 * a.b 22))).done a 0 [] := by
  have hb : (r.align.isSome && !u.stopped) = false := by
    rcases hs with h | h <;> simp [h]
  unfold State.serveCalApply
  dsimp only
  rw [hk, State.checked_of_none]
  simp [hr, hd, hb]

/-! ### Sessions (R283, R444) -/

/-- SESSION that opens for 1 to 600 s, or closes. -/
theorem State.serveSession_of_valid {a : Ask} {u : State} (hr : u.reaches (sessionHalves (a.b 16)) = true) (hm : a.b 16 ≤ 3)
    (h17 : a.b 17 ≤ 1) (ht : a.b 17 = 1 → 1 ≤ a.h 18 ∧ a.h 18 ≤ 600) : u.serveSession a =
      (eachOf (sessionHalves (a.b 16)) (fun id t => t.halfMap id (Half.acqMap (fun x => { x with
        session := if a.b 17 = 1 then some (u.now + a.h 18 * etPerSec) else none }))) u).done a 0 [] := by
  unfold State.serveSession
  dsimp only
  rw [State.checked_of_none]
  simpa [hr, Nat.not_lt.mpr hm, Nat.not_lt.mpr h17, Nat.one_le_iff_ne_zero] using ht

/-- A SESSION whose byte 17 is not 0 is the row of the one that opens. -/
theorem execSessionOpen_of_opens {m : Msg} (s : State) (h : byteAt m.payload 1 ≠ 0) :
    execSessionOpen m s = .next (s.request 4 0x20 (fun _ => 24) State.serveSession m) := if_neg (by simp [h])

/-- One whose byte 17 is 0 is that of the one that closes. -/
theorem execSessionClose_of_closes {m : Msg} (s : State) (h : byteAt m.payload 1 = 0) :
    execSessionClose m s = .next (s.request 4 0x20 (fun _ => 24) State.serveSession m) := if_neg (by simp [h])

/-! ### Slices (R295, R444) -/

/-- SLICE_CAL of one slice of a group, or of all. -/
theorem State.serveSliceCal_of_group {a : Ask} {u : State} (g : Fin 3) (hn : u.noHalf (a.b 16) = false) (h16 : a.b 16 ≤ 1) (hg : a.b 17 = g.1)
    (h18 : a.b 18 < grpN g ∨ a.b 18 = 15) (hd : a.dirty 19 1 = false) : u.serveSliceCal a =
      u.halfMap (halfOf (a.b 16)) (Half.calMap g (fun c => { c with
        asked := c.asked ++ [(if a.b 18 = 15 then grpN g else a.b 18, a.seq, a.silent)] })) := by
  have hb : (decide (grpN g ≤ a.b 18) && decide (a.b 18 ≠ 15)) = false := by
    rcases h18 with h | h
    · simp [Nat.not_le.mpr h]
    · simp [h]
  unfold State.serveSliceCal
  rw [hg, fin?_val]
  dsimp only
  rw [State.checked_of_none]
  simp only [hn, hb, hd, decide_eq_false (Nat.not_lt.mpr h16)]
  rfl

/-! ### The test DAC (R298, R299, R307, R444) -/

/-- A half whose test DAC has started a test. -/
def Half.tdacGoes (test input code : Nat) (rq : Option (BitVec 16 × Bool)) (h : Half) : Half :=
  ({ h with acq := { h.acq with tdac := { h.acq.tdac with
    cfg := putB true 31 ||| put test 2 29 ||| put input 6 23 ||| put code 12 11, busy := true, req := rq } } } : Half).holds

/-- A test starts where none runs, one that needs the kill latch or STOP under either (R299). -/
theorem Half.tdacStart_of_free {test input : Nat} (code : Nat) (rq : Option (BitVec 16 × Bool)) {h : Half} (hb : h.acq.tdac.busy = false)
    (hn : tdacNeeds test input = false ∨ h.fg.latch = true ∨ h.trk.st = 0) :
    h.tdacStart test input code rq = (h.tdacGoes test input code rq, false) := by
  unfold Half.tdacStart
  refine if_neg ?_
  rcases hn with hn | hn | hn <;> simp [hb, hn]

/-- TDAC_TEST that starts: MANUAL answers there, the others wait for their verdict. -/
theorem State.serveTdac_of_free {a : Ask} {u : State} (hn : u.noHalf (a.b 16) = false) (h16 : a.b 16 ≤ 1) (h17 : a.b 17 ≤ 47)
    (h18 : a.b 18 ≤ 2) (h19 : a.dirty 19 1 = false) (h20 : a.h 20 ≤ 4095) (h22 : a.dirty 22 2 = false)
    (hb : (u.half (halfOf (a.b 16))).acq.tdac.busy = false)
    (hf : tdacNeeds (a.b 18) (a.b 17) = false ∨ (u.half (halfOf (a.b 16))).fg.latch = true ∨ (u.half (halfOf (a.b 16))).trk.st = 0) :
    let go (rq : Option (BitVec 16 × Bool)) : State := u.onHalf (halfOf (a.b 16)) (Half.tdacGoes (a.b 18) (a.b 17) (a.h 20) rq)
    u.serveTdac a = if a.b 18 = 2 then (go none).done a 0 (zeros 4) else go (some (a.seq, a.silent)) := by
  intro go
  unfold State.serveTdac
  dsimp only
  rw [State.checked_of_none]
  · rw [Half.tdacStart_of_free _ _ hb hf]
    dsimp only
    rw [if_neg Bool.false_ne_true]
    by_cases h : a.b 18 = 2
    · simp only [if_pos h, go, State.onHalf]
    · simp only [if_neg h, go, State.onHalf]
  · simp [hn, Nat.not_lt.mpr h16, Nat.not_lt.mpr h17, Nat.not_lt.mpr h18, h19, Nat.not_lt.mpr h20, h22]

/-- TEST names the row of a TDAC_TEST. -/
theorem tdacTest_of_le {m : Msg} (h : byteAt m.payload 2 ≤ 2) : tdacTest m = byteAt m.payload 2 := if_pos h

end Sys2Proof.Machine

open Sys2Proof Sys2Proof.Machine

/-- Settles O53: the requests with conditions alone as rows of the link, each other one by its service where none of its conditions holds. -/
theorem statusAndCalibrationMailbox : Obligations.StatusAndCalibrationMailbox := by
  unfold Obligations.StatusAndCalibrationMailbox
  intro m id s
  refine ⟨runs_of rfl fun _ _ _ => rfl, runs_of rfl fun _ _ _ => rfl, runs_of rfl fun _ _ _ => rfl, runs_of rfl fun _ _ _ => rfl, ?_, ?_,
    runs_of rfl fun _ _ _ => rfl, ?_, ?_, ?_, ?_, runs_of rfl fun _ _ _ => rfl, runs_of rfl fun _ _ _ => rfl⟩
  · intro a u cyls hh hr hm hi hc hn hd h24 h26 h26' hy ht
    exact exec_of_heard rfl hh (State.serveCalTwist_of_cut hr hm hi hc hn hd h24 ⟨h26, h26'⟩ hy ht)
  · intro r a u hh hr hd hk hs
    exact exec_of_heard rfl hh (State.serveCalApply_of_kept hr hd hk hs)
  · intro a u ids r hh hr hm
    refine ⟨fun h17 h1 h2 => ?_, fun h17 => ?_⟩
    · refine exec_of_heard (execSessionOpen_of_opens s (ne_of_eq_of_ne h17 Nat.one_ne_zero)) hh ?_
      exact (State.serveSession_of_valid hr hm h17.le fun _ => ⟨h1, h2⟩).trans (by rw [if_pos h17])
    · refine exec_of_heard (execSessionClose_of_closes s h17) hh ?_
      exact (State.serveSession_of_valid hr hm (by omega) (by omega)).trans (by rw [if_neg (by omega)])
  · intro t hl ht
    exact congrArg Host.Outcome.next (State.due_of_live _ hl ht)
  · intro g a u hh hn h16 hg h18 hd
    exact exec_of_heard rfl hh (State.serveSliceCal_of_group g hn h16 hg h18 hd)
  · intro a u d t w go hh hn h16 h17 h19 h20 h22 hb hf
    have hs (h18 : a.b 18 ≤ 2) : u.serveTdac a = if a.b 18 = 2 then (go none).done a 0 (zeros 4) else go (some (a.seq, a.silent)) :=
      State.serveTdac_of_free hn h16 h17 h18 h19 h20 h22 hb hf
    have hrow {n : Nat} (h18 : a.b 18 = n) (hn : n ≤ 2) : ¬ tdacTest m ≠ n := not_not.mpr ((tdacTest_of_le (h18.trans_le hn)).trans h18)
    refine ⟨fun h18 => ?_, fun h18 => ?_, fun h18 => ?_⟩
    · exact exec_of_heard (if_neg (hrow h18 (by decide))) hh ((hs (by omega)).trans (if_neg (by omega)))
    · exact exec_of_heard (if_neg (hrow h18 (by decide))) hh ((hs (by omega)).trans (if_neg (by omega)))
    · exact exec_of_heard (if_neg (hrow h18 (by decide))) hh ((hs (by omega)).trans (if_pos h18))

end

section
/-! PROOFS. Mailbox 3, slots, profiles, tracker and twist: what each request does where none of its conditions holds (R139, R140, R163 to
R165, R178, R219, R433 to R437). -/

namespace Sys2Proof.Machine

open Sys2Proof Sys2Proof.Safety

/-! ### Slots (R163, R165, R178, R434) -/

/-- SLOT_ARM for a channel that may hold slots: where its half grants one, the content of the slot names the channel and ONESHOT, and its
number answers. -/
theorem State.serveSlotArm_of_granted {a : Ask} {u : State} {d : HalfId} {h : Half} {m : Fin 48} {k : Fin 1024}
    (hm : a.b 16 % 48 = m.1) (hid : (if a.b 16 < 48 then HalfId.A else .B) = d) (hl : u.basic 0 = false) (hr : u.reach d = true)
    (h16 : a.b 16 < 96) (h17 : a.b 17 ≤ 1) (hd : a.dirty 18 2 = false) (ho : (u.half d).oddDrive m = false)
    (hg : (u.half d).grant m (.expert m.1) = (h, .inr k)) :
    let w4 := put (a.b 16) 7 25 ||| put (a.b 17) 1 24
    u.serveSlotArm a = (u.setHalf (h.slotMap k (fun x => { x with c := { x.c with w4 := w4 }, base := { x.base with w4 := w4 } })) d).done a 0
      (le 1 d.num ++ zeros 1 ++ le 2 k.1) := by
  unfold State.serveSlotArm
  dsimp only
  rw [hid, hm, fin?_val]
  dsimp only
  rw [State.checked_of_none]
  · rw [hg]
  · simp [State.levelCheck, hl, hr, Nat.not_le.mpr h16, Nat.not_lt.mpr h17, hd, ho]

/-- The conditions of a command of a slot: those that all of them have, then ranges of its own. -/
def State.slotConds (a : Ask) (range : List (Bool × Nat)) (u : State) : List (Bool × Nat) :=
  [u.levelCheck 0, (u.noHalf (a.b 16), 0x103), (1 < a.b 16 || a.dirty 17 1 || 1024 ≤ a.h 18, 0x104)] ++ range

/-- A slot command of a slot held by a channel acts on that slot. -/
theorem State.slotCmd_of_held {a : Ask} {u : State} {range : List (Bool × Nat)} {k : Fin 1024} {ch : Nat}
    (ok : HalfId → Fin 1024 → Nat → State → State) (hc : (u.slotConds a range).find? (·.1) = none) (hk : a.h 18 = k.1)
    (ha : ((u.half (halfOf (a.b 16))).slots.get k).armed = some ch) : u.slotCmd a range ok = ok (halfOf (a.b 16)) k ch u := by
  unfold State.slotCmd
  exact (State.checked_of_none _ hc).trans (by simp only [hk, fin?_val, ha])

/-- SLOT_WRITE of content that fits its channel and, for a DRIVE, its profile and pair: it is staged. -/
theorem State.serveSlotWrite_of_held {a : Ask} {u : State} {k : Fin 1024} {ch : Nat}
    (hc : (u.slotConds a [((u.half (halfOf (a.b 16))).contentBad a.content, 0x104)]).find? (·.1) = none) (hk : a.h 18 = k.1)
    (ha : ((u.half (halfOf (a.b 16))).slots.get k).armed = some ch) (hch : a.content.ch = chanNum (halfOf (a.b 16)) ch)
    (hf : actFits (outCfgSrc ((u.half (halfOf (a.b 16))).chans.get a.content.chan).out) a.content.action = true)
    (hp : a.content.action = 4 → (u.half (halfOf (a.b 16))).profValid a.content.prof = true ∧
      (u.half (halfOf (a.b 16))).gainBad a.content.pair a.content.prof = false) :
    u.serveSlotWrite a = (u.setHalf ((u.half (halfOf (a.b 16))).slotMap k (fun x => { x with staged := some a.content }))
      (halfOf (a.b 16))).done a 0 [] := by
  unfold State.serveSlotWrite
  dsimp only
  rw [State.slotCmd_of_held _ hc hk ha, State.checked_of_none]
  by_cases h4 : a.content.action = 4
  · obtain ⟨hv, hg⟩ := hp h4
    simp [hch, hf, hv, hg]
  · simp [hch, hf, h4]

/-- SLOT_FREE releases a slot that is EMPTY or DONE, and is kept for the release of any other. -/
theorem State.serveSlotFree_of_held {a : Ask} {u : State} {k : Fin 1024} {ch : Nat} (hc : (u.slotConds a []).find? (·.1) = none)
    (hk : a.h 18 = k.1) (ha : ((u.half (halfOf (a.b 16))).slots.get k).armed = some ch) :
    let d := halfOf (a.b 16)
    u.serveSlotFree a = if ((u.half d).slots.get k).st = 1 ∨ ((u.half d).slots.get k).st = 7 then (u.onHalf d (Half.release k)).done a 0 []
      else u.setHalf ((u.half d).slotMap k (fun x => { x with freeSeq := x.freeSeq ++ [a.seq] })) d := by
  unfold State.serveSlotFree
  rw [State.slotCmd_of_held _ hc hk ha]
  simp only [Bool.or_eq_true, decide_eq_true_eq]

/-- The words of content stand first in what they are followed by. -/
theorem SlotC.take_bytes_append (c : SlotC) (l : List Byte) : (c.bytes ++ l).take 20 = c.bytes := List.take_left' rfl

/-! ### Profiles (R219, R433, R435) -/

/-- A half with a profile staged. -/
def Half.profStage (i : Fin 32) (pw : Vector Word 16) (q : BitVec 16) (h : Half) : Half :=
  { h with profNew := put1 h.profNew i (some (pw, q)) }

/-- PROFILE_WRITE of a profile that neither half refuses and none has staged. -/
theorem State.serveProfileWrite_of_free {a : Ask} {u : State} (i : Fin 32) (hl : u.basic 3 = false) (hr : u.reaches bothHalves = true)
    (hi : a.b 16 = i.1) (hd : a.dirty 17 3 = false) (hp : a.profDirty = false) (hA : u.a.profRefused i.1 a.profile = false)
    (hB : u.b.profRefused i.1 a.profile = false) (nA : u.a.profNew.get i = none) (nB : u.b.profNew.get i = none) :
    u.serveProfileWrite a = { u with a := u.a.profStage i a.profile a.seq, b := u.b.profStage i a.profile a.seq } := by
  have h31 : ¬ 31 < i.1 := by omega
  unfold State.serveProfileWrite
  rw [hi, fin?_val, State.checked_of_none]
  · dsimp only
    rw [nA, nB]
    rfl
  · simp [State.levelCheck, hl, hr, hd, hp, hA, hB, h31]

/-- PROFILE_COPY at a tick: the profile goes into the store of the half, and its write completes with the last half. -/
theorem execProfileCopy_of_staged {id : HalfId} {p : Fin 32} {s : State} {pw : Vector Word 16} {q : BitVec 16}
    (hs : (s.half id).profNew.get p = some (pw, q)) (ht : s.now = s.hub.tick) (hl : s.live id = true) (hi : (s.half id).profIdle p = true) :
    let t := s.setHalf { s.half id with profs := put1 (s.half id).profs p pw, profNew := put1 (s.half id).profNew p none } id
    execProfileCopy id p s = .next (if ((s.half id.other).profNew.get p).map (·.2) = some q then t else t.finish 3 q 0 []) := by
  intro t
  have ho : t.half id.other = s.half id.other := State.setHalf_other s _ id id.other (by cases id <;> decide)
  unfold execProfileCopy
  rw [if_pos ht]
  unfold State.profileCopy
  dsimp only
  rw [hs]
  dsimp only
  rw [hl, hi, ← ho]
  rfl

/-! ### The tracker (R436) -/

/-- TRACKER_SET of values in range, which keep R64 in both halves, is work for the tick. -/
theorem State.serveTrackerSet_of_valid {a : Ask} {u : State} (hl : u.basic 1 = false) (hr : u.reaches bothHalves = true) (h16 : a.b 16 ≤ 5)
    (h17 : a.b 17 = 0 ∨ (2 ≤ a.b 17 ∧ a.b 17 ≤ 4)) (h18 : a.b 18 = 0 ∨ (30 ≤ a.b 18 ∧ a.b 18 ≤ 90))
    (h19 : a.b 19 = 0 ∨ (10 ≤ a.b 19 ∧ a.b 19 ≤ 127)) (hA : (u.trackerAhead .A).blankBreaks (a.b 16) (a.b 18) (a.b 19) = false)
    (hB : (u.trackerAhead .B).blankBreaks (a.b 16) (a.b 18) (a.b 19) = false) :
    u.serveTrackerSet a = u.hubMap (fun x => { x with jobs := x.jobs ++ [⟨3, a.seq, [],
      [.tracker .A (Inp.ofCode (a.b 16)) (a.b 17) (a.b 18) (a.b 19), .tracker .B (Inp.ofCode (a.b 16)) (a.b 17) (a.b 18) (a.b 19)]⟩] }) := by
  refine State.checked_of_none _ ?_
  have hv : (((a.b 16 ≤ 5 ∧ (a.b 17 ≠ 0 → 2 ≤ a.b 17 ∧ a.b 17 ≤ 4)) ∧ (a.b 18 ≠ 0 → 30 ≤ a.b 18 ∧ a.b 18 ≤ 90)) ∧
      (a.b 19 ≠ 0 → 10 ≤ a.b 19)) ∧ a.b 19 ≤ 127 := by omega
  simpa [State.levelCheck, hl, hr, hA, hB, Nat.succ_le_iff] using hv

end Sys2Proof.Machine

open Sys2Proof Sys2Proof.Machine

/-- Settles O51: each request by its service where none of its conditions holds, the copy of a profile by the half at work. -/
theorem expertSlotsAndProfiles : Obligations.ExpertSlotsAndProfiles := by
  unfold Obligations.ExpertSlotsAndProfiles
  intro m id p s slot held a1
  refine ⟨?_, ?_, ?_, ?_, ?_, fun pw q => execProfileCopy_of_staged, runs_of rfl fun _ _ _ => rfl, ?_, runs_of rfl fun _ _ _ => rfl⟩
  · intro mm h k a u d hh hl hr h16 h17 hd hm hm' ho hg
    exact ⟨_, exec_of_heard rfl hh (State.serveSlotArm_of_granted (m := ⟨mm, hm'⟩) hm rfl hl hr h16 h17 hd ho hg), rfl,
      fun j hj => upd_get_ne _ _ _ _ hj⟩
  · intro k ch u d hh hc ⟨hk, ha⟩ hch hf hp
    exact exec_of_heard rfl hh (State.serveSlotWrite_of_held hc hk ha hch hf hp)
  · intro k ch u a d hh hc ⟨hk, ha⟩
    exact exec_of_heard rfl hh (State.serveSlotFree_of_held hc hk ha)
  · intro k ch u a hh hc ⟨hk, ha⟩
    refine ⟨_, exec_of_heard rfl hh (State.slotCmd_of_held _ hc hk ha), ?_⟩
    simp only [List.append_assoc]
    exact SlotC.take_bytes_append ..
  · intro i u a hh hl hr hi hd hp hA hB nA nB
    exact exec_of_heard rfl hh (State.serveProfileWrite_of_free i hl hr hi hd hp hA hB nA nB)
  · intro u a hh hl hr h16 h17 h18 h19 hA hB
    exact exec_of_heard rfl hh (State.serveTrackerSet_of_valid hl hr h16 h17 h18 h19 hA hB)

end

section
/-! PROOFS. The life of a slot: its load, the instant it becomes due, its edge and its end, and what the outputs' own changes leave of the
slots, the channels and the drive pairs (R159 to R161, R167 to R172, R187). -/

namespace Sys2Proof.Machine

open Sys2Proof

/-! ### What a pin's change and an event leave alone -/

/-- The parts of a half in which a slot's edge shows: the slots, the channels and the drive pairs. -/
structure Sched where
  slots : Vector Slot 1024
  chans : Vector Chan 48
  pairs : Vector Pair 24

/-- They, of a half. -/
def Half.sched (h : Half) : Sched := ⟨h.slots, h.chans, h.pairs⟩

theorem Half.slots_of_sched {h t : Half} (e : t.sched = h.sched) : t.slots = h.slots := congrArg Sched.slots e
theorem Half.chans_of_sched {h t : Half} (e : t.sched = h.sched) : t.chans = h.chans := congrArg Sched.chans e
theorem Half.pairs_of_sched {h t : Half} (e : t.sched = h.sched) : t.pairs = h.pairs := congrArg Sched.pairs e

/-- A loop keeps the slots, channels and pairs where each step does. -/
theorem eachOf_sched {α : Type} (l : List α) {f : α → Half → Half} (k : ∀ x t, (f x t).sched = t.sched) (h : Half) :
    (eachOf l f h).sched = h.sched :=
  List.foldlRecOn (motive := fun t => Half.sched t = h.sched) l _ rfl (fun t e x _ => (k x t).trans e)

@[simp] theorem Half.emit_sched (o : Out) (h : Half) : (h.emit o).sched = h.sched := rfl
@[simp] theorem Half.acqMap_sched (f : Acq → Acq) (h : Half) : (h.acqMap f).sched = h.sched := rfl
@[simp] theorem Half.dropResv_sched (k cyc : Nat) (h : Half) : (h.dropResv k cyc).sched = h.sched := rfl

@[simp] theorem Half.raise_sched (c : Nat) (loc : Word) (h : Half) : (h.raise c loc).sched = h.sched := by
  simp only [Half.sched, Half.raise_slots, Half.raise_chans, Half.raise_pairs]

@[simp] theorem Half.overrun_sched (q : Fin 9) (rq : Req) (ts : Nat) (h : Half) : (h.overrun q rq ts).sched = h.sched := by
  unfold Half.overrun
  simp only
  split
  · simp [apply_ite Half.sched]
  · simp

@[simp] theorem Half.trigger_sched (t : Fin 32) (step : Bool) (pt : Option (Int × List Int)) (h : Half) :
    (h.trigger t step pt).sched = h.sched := by
  unfold Half.trigger
  simp only
  split
  · rfl
  · split
    · rfl
    · exact eachOf_sched _ (fun q t => Half.overrun_sched ..) h

@[simp] theorem Half.pulseTrig_sched (m : Nat) (starts : Bool) (h : Half) : (h.pulseTrig m starts).sched = h.sched :=
  eachOf_sched (idxs 32) (fun t u => by simp [apply_ite Half.sched]) h

/-- What a pin's new level changes of the slots, channels and pairs: nothing, or the pin's own level with its count. -/
theorem Half.settle1_sched (m : Fin 48) (h : Half) : (h.settle1 m).sched = h.sched ∨
    ∃ lvl, (h.settle1 m).sched =
      (h.chanMap m (fun c => { c with level := lvl, rb := lvl, limit := false, edges := satInc 16 c.edges })).sched := by
  unfold Half.settle1
  simp only
  split
  · exact .inl rfl
  · refine .inr ⟨h.pinLevel m, ?_⟩
    split
    · exact Half.pulseTrig_sched ..
    · rfl

@[simp] theorem Half.settle1_slots (m : Fin 48) (h : Half) : (h.settle1 m).slots = h.slots := by
  obtain e | ⟨lvl, e⟩ := h.settle1_sched m
  · exact Half.slots_of_sched e
  · exact (congrArg Sched.slots e).trans rfl

/-- What holds a pin's output stays as it is when the pin takes its level. -/
theorem Half.settle1_held (m j : Fin 48) (h : Half) :
    ((h.settle1 m).chans.get j).setBy = (h.chans.get j).setBy ∧ ((h.settle1 m).chans.get j).pulses = (h.chans.get j).pulses := by
  obtain e | ⟨lvl, e⟩ := h.settle1_sched m
  · rw [Half.chans_of_sched e]
    exact ⟨rfl, rfl⟩
  · rw [Half.chans_of_sched e]
    show ((upd h.chans m _).get j).setBy = _ ∧ ((upd h.chans m _).get j).pulses = _
    rw [upd_get]
    split
    · next c => subst c; exact ⟨rfl, rfl⟩
    · exact ⟨rfl, rfl⟩

@[simp] theorem Half.record_sched (k : Fin 1024) (c : SlotC) (cyc outcome : Nat) (tags : BitVec 16) (edge : Word) (late : Nat) (h : Half) :
    (h.record k c cyc outcome tags edge late).sched = h.sched := by
  unfold Half.record
  simp only
  split <;> simp

/-! ### The banks -/

theorem Half.bankMap_of_lt {b : Nat} (hb : b < 4) (f : Bank → Bank) (h : Half) :
    h.bankMap b f = { h with banks := upd h.banks ⟨b, hb⟩ f } := by
  unfold Half.bankMap
  rw [fin?_val ⟨b, hb⟩]

theorem SlotC.bank_lt (c : SlotC) : c.chan.1 / 12 < 4 := by
  have := c.chan.2
  omega

/-- How many elements meet a condition is told element by element. -/
theorem countP_toList_congr {α : Type} {n : Nat} {v w : Vector α n} {p : α → Bool} (e : ∀ j, p (v.get j) = p (w.get j)) :
    v.toList.countP p = w.toList.countP p := by
  have read (u : Vector α n) : u.toList = (idxs n).map u.get :=
    List.ext_getElem (by simp [idxs]) (fun i _ _ => by simp [idxs, Vector.get])
  rw [read v, read w, List.countP_map, List.countP_map]
  exact List.countP_congr (fun j _ => by simp only [Function.comp_apply, e j])

/-- The hopper entries in use are told by the state and the content of each slot. -/
theorem Half.occ_congr {h t : Half} (b : Nat)
    (e : ∀ j, (t.slots.get j).st = (h.slots.get j).st ∧ (t.slots.get j).c = (h.slots.get j).c) : t.occ b = h.occ b := by
  refine countP_toList_congr (fun j => ?_)
  obtain ⟨es, ec⟩ := e j
  simp only [es, ec]

/-! ### The load (R172) -/

theorem Half.hopperLoad_of_out {k : Fin 1024} {h : Half}
    (ho : (h.slots.get k).st ≠ 2 ∨ h.lookahead < h.remaining (h.slots.get k)) : h.hopperLoad k = h := by
  unfold Half.hopperLoad Half.inLook
  refine if_pos ?_
  obtain hs | hr := ho
  · simp [hs]
  · simp [not_le.mpr hr]

section

variable {k : Fin 1024} {h : Half} (hs : (h.slots.get k).st = 2) (hr : h.remaining (h.slots.get k) ≤ h.lookahead)
  (hf : h.trk.fires = true) (hw : (h.slots.get k).waits = false)

include hs hr hf hw

/-- With every entry of its bank in use a slot that does not wait yet begins to. -/
theorem Half.hopperLoad_of_full (ho : 16 ≤ h.occ ((h.slots.get k).c.chan.1 / 12)) : h.hopperLoad k =
    ((h.slotMap k (fun x => { x with waits := true, ahead := decide (0 < h.remaining x) })).bankMap ((h.slots.get k).c.chan.1 / 12)
      (fun x => { x with waited := satInc 10 x.waited })).raise 0x1D (locSlot h.id (h.slots.get k).c.chan.1 k.1) := by
  have hin : h.inLook (h.slots.get k) = true := decide_eq_true hr
  unfold Half.hopperLoad
  simp only [hs, hin, hf, hw]
  rw [if_neg (by decide), if_pos ho]
  rfl

variable (ho : h.occ ((h.slots.get k).c.chan.1 / 12) < 16) (hfirst : h.firstWaiting k = true) (hc : (h.slots.get k).cause = 0#16)

include ho hfirst hc

/-- With an entry free the first of those that wait loads; not late and without a wait it counts into HIWAT alone. -/
theorem Half.hopperLoad_of_free : h.hopperLoad k =
    ((h.slotMap k (fun x => { x with st := 3 })).bankMap ((h.slots.get k).c.chan.1 / 12) (fun x => { x with
      hiwat := max x.hiwat ((h.slotMap k (fun x => { x with st := 3 })).occ ((h.slots.get k).c.chan.1 / 12)) })).slotMap k
      (fun x => { x with waits := false }) := by
  have hin : h.inLook (h.slots.get k) = true := decide_eq_true hr
  unfold Half.hopperLoad
  simp only [hs, hin, hf, hw, hfirst]
  rw [if_neg (by decide), if_neg (by omega), if_neg (by decide), if_neg]
  · simp
  · simp [Half.bankMap_of_lt (SlotC.bank_lt _), hc]

/-- The same as one change of the slot, with the entries its bank then has in use. -/
theorem Half.hopperLoad_of_free_eq : h.hopperLoad k = { h with
    slots := upd h.slots k (fun x => { x with st := 3, waits := false })
    banks := upd h.banks ⟨_, SlotC.bank_lt (h.slots.get k).c⟩ (fun x => { x with
      hiwat := max x.hiwat ((h.hopperLoad k).occ ((h.slots.get k).c.chan.1 / 12)) }) } := by
  have e := Half.hopperLoad_of_free hs hr hf hw ho hfirst hc
  rw [Half.bankMap_of_lt (SlotC.bank_lt _)] at e
  have eo : (h.hopperLoad k).occ ((h.slots.get k).c.chan.1 / 12) =
      (h.slotMap k (fun x => { x with st := 3 })).occ ((h.slots.get k).c.chan.1 / 12) := by
    refine Half.occ_congr _ (fun j => ?_)
    rw [e]
    simp only [Half.slotMap_slots, upd_upd, upd_get]
    split <;> exact ⟨rfl, rfl⟩
  rw [eo, e]
  simp [Half.slotMap]

end

/-! ### The instant a slot becomes due (R161, R167) -/

theorem Half.slotDue_of_reached {k : Fin 1024} {h : Half} (hs : (h.slots.get k).st = 3) (hf : h.trk.fires = true)
    (hl : h.trk.inLimp = false) (hr : h.remaining (h.slots.get k) ≤ 0) : h.slotDue k = h.makeDue k (h.slots.get k).c.offset := by
  unfold Half.slotDue
  simp [hs, hf, hl, hr]

theorem Half.makeDue_slots (k : Fin 1024) (ofs : Nat) (h : Half) : (h.makeDue k ofs).slots = upd h.slots k (fun s => { s with
    st := 4, edgeAt := h.now + ofs, tags := s.tags ||| (if h.trk.src.bad > 0 then tagBit 0 else 0#16) }) := rfl

/-! ### The end of a slot (R160, R165) -/

/-- Nothing follows when the slot reaches DONE: no content waits for its freeze, no release falls due, its words are sound. -/
def Slot.Plain (s : Slot) : Prop := s.deferred = none ∧ s.c.oneshot = false ∧ s.owed = false ∧ s.freeSeq = [] ∧ s.spoil = false

/-- A slot changed twice. -/
theorem Half.slotMap_slotMap (k : Fin 1024) (f g : Slot → Slot) (h : Half) :
    (h.slotMap k f).slotMap k g = h.slotMap k (fun s => g (f s)) :=
  congrArg (fun v => { h with slots := v }) (upd_upd h.slots k f g)

/-- A slot changed twice, where the second change leaves what the first has made. -/
theorem Half.slotMap_slotMap_of_fixed {k : Fin 1024} {f g : Slot → Slot} {h : Half} (e : g (f (h.slots.get k)) = f (h.slots.get k)) :
    (h.slotMap k f).slotMap k g = h.slotMap k f := by
  rw [Half.slotMap_slotMap]
  exact congrArg (fun x => { h with slots := h.slots.set k.1 x k.2 }) e

theorem Half.slotMap_sched_congr {h t : Half} (k : Fin 1024) (f : Slot → Slot) (e : t.sched = h.sched) :
    (t.slotMap k f).sched = (h.slotMap k f).sched := by
  simp only [Half.sched, Half.slotMap_slots, Half.slotMap_chans, Half.slotMap_pairs, Half.slots_of_sched e, Half.chans_of_sched e,
    Half.pairs_of_sched e]

/-- A plain slot that reaches DONE is DONE, with its outcome, and nothing else changes in the slots, channels and pairs. -/
theorem Half.slotDone_sched {k : Fin 1024} {outcome : Nat} {h : Half} (hp : (h.slots.get k).Plain) :
    (h.slotDone k outcome).sched = (h.slotMap k (fun s => { s with st := 7, outcome := outcome })).sched := by
  obtain ⟨hd, hone, howed, hfree, hspoil⟩ := hp
  have hr : (h.slots.get k).releases = false := by simp [Slot.releases, hone, howed, hfree]
  unfold Half.slotDone
  simp only [hd, hr]
  refine (Half.slotMap_sched_congr k _ ((Half.dropResv_sched ..).trans (Half.record_sched ..))).trans ?_
  rw [Half.slotMap_slotMap_of_fixed]
  exact if_neg (by simp [hspoil])

/-- DONE leaves nothing to load, so the end of a plain slot's content is that of its slot alone. -/
theorem Half.finish_sched {k : Fin 1024} {outcome : Nat} {h : Half} (hp : (h.slots.get k).Plain) :
    (h.finish k outcome).sched = (h.slotMap k (fun s => { s with st := 7, outcome := outcome })).sched := by
  have hdone := Half.slotDone_sched (outcome := outcome) hp
  unfold Half.finish
  rw [Half.hopperLoad_of_out (.inl ?_), hdone]
  simp [Half.slots_of_sched hdone]

/-- A plain slot that is DONE with a change of a channel: the slot has its outcome, and the channel is held as the change says. -/
theorem Half.finish_settle1 {k : Fin 1024} {outcome : Nat} {m : Fin 48} {f : Chan → Chan} {h : Half} (hp : (h.slots.get k).Plain) :
    let t := ((h.chanMap m f).settle1 m).finish k outcome
    (t.slots.get k).st = 7 ∧ (t.slots.get k).outcome = outcome ∧ (t.chans.get m).setBy = (f (h.chans.get m)).setBy ∧
      (t.chans.get m).pulses = (f (h.chans.get m)).pulses := by
  intro t
  have e : t.sched = _ := Half.finish_sched (by rwa [Half.settle1_slots])
  obtain ⟨hset, hpulses⟩ := (h.chanMap m f).settle1_held m m
  rw [Half.chanMap_chans, upd_get_self] at hset hpulses
  rw [Half.slots_of_sched e, Half.chans_of_sched e, Half.slotMap_slots, Half.slotMap_chans, upd_get_self]
  exact ⟨rfl, rfl, hset, hpulses⟩

/-! ### The edge (R160, R168, R187) -/

/-- A FUEL channel's slot is noted in its cylinder (R322). -/
def Half.noteFuel (k : Fin 1024) (h : Half) : Half :=
  let s := h.slots.get k
  if !(schChFuel (h.chans.get (h.schChan s.c.chan)).sch && s.c.action ≤ 4) then h else
  match fin? 24 ((h.entry s.c.cyl).elim 24 (·.1)) with
  | some j => { h with cyls := upd h.cyls j (fun x => { x with fuelCyc := some s.cyc }) }
  | none => h

/-- The instant and the GATED tag an edge leaves in its slot. -/
def Half.stampEdge (k : Fin 1024) (h : Half) : Half :=
  ((h.noteFuel k).slotMap k (fun s =>
    { s with edgeTs := if h.fg.latch && s.c.action ≠ 6 then 0#32 else h.ts })).tagGated k

/-- A slot with its edge at `ts`, or kept from the pin by the kill latch. -/
def Slot.stamped (latch : Bool) (ts : Word) (s : Slot) : Slot :=
  { s with edgeTs := if latch && s.c.action ≠ 6 then 0#32 else ts, tags := if latch then s.tags ||| tagBit 8 else s.tags }

theorem Half.stampEdge_sched (k : Fin 1024) (h : Half) :
    (h.stampEdge k).sched = (h.slotMap k (Slot.stamped h.fg.latch h.ts)).sched := by
  have en : (h.noteFuel k).sched = h.sched ∧ (h.noteFuel k).fg = h.fg := by
    unfold Half.noteFuel
    simp only
    split
    · exact ⟨rfl, rfl⟩
    · split <;> exact ⟨rfl, rfl⟩
  obtain ⟨es, ef⟩ := en
  unfold Half.stampEdge Half.tagGated
  rw [Half.slotMap_fg, ef]
  cases hl : h.fg.latch
  · exact Half.slotMap_sched_congr k _ es
  · simp only [if_true]
    rw [Half.slotMap_slotMap]
    exact Half.slotMap_sched_congr k _ es

theorem Half.act1_of_set {k : Fin 1024} {h : Half} (hs : (h.slots.get k).st = 4) (ha : (h.slots.get k).c.action = 1) :
    h.act1 k = (((h.stampEdge k).chanMap (h.slots.get k).c.chan (fun c => { c with
      setBy := some (k, (h.slots.get k).c.cyl, (h.slots.get k).cyc), blocked := false })).settle1 (h.slots.get k).c.chan).finish k
      (h.slots.get k).outcome := by
  unfold Half.act1 Half.stampEdge Half.noteFuel
  simp only [hs, ha]
  exact if_neg (by decide)

theorem Half.act1_of_pulse {k : Fin 1024} {h : Half} (hs : (h.slots.get k).st = 4) (ha : (h.slots.get k).c.action = 3) :
    h.act1 k = ((((h.stampEdge k).slotMap k (fun s => { s with st := 5, endAt := h.now + s.width })).chanMap
      (h.slots.get k).c.chan (fun c => { c with pulses := c.pulses ++ [k], blocked := false })).settle1 (h.slots.get k).c.chan) := by
  unfold Half.act1 Half.stampEdge Half.noteFuel
  simp only [hs, ha]
  exact if_neg (by decide)

theorem Half.act1_of_overlap {k : Fin 1024} {h : Half} (hs : (h.slots.get k).st = 4) (ha : (h.slots.get k).c.action = 4)
    (hd : (h.activeDrive (pairOf (h.slots.get k).c.chan)).isSome = true) :
    h.act1 k = (h.returnResv k.1 (h.slots.get k).cyc).finish k 8 := by
  unfold Half.act1
  simp only [hs, ha, hd]
  exact if_neg (by decide)

/-- The edge of a plain SET: the slot is DONE and its channel's output is held by it. -/
theorem Half.act1_set_ends {k : Fin 1024} {h : Half} (hs : (h.slots.get k).st = 4) (ha : (h.slots.get k).c.action = 1)
    (hp : (h.slots.get k).Plain) :
    ((h.act1 k).chans.get (h.slots.get k).c.chan).setBy = some (k, (h.slots.get k).c.cyl, (h.slots.get k).cyc) ∧
      ((h.act1 k).slots.get k).st = 7 ∧ ((h.act1 k).slots.get k).outcome = (h.slots.get k).outcome := by
  have hstamped : ((h.stampEdge k).slots.get k).Plain := by
    rw [Half.slots_of_sched (Half.stampEdge_sched k h), Half.slotMap_slots, upd_get_self]
    exact hp
  rw [Half.act1_of_set hs ha]
  obtain ⟨hst, hout, hset, -⟩ := Half.finish_settle1 hstamped
  exact ⟨hset, hst, hout⟩

theorem Half.act1_pulse_begins {k : Fin 1024} {h : Half} (hs : (h.slots.get k).st = 4) (ha : (h.slots.get k).c.action = 3) :
    (h.act1 k).slots.get k =
        { Slot.stamped h.fg.latch h.ts (h.slots.get k) with st := 5, endAt := h.now + (h.slots.get k).width } ∧
      k ∈ ((h.act1 k).chans.get (h.slots.get k).c.chan).pulses := by
  rw [Half.act1_of_pulse hs ha]
  constructor
  · rw [Half.settle1_slots, Half.chanMap_slots, Half.slotMap_slots, Half.slots_of_sched (Half.stampEdge_sched k h), upd_get_self,
      Half.slotMap_slots, upd_get_self]
    rfl
  · rw [(Half.settle1_held ..).2, Half.chanMap_chans, upd_get_self]
    simp

theorem Half.act1_overlap_skips {k : Fin 1024} {h : Half} (hs : (h.slots.get k).st = 4) (ha : (h.slots.get k).c.action = 4)
    (hd : (h.activeDrive (pairOf (h.slots.get k).c.chan)).isSome = true) (hp : (h.slots.get k).Plain) :
    ((h.act1 k).slots.get k).st = 7 ∧ ((h.act1 k).slots.get k).outcome = 8 ∧ (h.act1 k).pairs = h.pairs := by
  have ef := Half.finish_sched (k := k) (outcome := 8) (h := h.returnResv k.1 (h.slots.get k).cyc) hp
  rw [Half.act1_of_overlap hs ha hd, Half.slots_of_sched ef, Half.pairs_of_sched ef, Half.slotMap_slots, upd_get_self]
  exact ⟨rfl, rfl, rfl⟩

theorem Half.offsetExpire_of_first {k : Fin 1024} {h : Half} (hs : (h.slots.get k).st = 4) (hb : h.before k = []) :
    h.offsetExpire k = h.act1 k := by
  unfold Half.offsetExpire
  rw [if_neg (by simp [hs]), hb]
  rfl

theorem Half.offsetExpire_of_not_due {k : Fin 1024} {h : Half} (hs : (h.slots.get k).st ≠ 4) : h.offsetExpire k = h := if_pos hs

/-! ### The end of the WIDTH (R160) -/

theorem Half.widthExpire_of_not_active {k : Fin 1024} {h : Half} (hs : (h.slots.get k).st ≠ 5) : h.widthExpire k = h := if_pos hs

theorem Half.widthExpire_of_pulse {k : Fin 1024} {h : Half} (hs : (h.slots.get k).st = 5) (ha : (h.slots.get k).c.action = 3) :
    h.widthExpire k = h.endPulse k (h.slots.get k).outcome := by
  unfold Half.widthExpire
  simp [hs, ha]

/-- The end of a plain PULSE: the slot is DONE and no longer holds its channel's output. -/
theorem Half.endPulse_lets_go {k : Fin 1024} {outcome : Nat} {h : Half} (hp : (h.slots.get k).Plain) :
    ((h.endPulse k outcome).slots.get k).st = 7 ∧ ((h.endPulse k outcome).slots.get k).outcome = outcome ∧
      k ∉ ((h.endPulse k outcome).chans.get (h.slots.get k).c.chan).pulses := by
  have ht : ((h.tagGated k).slots.get k).Plain := by
    unfold Half.tagGated
    split
    · rw [Half.slotMap_slots, upd_get_self]
      exact hp
    · exact hp
  obtain ⟨hst, hout, -, hpulses⟩ := Half.finish_settle1 ht
  exact ⟨hst, hout, hpulses ▸ by simp⟩

/-! ### The rows of a slot at a half that works -/

theorem execHopperLoad_of_live {id : HalfId} {k : Fin 1024} {s : State} (hl : s.live id = true) :
    execHopperLoad id k s = .next (s.onHalf id (fun h => h.hopperLoad k)) := congrArg _ (State.act_of_live _ hl)

theorem execSlotDue_of_reaching {id : HalfId} {k : Fin 1024} {s : State} {n : Nat} (hl : s.live id = true)
    (hs : ((s.half id).slots.get k).st = 3) (hf : (s.half id).trk.fires = true)
    (hn : (s.half id).etToAngle ((s.half id).slots.get k) = some n) : execSlotDue id k s =
      .next ((s.advanceTo ((s.half id).now + n)).onHalf id (fun h => h.slotDue k)) :=
  congrArg _ (State.due_of_live _ hl (by simp [hs, hf, hn]))

theorem execSlotOffsetExpire_of_due {id : HalfId} {k : Fin 1024} {s : State} (hl : s.live id = true)
    (hs : ((s.half id).slots.get k).st = 4) : execSlotOffsetExpire id k s =
      .next ((s.advanceTo ((s.half id).slots.get k).edgeAt).onHalf id (fun h => h.offsetExpire k)) :=
  congrArg _ (State.due_of_live _ hl (if_pos hs))

theorem execSlotWidthExpire_of_active {id : HalfId} {k : Fin 1024} {s : State} (hl : s.live id = true)
    (hs : ((s.half id).slots.get k).st = 5) : execSlotWidthExpire id k s =
      .next ((s.advanceTo ((s.half id).slots.get k).endAt).onHalf id (fun h => h.widthExpire k)) :=
  congrArg _ (State.due_of_live _ hl (if_pos hs))

end Sys2Proof.Machine

open Sys2Proof Sys2Proof.Machine

/-- Settles O30: each row by the half at work and the instant it knows; the load by whether its bank has an entry free, the edge by its
action, and every DONE by what a plain slot's end leaves alone. -/
theorem slotsMoveThroughTheirStates : Obligations.SlotsMoveThroughTheirStates := by
  unfold Obligations.SlotsMoveThroughTheirStates
  intro id k s h hl
  refine ⟨⟨execHopperLoad_of_live hl, fun n hs hf hn => execSlotDue_of_reaching hl hs hf hn, execSlotOffsetExpire_of_due hl,
    execSlotWidthExpire_of_active hl⟩, ?_⟩
  intro x b plain
  refine ⟨Half.hopperLoad_of_out, fun hs hr hf => ⟨fun ho hfirst hc hw => ?_,
    fun ho hw => Half.hopperLoad_of_full hs hr hf hw ho⟩, fun hs hf hlimp hr => ?_,
    fun hs hb => ?_, Half.offsetExpire_of_not_due, fun hs ha hp => ?_, Half.widthExpire_of_not_active⟩
  · have e := Half.hopperLoad_of_free_eq hs hr hf hw ho hfirst hc
    have eb : (h.hopperLoad k).banks = _ := congrArg Half.banks e
    refine ⟨e.trans (by rw [eb]), fun c => ⟨fun hcb => ?_, fun hcb => ?_⟩⟩
    · obtain rfl : c = ⟨b, SlotC.bank_lt x.c⟩ := Fin.ext hcb
      rw [eb]
      exact upd_get_self ..
    · rw [eb]
      exact upd_get_ne _ _ _ _ (fun ec => hcb (congrArg Fin.val ec))
  · rw [Half.slotDue_of_reached hs hf hlimp hr, Half.makeDue_slots, upd_get_self]
    exact ⟨rfl, rfl, fun j hj => upd_get_ne _ _ _ _ hj⟩
  · rw [Half.offsetExpire_of_first hs hb]
    refine ⟨Half.act1_set_ends hs, fun ha => ?_, Half.act1_overlap_skips hs⟩
    obtain ⟨ey, hk⟩ := Half.act1_pulse_begins hs ha
    rw [ey]
    refine ⟨rfl, rfl, hk, fun hlatch => ?_, fun hlatch => ?_⟩
    · simp [Slot.stamped, hlatch, x]
    · simp [Slot.stamped, hlatch, x, show (h.slots.get k).c.action = 3 from ha]
  · rw [Half.widthExpire_of_pulse hs ha]
    exact Half.endPulse_lets_go hp

end

section
/-! PROOFS. The drive sequencers: what each change of a pair makes of it, the rows of the table and the instants of the timers (R209 to
R216, R537). -/

namespace Sys2Proof.Machine

open Sys2Proof

/-! ### A change of one pair -/

/-- A pair without what follows from its pins and what is only noted of it: the instant its pins changed, whether the pin has started the
command, and the last BOOST's length. -/
def Pair.seq (x : Pair) : Pair := { x with pinAt := 0, cmdOn := false, tBoost := 0 }

/-- Of the pairs of `h` only `p` may differ in `t`, and its sequencer stands there as in `x`. -/
structure Half.PairOnly (p : Fin 24) (x : Pair) (h t : Half) : Prop where
  self  : (t.pairs.get p).seq = x.seq
  other : ∀ q, q ≠ p → t.pairs.get q = h.pairs.get q

namespace Half.PairOnly

variable {p : Fin 24} {x y : Pair} {h t u : Half}

theorem phase (w : PairOnly p x h t) : (t.pairs.get p).phase = x.phase := congrArg (fun y => y.phase) w.self
theorem fault (w : PairOnly p x h t) : (t.pairs.get p).fault = x.fault := congrArg (fun y => y.fault) w.self
theorem prof (w : PairOnly p x h t) : (t.pairs.get p).prof = x.prof := congrArg (fun y => y.prof) w.self
theorem entry (w : PairOnly p x h t) : (t.pairs.get p).entry = x.entry := congrArg (fun y => y.entry) w.self
theorem srcGap (w : PairOnly p x h t) : (t.pairs.get p).srcGap = x.srcGap := congrArg (fun y => y.srcGap) w.self
theorem bstGap (w : PairOnly p x h t) : (t.pairs.get p).bstGap = x.bstGap := congrArg (fun y => y.bstGap) w.self
theorem ls (w : PairOnly p x h t) : (t.pairs.get p).ls = x.ls := congrArg (fun y => y.ls) w.self
theorem lsAt (w : PairOnly p x h t) : (t.pairs.get p).lsAt = x.lsAt := congrArg (fun y => y.lsAt) w.self
theorem hs (w : PairOnly p x h t) : (t.pairs.get p).hs = x.hs := by
  have e := congrArg Pair.hs w.self
  exact e
theorem lsOut (w : PairOnly p x h t) : (t.pairs.get p).lsOut = x.lsOut := by
  have e := congrArg Pair.lsOut w.self
  exact e

theorem then_ (w : PairOnly p x h t) (v : PairOnly p y t u) : PairOnly p y h u :=
  ⟨v.self, fun q hq => (v.other q hq).trans (w.other q hq)⟩

/-- What follows leaves the sequencer as it has become. -/
theorem kept (w : PairOnly p x h t) (v : PairOnly p (t.pairs.get p) t u) : PairOnly p x h u := ⟨v.self.trans w.self, (w.then_ v).other⟩

theorem of_pairs (e : t.pairs = h.pairs) : PairOnly p (h.pairs.get p) h t := ⟨by rw [e], fun q _ => by rw [e]⟩

theorem pairMap (p : Fin 24) (f : Pair → Pair) (h : Half) : PairOnly p (f (h.pairs.get p)) h (h.pairMap p f) :=
  ⟨congrArg Pair.seq (upd_get_self ..), fun _ hq => upd_get_ne _ _ _ _ hq⟩

/-- A change of what is not the sequencer's. -/
theorem noted (p : Fin 24) {f : Pair → Pair} (h : Half) (e : (f (h.pairs.get p)).seq = (h.pairs.get p).seq) :
    PairOnly p (h.pairs.get p) h (h.pairMap p f) := ⟨(pairMap p f h).self.trans e, (pairMap p f h).other⟩

end Half.PairOnly

@[simp] theorem Half.settle1_pairs (m : Fin 48) (h : Half) : (h.settle1 m).pairs = h.pairs := by
  obtain e | ⟨lvl, e⟩ := h.settle1_sched m
  · exact Half.pairs_of_sched e
  · exact (congrArg Sched.pairs e).trans rfl

@[simp] theorem Half.pulseTrig_pairs (m : Nat) (starts : Bool) (h : Half) : (h.pulseTrig m starts).pairs = h.pairs :=
  Half.pairs_of_sched (Half.pulseTrig_sched ..)

theorem Half.pairTrig_only (p : Fin 24) (h : Half) : PairOnly p (h.pairs.get p) h (h.pairTrig p) := by
  unfold Half.pairTrig
  simp only
  split
  · exact (PairOnly.noted p h (by rfl)).kept (.of_pairs (Half.pulseTrig_pairs ..))
  · split
    · exact (PairOnly.noted p h (by rfl)).kept (.of_pairs (Half.pulseTrig_pairs ..))
    · exact .of_pairs rfl

/-- The pins of a pair taking their levels leave every sequencer as it is. -/
theorem Half.settlePair_only (p : Fin 24) (h : Half) : PairOnly p (h.pairs.get p) h (h.settlePair p) := by
  unfold Half.settlePair
  extract_lets h1 h2
  have w1 : PairOnly p (h.pairs.get p) h h1 := .of_pairs (by simp [h1])
  refine PairOnly.kept ?_ (Half.pairTrig_only p h2)
  simp only [h2]
  split
  · exact w1
  · exact w1.kept (.noted p h1 (by rfl))

theorem Half.boostDone_only (p : Fin 24) (drop : Bool) (h : Half) : PairOnly p (h.pairs.get p) h (h.boostDone p drop) := by
  unfold Half.boostDone
  extract_lets x
  split
  · exact .of_pairs rfl
  · refine PairOnly.kept (PairOnly.noted p h ?_) (.of_pairs (Half.emit_pairs ..))
    rfl

/-- A pair that enters a phase at an instant, its comparators blanked from there where BLANK is not 0 (R209, R212, R214, R537). -/
def Pair.enter (n : Nat) (gap bst blank : Bool) (now : Nat) (x : Pair) : Pair :=
  { x with
    phase := n, hiLat := false, loLat := false, entry := now, blank := blank
    srcGap := gap || (x.srcGap && 1 ≤ x.phase && x.phase ≤ 3 && 1 ≤ n && n ≤ 3), gapAt := if gap then now else x.gapAt, bstGap := bst
    ls := true, lsAt := now }

/-- The pair of a half as it enters a phase. -/
def Half.entered (p : Fin 24) (n : Nat) (gap bst : Bool) (h : Half) : Pair :=
  (h.pairs.get p).enter n gap bst (n ≠ 7 && phABlank (phWordA (h.pairProf p) n) ≠ 0) h.now

theorem Half.enterGap_only (p : Fin 24) (n : Nat) (gap bst : Bool) (h : Half) :
    PairOnly p (h.entered p n gap bst) h (h.enterGap p n gap bst) :=
  (PairOnly.pairMap p (Pair.enter n gap bst (n ≠ 7 && phABlank (phWordA (h.pairProf p) n) ≠ 0) h.now) h).kept (Half.settlePair_only p _)

/-! ### The end of a slot's content leaves the pairs alone -/

/-- What no step changes, the loop does not. -/
theorem eachOf_same {α σ β : Type} (l : List α) {f : α → σ → σ} (g : σ → β) (k : ∀ x t, g (f x t) = g t) (s : σ) :
    g (eachOf l f s) = g s :=
  List.foldlRecOn (motive := fun t => g t = g s) l _ rfl (fun t e x _ => (k x t).trans e)

@[simp] theorem Half.bankMap_pairs (b : Nat) (f : Bank → Bank) (h : Half) : (h.bankMap b f).pairs = h.pairs := by
  unfold Half.bankMap
  split <;> rfl

@[simp] theorem Half.record_pairs (k : Fin 1024) (c : SlotC) (cyc outcome : Nat) (tags : BitVec 16) (edge : Word) (late : Nat) (h : Half) :
    (h.record k c cyc outcome tags edge late).pairs = h.pairs := Half.pairs_of_sched (Half.record_sched ..)

@[simp] theorem Half.freeze_pairs (k : Fin 1024) (c : SlotC) (cyc : Nat) (tags cause : BitVec 16) (turn : Nat) (h : Half) :
    (h.freeze k c cyc tags cause turn).pairs = h.pairs := rfl

@[simp] theorem Half.returnResv_pairs (k cyc : Nat) (h : Half) : (h.returnResv k cyc).pairs = h.pairs := rfl

@[simp] theorem Half.dropResv_pairs (k cyc : Nat) (h : Half) : (h.dropResv k cyc).pairs = h.pairs := rfl

@[simp] theorem Half.makeDue_pairs (k : Fin 1024) (ofs : Nat) (h : Half) : (h.makeDue k ofs).pairs = h.pairs := rfl

@[simp] theorem Half.release_pairs (k : Fin 1024) (h : Half) : (h.release k).pairs = h.pairs := by
  unfold Half.release
  extract_lets s h1 h2
  have e2 : h2.pairs = h.pairs := by simp [h2, h1, apply_ite Half.pairs]
  exact (eachOf_same _ Half.pairs (fun _ _ => Half.emit_pairs ..) h2).trans e2

@[simp] theorem Half.slotDone_pairs (k : Fin 1024) (outcome : Nat) (h : Half) : (h.slotDone k outcome).pairs = h.pairs := by
  unfold Half.slotDone
  simp only
  split
  · simp
  · simp [apply_ite Half.pairs]

@[simp] theorem Half.skipLate_pairs (k : Fin 1024) (outcome : Nat) (h : Half) : (h.skipLate k outcome).pairs = h.pairs := by
  unfold Half.skipLate
  simp

@[simp] theorem Half.lateHandle_pairs (k : Fin 1024) (late : Nat) (h : Half) : (h.lateHandle k late).pairs = h.pairs := by
  unfold Half.lateHandle
  extract_lets s ch etL h1 pol acts
  have e1 : h1.pairs = h.pairs := rfl
  clear_value etL h1
  cases etL with
  | none => simp [apply_ite Half.pairs, e1]
  | some e => simp [apply_ite Half.pairs, e1]

@[simp] theorem Half.hopperLoad_pairs (k : Fin 1024) (h : Half) : (h.hopperLoad k).pairs = h.pairs := by
  unfold Half.hopperLoad
  simp [apply_ite Half.pairs]

@[simp] theorem Half.finish_pairs (k : Fin 1024) (outcome : Nat) (h : Half) : (h.finish k outcome).pairs = h.pairs := by
  unfold Half.finish
  simp

/-! ### The rows of the table (R209, R211) -/

theorem Half.enterPhase_only (p : Fin 24) (n : Nat) (gap : Bool) (h : Half) :
    PairOnly p (h.entered p n gap false) h (h.enterPhase p n gap) := h.enterGap_only p n gap false

/-- A pair `p` that is in a phase of the table with a LAST_FAULT, and the other pairs as they were. -/
structure Half.MovesTo (p : Fin 24) (n f : Nat) (h t : Half) : Prop where
  phase : (t.pairs.get p).phase = n
  fault : (t.pairs.get p).fault = f
  other : ∀ q, q ≠ p → t.pairs.get q = h.pairs.get q

namespace Half.MovesTo

variable {p : Fin 24} {n m f g : Nat} {h t u : Half}

theorem of_only {x : Pair} (w : PairOnly p x h t) : MovesTo p x.phase x.fault h t := ⟨w.phase, w.fault, w.other⟩

theorem then_ (w : MovesTo p n f h t) (v : MovesTo p m g t u) : MovesTo p m g h u :=
  ⟨v.phase, v.fault, fun q hq => (v.other q hq).trans (w.other q hq)⟩

/-- To another phase, LAST_FAULT as it stands. -/
theorem goes (w : MovesTo p n f h t) (v : MovesTo p m (t.pairs.get p).fault t u) : MovesTo p m f h u := w.then_ (w.fault ▸ v)

/-- Neither phase nor LAST_FAULT changes. -/
theorem stays (w : MovesTo p n f h t) (v : MovesTo p (t.pairs.get p).phase (t.pairs.get p).fault t u) : MovesTo p n f h u :=
  w.goes (w.phase ▸ v)

end Half.MovesTo

theorem Half.enterPhase_moves (p : Fin 24) (n : Nat) (gap : Bool) (h : Half) : MovesTo p n (h.pairs.get p).fault h (h.enterPhase p n gap) :=
  .of_only (h.enterPhase_only p n gap)

theorem Half.toIdle_moves (p : Fin 24) (h : Half) : MovesTo p 7 (h.pairs.get p).fault h (h.toIdle p) := h.enterPhase_moves p 7 false

theorem Half.toNext_moves (p : Fin 24) (h : Half) :
    MovesTo p (nextPhase (h.pairProf p) (h.pairs.get p).phase) (h.pairs.get p).fault h (h.toNext p) :=
  (MovesTo.of_only (h.boostDone_only p false)).goes (Half.enterPhase_moves ..)

theorem Half.toFast_moves (p : Fin 24) (drop : Bool) (h : Half) : MovesTo p 5 (h.pairs.get p).fault h (h.toFast p drop) :=
  (MovesTo.of_only (h.boostDone_only p drop)).goes (Half.enterPhase_moves ..)

theorem Half.toFree_moves (p : Fin 24) (h : Half) :
    MovesTo p (if phSkipped (h.pairProf p) 4 then 5 else 4) (h.pairs.get p).fault h (h.toFree p) := Half.enterPhase_moves ..

theorem Half.drvFault_only (p : Fin 24) (code cls : Nat) (h : Half) :
    PairOnly p { h.pairs.get p with fault := code } h (h.drvFault p code cls) :=
  (PairOnly.pairMap p (fun x => { x with fault := code }) h).kept (.of_pairs (Half.raise_pairs ..))

theorem Half.drvFault_moves (p : Fin 24) (code cls : Nat) (h : Half) : MovesTo p (h.pairs.get p).phase code h (h.drvFault p code cls) :=
  .of_only (h.drvFault_only p code cls)

/-- A drive fault leaves the profile of its command. -/
@[simp] theorem Half.drvFault_pairProf (p : Fin 24) (code cls : Nat) (h : Half) : (h.drvFault p code cls).pairProf p = h.pairProf p := by
  unfold Half.pairProf Half.prof
  rw [(h.drvFault_only p code cls).prof]
  unfold Half.drvFault
  rw [Half.raise_profs]
  rfl

theorem Half.endCommand_moves (p : Fin 24) (h : Half) : MovesTo p (h.pairs.get p).phase (h.pairs.get p).fault h (h.endCommand p) := by
  unfold Half.endCommand
  split
  · exact .of_only (.of_pairs rfl)
  · next k _ =>
    have w := (PairOnly.pairMap p (fun x => { x with slot := none }) h).kept (.of_pairs (Half.finish_pairs k 11 _))
    exact ⟨w.phase, w.fault, w.other⟩

/-- The phase to which a pair goes at T_LIM, and the LAST_FAULT it then has (R211). -/
def Half.limitRow (p : Fin 24) (aboveLo : Bool) (h : Half) : Nat × Nat :=
  let x := h.pairs.get p
  let next := nextPhase (h.pairProf p) x.phase
  match x.phase with
  | 0 => if aboveLo then (next, 3) else (5, 1)
  | 1 => (next, if h.exitOf p = 1 then 3 else x.fault)
  | 2 => (next, x.fault)
  | 3 => (if phSkipped (h.pairProf p) 4 then 5 else 4, 3)
  | 4 => (5, x.fault)
  | 5 => (7, 3)
  | n => (n, x.fault)

/-- A fault and the next phase. -/
theorem Half.drvFault_toNext_moves (p : Fin 24) (code cls : Nat) (h : Half) :
    MovesTo p (nextPhase (h.pairProf p) (h.pairs.get p).phase) code h ((h.drvFault p code cls).toNext p) := by
  have w := h.drvFault_moves p code cls
  have v := (h.drvFault p code cls).toNext_moves p
  rw [Half.drvFault_pairProf, w.phase] at v
  exact w.goes v

/-- Every row of T_LIM. -/
theorem Half.phaseTimeout_moves (p : Fin 24) (aboveLo : Bool) (h : Half) :
    MovesTo p (h.limitRow p aboveLo).1 (h.limitRow p aboveLo).2 h (h.phaseTimeout p aboveLo) := by
  have hnext := h.drvFault_toNext_moves p 3 0x26
  have hsame := h.toNext_moves p
  unfold Half.phaseTimeout Half.limitRow
  dsimp only
  generalize hx : (h.pairs.get p).phase = n at hnext hsame ⊢
  match n with
  | 0 =>
    cases aboveLo
    · exact ((h.drvFault_moves p 1 0x24).goes (Half.toFast_moves ..)).stays (Half.endCommand_moves ..)
    · exact hnext
  | 1 =>
    show MovesTo p (nextPhase (h.pairProf p) 1) (if h.exitOf p = 1 then 3 else _) h (if h.exitOf p = 1 then _ else _)
    split
    · exact hnext
    · exact hsame
  | 2 => exact hsame
  | 3 =>
    have v := (h.drvFault p 3 0x26).toFree_moves p
    rw [Half.drvFault_pairProf] at v
    exact ((h.drvFault_moves p 3 0x26).goes v).stays (Half.endCommand_moves ..)
  | 4 => exact h.enterPhase_moves p 5 false
  | 5 => exact (h.drvFault_moves p 3 0x26).goes (Half.toIdle_moves ..)
  | m + 6 => exact ⟨hx, rfl, fun _ _ => rfl⟩

/-- Overcurrent, 16 et after a pin change (R214). -/
theorem Half.overcurrent_moves {p : Fin 24} {h : Half} (hn : (h.pairs.get p).pinAt + 16 ≤ h.now) : MovesTo p
    (if (h.pairs.get p).phase = 5 ∨ (h.pairs.get p).phase = 7 then (h.pairs.get p).phase else 5)
    (if (h.pairs.get p).phase = 5 ∨ (h.pairs.get p).phase = 7 then (h.pairs.get p).fault else 2) h (h.overcurrent p) := by
  have w := MovesTo.of_only (PairOnly.pairMap p (fun x => { x with maxLat := true }) h)
  unfold Half.overcurrent
  extract_lets x h1
  rw [if_neg (Nat.not_lt.mpr hn)]
  by_cases hp : x.phase = 5 ∨ x.phase = 7
  · simp only [x] at hp
    simpa [hp, x, h1] using w
  · simp only [x] at hp
    simp only [if_neg hp, Bool.or_eq_true, decide_eq_true_eq, x]
    exact ((w.then_ (h1.drvFault_moves p 2 0x25)).goes (Half.toFast_moves ..)).stays (Half.endCommand_moves ..)

/-! ### The comparators (R214, R215) -/

/-- A pair whose comparators stand at levels after blanking: the latches follow (R214). -/
def Pair.sees (hi lo : Bool) (x : Pair) : Pair := { x with hiLive := hi, loLive := lo, hiLat := x.hiLat || hi, loLat := x.loLat || !lo }

theorem Half.comparators_of_blank {p : Fin 24} {h : Half} (hi lo : Bool) (hb : (h.pairs.get p).blank = true) :
    h.comparators p hi lo = h.pairMap p (fun x => { x with hiLive := hi, loLive := lo }) := by
  unfold Half.comparators
  exact if_pos (by simp [hb])

theorem Half.comparators_of_gap {p : Fin 24} {h : Half} (hi lo : Bool) (hg : (h.pairs.get p).bstGap = true) :
    h.comparators p hi lo = h.pairMap p (fun x => { x with hiLive := hi, loLive := lo }) := by
  unfold Half.comparators
  exact if_pos (by simp [hg])

section

variable {p : Fin 24} {h : Half}

@[simp] theorem Half.sees_pairProf (hi lo : Bool) : (h.pairMap p (Pair.sees hi lo)).pairProf p = h.pairProf p := by
  simp [Half.pairProf, Half.prof, Pair.sees]

variable (hb : (h.pairs.get p).blank = false) (hg : (h.pairs.get p).bstGap = false)

include hb hg

/-- After blanking a crossing not latched before ends the phase whose EXIT it is; else LS chops. -/
theorem Half.comparators_of_seen (hi lo : Bool) (hp : (h.pairs.get p).phase ≠ 7) : h.comparators p hi lo =
    let x := h.pairs.get p
    let t := h.pairMap p (Pair.sees hi lo)
    if hi && !x.hiLat && (x.phase = 0 || (x.phase = 1 && h.exitOf p = 1)) then t.toNext p
    else if !lo && !x.loLat && x.phase = 4 && h.exitOf p = 2 then t.enterPhase p 5 false
    else if !lo && !x.loLat && x.phase = 5 then t.toIdle p
    else t.chop p := by
  unfold Half.comparators
  dsimp only
  rw [if_neg (by simp [hb, hg, hp])]
  simp only [Half.pairMap, upd_get_self, upd_upd]
  rfl

theorem Half.comparators_upper (hl : (h.pairs.get p).hiLat = false)
    (hx : (h.pairs.get p).phase = 0 ∨ ((h.pairs.get p).phase = 1 ∧ h.exitOf p = 1)) :
    ((h.comparators p true true).pairs.get p).phase = nextPhase (h.pairProf p) (h.pairs.get p).phase := by
  have hp : (h.pairs.get p).phase ≠ 7 := by omega
  have v := (h.pairMap p (Pair.sees true true)).toNext_moves p
  rw [Half.comparators_of_seen hb hg true true hp]
  dsimp only
  rw [if_pos (by simpa [hl] using hx), v.phase]
  simp [Pair.sees]

theorem Half.comparators_lower_free (hl : (h.pairs.get p).loLat = false) (hx : (h.pairs.get p).phase = 4) (he : h.exitOf p = 2) :
    ((h.comparators p false false).pairs.get p).phase = 5 := by
  rw [Half.comparators_of_seen hb hg false false (by omega)]
  dsimp only
  rw [if_neg (by simp), if_pos (by simp [hl, hx, he])]
  exact (Half.enterPhase_moves p 5 false _).phase

theorem Half.comparators_lower_fast (hl : (h.pairs.get p).loLat = false) (hx : (h.pairs.get p).phase = 5) :
    ((h.comparators p false false).pairs.get p).phase = 7 := by
  rw [Half.comparators_of_seen hb hg false false (by omega)]
  dsimp only
  rw [if_neg (by simp), if_neg (by simp [hx]), if_pos (by simp [hl, hx])]
  exact (Half.toIdle_moves p _).phase

/-- In HOLD1 and HOLD2 no crossing ends the phase. -/
theorem Half.comparators_hold (hi lo : Bool) (h2 : 2 ≤ (h.pairs.get p).phase) (h3 : (h.pairs.get p).phase ≤ 3) :
    h.comparators p hi lo = (h.pairMap p (Pair.sees hi lo)).chop p := by
  rw [Half.comparators_of_seen hb hg hi lo (by omega)]
  dsimp only
  rw [if_neg (by simp; omega), if_neg (by simp; omega), if_neg (by simp; omega)]

end

/-! ### LS under chopping (R215) -/

/-- LS of a pair at a level from an instant on. -/
def Pair.lsSet (v : Bool) (now : Nat) (x : Pair) : Pair := { x with ls := v, lsAt := now }

theorem Half.lsSet_only (p : Fin 24) (v : Bool) (h : Half) :
    PairOnly p ((h.pairs.get p).lsSet v h.now) h ((h.pairMap p (Pair.lsSet v h.now)).settlePair p) :=
  (PairOnly.pairMap p (Pair.lsSet v h.now) h).kept (Half.settlePair_only p _)

theorem Half.chop_of_gap {p : Fin 24} {h : Half} (hs : (h.pairs.get p).srcGap = true) : h.chop p = h := by
  unfold Half.chop
  exact if_pos (by simp [hs])

/-- Chopping changes LS and its instant alone. -/
theorem Half.chop_only (p : Fin 24) (h : Half) : ∃ v n, PairOnly p ((h.pairs.get p).lsSet v n) h (h.chop p) := by
  have same : PairOnly p ((h.pairs.get p).lsSet (h.pairs.get p).ls (h.pairs.get p).lsAt) h h := .of_pairs rfl
  unfold Half.chop
  dsimp only
  split
  · exact ⟨_, _, same⟩
  · split
    · exact ⟨_, _, h.lsSet_only p false⟩
    · split
      · exact ⟨_, _, h.lsSet_only p true⟩
      · exact ⟨_, _, same⟩

section

variable {p : Fin 24} {h : Half} (hp : (h.pairs.get p).phase ≠ 7) (hb : (h.pairs.get p).blank = false)
  (hs : (h.pairs.get p).srcGap = false) (hc : phBChop (phWordB (h.pairProf p) (h.pairs.get p).phase) = true)
  (hm : (h.pairs.get p).lsAt + phBChopMin (phWordB (h.pairProf p) (h.pairs.get p).phase) * 20 ≤ h.now)

include hp hb hs hc hm

/-- LS falls where the upper comparator asserts, its level held for CHOP_MIN. -/
theorem Half.chop_falls (hl : (h.pairs.get p).ls = true) (hi : (h.pairs.get p).hiLive = true) :
    PairOnly p ((h.pairs.get p).lsSet false h.now) h (h.chop p) := by
  unfold Half.chop
  dsimp only
  rw [if_neg (by simp [hp, hb, hs, hc, hm]), if_pos (by simp [hl, hi])]
  exact h.lsSet_only p false

/-- LS rises where the lower one does not, its level held for CHOP_MIN. -/
theorem Half.chop_rises (hl : (h.pairs.get p).ls = false) (hlo : (h.pairs.get p).loLive = false) :
    PairOnly p ((h.pairs.get p).lsSet true h.now) h (h.chop p) := by
  unfold Half.chop
  dsimp only
  rw [if_neg (by simp [hp, hb, hs, hc, hm]), if_neg (by simp [hl]), if_pos (by simp [hl, hlo])]
  exact h.lsSet_only p true

end

/-- HOLD1 and HOLD2 chop, out of a source gap: the comparators set LS as chopping sets it, from the levels seen. -/
theorem Half.comparators_chops {p : Fin 24} {h : Half} (h2 : 2 ≤ (h.pairs.get p).phase) (h3 : (h.pairs.get p).phase ≤ 3)
    (hb : (h.pairs.get p).blank = false) (hg : (h.pairs.get p).bstGap = false) (hs : (h.pairs.get p).srcGap = false)
    (hc : phBChop (phWordB (h.pairProf p) (h.pairs.get p).phase) = true)
    (hm : (h.pairs.get p).lsAt + phBChopMin (phWordB (h.pairProf p) (h.pairs.get p).phase) * 20 ≤ h.now) :
    ((h.pairs.get p).ls = true →
      ∀ lo, ((h.comparators p true lo).pairs.get p).ls = false ∧ ((h.comparators p true lo).pairs.get p).lsAt = h.now) ∧
    ((h.pairs.get p).ls = false →
      ((h.comparators p false false).pairs.get p).ls = true ∧ ((h.comparators p false false).pairs.get p).lsAt = h.now) := by
  have hx (hi lo : Bool) : (h.pairMap p (Pair.sees hi lo)).pairs.get p = (h.pairs.get p).sees hi lo := upd_get_self ..
  have hp : (h.pairs.get p).phase ≠ 7 := by omega
  constructor
  · intro hl lo
    have w := Half.chop_falls (h := h.pairMap p (Pair.sees true lo)) (p := p) (by rwa [hx]) (by rwa [hx]) (by rwa [hx])
      (by rwa [hx, Half.sees_pairProf]) (by rwa [hx, Half.sees_pairProf]) (by rwa [hx]) (by rw [hx]; rfl)
    rw [Half.comparators_hold hb hg true lo h2 h3]
    exact ⟨w.ls, w.lsAt⟩
  · intro hl
    have w := Half.chop_rises (h := h.pairMap p (Pair.sees false false)) (p := p) (by rwa [hx]) (by rwa [hx]) (by rwa [hx])
      (by rwa [hx, Half.sees_pairProf]) (by rwa [hx, Half.sees_pairProf]) (by rwa [hx]) (by rw [hx]; rfl)
    rw [Half.comparators_hold hb hg false false h2 h3]
    exact ⟨w.ls, w.lsAt⟩

/-- In a source gap LS stays as it is (R209). -/
theorem Half.comparators_ls_of_gap {p : Fin 24} {h : Half} (h2 : 2 ≤ (h.pairs.get p).phase) (h3 : (h.pairs.get p).phase ≤ 3)
    (hs : (h.pairs.get p).srcGap = true) (hi lo : Bool) : ((h.comparators p hi lo).pairs.get p).ls = (h.pairs.get p).ls := by
  cases hb : (h.pairs.get p).blank
  · cases hg : (h.pairs.get p).bstGap
    · rw [Half.comparators_hold hb hg hi lo h2 h3, Half.chop_of_gap]
      · simp [Pair.sees]
      · simp [Pair.sees, hs]
    · rw [Half.comparators_of_gap hi lo hg]
      simp
  · rw [Half.comparators_of_blank hi lo hb]
    simp

/-- Overcurrent leaves the other pairs alone, blanked or not. -/
theorem Half.overcurrent_other (p : Fin 24) (h : Half) (q : Fin 24) (hq : q ≠ p) : (h.overcurrent p).pairs.get q = h.pairs.get q := by
  by_cases hn : h.now < (h.pairs.get p).pinAt + 16
  · unfold Half.overcurrent
    rw [if_pos hn]
  · exact (Half.overcurrent_moves (Nat.not_lt.mp hn)).other q hq

/-! ### The ends of the gaps (R209, R212) -/

theorem Half.sourceGapEnd_rises {p : Fin 24} {h : Half} (hs : (h.pairs.get p).srcGap = true) (h1 : 1 ≤ (h.pairs.get p).phase)
    (h3 : (h.pairs.get p).phase ≤ 3) :
    ((h.sourceGapEnd p).pairs.get p).srcGap = false ∧ ((h.sourceGapEnd p).pairs.get p).hs = true := by
  have w := (PairOnly.pairMap p (fun x => { x with srcGap := false }) h).kept (Half.settlePair_only p _)
  obtain ⟨v, n, c⟩ := ((h.pairMap p (fun x => { x with srcGap := false })).settlePair p).chop_only p
  unfold Half.sourceGapEnd
  rw [if_pos hs, c.srcGap, c.hs]
  refine ⟨w.srcGap, Eq.trans w.hs ?_⟩
  simp only [Pair.hs]
  rw [if_neg (by omega), if_pos h3]
  rfl

theorem Half.boostRise_only (p : Fin 24) (h : Half) : PairOnly p { h.pairs.get p with
    bstGap := false, entry := h.now, blank := phABlank (phWordA (h.pairProf p) 0) ≠ 0 } h (h.boostRise p) :=
  ((PairOnly.pairMap p (fun x => { x with bstGap := false, entry := h.now, blank := phABlank (phWordA (h.pairProf p) 0) ≠ 0 }) h).kept
    (Half.settlePair_only p _)).kept (.of_pairs (Half.emit_pairs ..))

end Sys2Proof.Machine

open Sys2Proof Sys2Proof.Machine

/-- Settles O32: the crossings by the one split of the comparators after blanking, T_LIM and overcurrent as moves of the table, LS by
chopping alone in HOLD1 and HOLD2. -/
theorem drivePhasesFollowTheTable : Obligations.DrivePhasesFollowTheTable := by
  unfold Obligations.DrivePhasesFollowTheTable
  intro p h x ph lf w
  have limit (b : Bool) := h.phaseTimeout_moves p b
  refine ⟨fun hb hg hl hx => Half.comparators_upper hb hg hl hx, fun hx he hb hg hl => Half.comparators_lower_free hb hg hl hx he,
    fun hx hb hg hl => Half.comparators_lower_fast hb hg hl hx, fun hx b => ?_, fun hx => ?_, fun hx b => ?_, fun h5 h7 hn => ?_,
    fun h2 h3 hb hg hs hc hm => Half.comparators_chops h2 h3 hb hg hs hc hm, fun h2 h3 hs => Half.comparators_ls_of_gap h2 h3 hs,
    fun hb hi lo => Half.comparators_of_blank hi lo hb, fun q hq b => ⟨(limit b).other q hq, h.overcurrent_other p q hq⟩⟩
  · obtain ⟨hp, hf, -⟩ := limit b
    simp only [Half.limitRow, show (h.pairs.get p).phase = 5 from hx] at hp hf
    exact ⟨hp, hf⟩
  · obtain ⟨hp, hf, -⟩ := limit false
    simp only [Half.limitRow, show (h.pairs.get p).phase = 0 from hx] at hp hf
    exact ⟨hp, hf⟩
  · obtain ⟨hp, hf, -⟩ := limit b
    simp only [Half.limitRow, show (h.pairs.get p).phase = 3 from hx] at hp hf
    exact ⟨hp.trans (by simp [phSkipped]), hf⟩
  · obtain ⟨hp, hf, -⟩ := Half.overcurrent_moves hn
    rw [if_neg (not_or.mpr ⟨h5, h7⟩)] at hp hf
    exact ⟨hp, hf⟩

/-- Settles O31: each row by the half at work and the instant its timer runs out; the ends of the gaps by what they leave of the pair. -/
theorem driveSequencerEvents : Obligations.DriveSequencerEvents := by
  unfold Obligations.DriveSequencerEvents
  intro id p dt hi lo s hl
  dsimp only
  have hla : (s.advance dt).live id = true := (State.advance_live dt s id).trans hl
  refine ⟨fun hs => ?_, Half.sourceGapEnd_rises, fun hg => ?_, fun h0 => ?_, fun hb hg => ?_, ?_, ?_, ?_, fun h7 hg => ?_, ?_, fun h7 hk => ?_⟩
  · exact congrArg Host.Outcome.next (State.due_of_live _ hl (if_pos hs))
  · exact congrArg Host.Outcome.next (State.due_of_live _ hl (if_pos hg))
  · have w := (s.half id).boostRise_only p
    refine ⟨w.bstGap, w.hs.trans ?_, w.lsOut.trans ?_, w.entry⟩
    · simp only [Pair.hs]
      exact if_pos h0
    · simp only [Pair.lsOut]
      exact if_pos h0
  · exact congrArg Host.Outcome.next (State.due_of_live (Half.blankEnd p hi lo) hl (if_pos (by simp [hb, hg])))
  · exact congrArg Host.Outcome.next (State.act_of_live _ hla)
  · exact congrArg Host.Outcome.next (State.act_of_live _ hla)
  · exact congrArg Host.Outcome.next (State.act_of_live _ hl)
  · exact congrArg Host.Outcome.next (State.due_of_live _ hl (if_neg (by simp [h7, hg])))
  · exact congrArg Host.Outcome.next (State.act_of_live _ hl)
  · refine congrArg Host.Outcome.next ((State.act_of_live _ hl).trans (State.onHalf_congr ?_))
    exact if_pos (by simp [h7, hk])

end

section
/-! PROOFS. The kill latch and the kill net: what a latch set anew leaves of a half, what a source of the net does to both halves and the
floodgate, and the outputs after reset (R205, R226 to R236, R538). -/

namespace Sys2Proof.Machine

open Sys2Proof

/-! ### Loops that do something to each index -/

/-- Where each step makes its own element so, and no step undoes another's, all are so in the end; `I` is what every step keeps. -/
theorem eachOf_all {α σ : Type} {l : List α} {f : α → σ → σ} {I : σ → Prop} {P : α → σ → Prop} {s : σ} (hs : I s)
    (inv : ∀ x t, I t → I (f x t)) (make : ∀ x t, I t → P x (f x t)) (keep : ∀ x y t, I t → P y t → P y (f x t))
    {y : α} (hy : y ∈ l) : P y (eachOf l f s) := by
  have go : ∀ t, I t → (P y t ∨ y ∈ l) → P y (l.foldl (fun t x => f x t) t) := by
    clear hy hs
    induction l with
    | nil => exact fun t _ h => h.resolve_right List.not_mem_nil
    | cons x l ih =>
      refine fun t ht h => ih _ (inv x t ht) ?_
      rcases h with h | h
      · exact .inl (keep x y t ht h)
      · rcases List.mem_cons.mp h with rfl | h
        · exact .inl (make y t ht)
        · exact .inr h
  exact go s hs (.inr hy)

/-- The same of a loop over all indices. -/
theorem eachIdx_all {σ : Type} {n : Nat} {f : Fin n → σ → σ} {I : σ → Prop} {P : Fin n → σ → Prop} {s : σ} (hs : I s)
    (inv : ∀ i t, I t → I (f i t)) (make : ∀ i t, I t → P i (f i t)) (keep : ∀ i j t, I t → P j t → P j (f i t)) (j : Fin n) :
    P j (eachIdx n f s) := eachOf_all hs inv make keep (List.mem_finRange j)

/-- What no step changes, such a loop does not. -/
theorem eachIdx_same {σ β : Type} {n : Nat} {f : Fin n → σ → σ} (g : σ → β) (k : ∀ i t, g (f i t) = g t) (s : σ) :
    g (eachIdx n f s) = g s := eachOf_same (idxs n) g k s

/-! ### What the pins taking their levels leave alone -/

/-- The slots of a half and the configuration of its pins. -/
def Half.plan (h : Half) : Vector Slot 1024 × (Fin 48 → Word) := (h.slots, fun m => (h.chans.get m).out)

theorem Half.plan_of_sched {h t : Half} (e : t.sched = h.sched) : t.plan = h.plan := by
  unfold Half.plan
  rw [Half.slots_of_sched e, Half.chans_of_sched e]

/-- A pin's new level changes neither its configuration nor its safe level. -/
theorem Half.settle1_safe (m j : Fin 48) (h : Half) : ((h.settle1 m).chans.get j).out = (h.chans.get j).out ∧
    ((h.settle1 m).chans.get j).safeLevel = (h.chans.get j).safeLevel := by
  obtain e | ⟨lvl, e⟩ := h.settle1_sched m
  · rw [Half.chans_of_sched e]
    exact ⟨rfl, rfl⟩
  · rw [Half.chans_of_sched e, Half.chanMap_chans, upd_get]
    split
    · next c => subst c; exact ⟨rfl, rfl⟩
    · exact ⟨rfl, rfl⟩

theorem Half.settle1_chan_ne {m j : Fin 48} (h : Half) (hj : j ≠ m) : (h.settle1 m).chans.get j = h.chans.get j := by
  obtain e | ⟨lvl, e⟩ := h.settle1_sched m
  · rw [Half.chans_of_sched e]
  · rw [Half.chans_of_sched e]
    exact upd_get_ne _ _ _ _ hj

@[simp] theorem Half.settle1_plan (m : Fin 48) (h : Half) : (h.settle1 m).plan = h.plan :=
  Prod.ext (Half.settle1_slots ..) (funext fun j => (h.settle1_safe m j).1)

@[simp] theorem Half.pulseTrig_plan (m : Nat) (starts : Bool) (h : Half) : (h.pulseTrig m starts).plan = h.plan :=
  Half.plan_of_sched (Half.pulseTrig_sched ..)

@[simp] theorem Half.pairMap_plan (p : Fin 24) (f : Pair → Pair) (h : Half) : (h.pairMap p f).plan = h.plan := rfl

@[simp] theorem Half.emit_plan (o : Out) (h : Half) : (h.emit o).plan = h.plan := rfl

@[simp] theorem Half.settlePair_plan (p : Fin 24) (h : Half) : (h.settlePair p).plan = h.plan := by
  unfold Half.settlePair Half.pairTrig
  simp [apply_ite Half.plan]

@[simp] theorem Half.drvKill_plan (p : Fin 24) (h : Half) : (h.drvKill p).plan = h.plan := by
  unfold Half.drvKill Half.toIdle Half.enterPhase Half.enterGap Half.boostDone
  simp [apply_ite Half.plan]

@[simp] theorem Half.pulseTrig_chans (m : Nat) (starts : Bool) (h : Half) : (h.pulseTrig m starts).chans = h.chans :=
  Half.chans_of_sched (Half.pulseTrig_sched ..)

/-- A pin that has taken its level stands at it. -/
theorem Half.settle1_level (m : Fin 48) (h : Half) : ((h.settle1 m).chans.get m).level = h.pinLevel m := by
  unfold Half.settle1
  dsimp only
  split
  · next e => exact e.symm
  · simp [apply_ite Half.chans]

@[simp] theorem Half.settle_calm (h : Half) : h.settle.calm = h.calm := eachIdx_same Half.calm Half.settle1_calm h

@[simp] theorem Half.settle_plan (h : Half) : h.settle.plan = h.plan := eachIdx_same Half.plan Half.settle1_plan h

@[simp] theorem Half.settle_pairs (h : Half) : h.settle.pairs = h.pairs := eachIdx_same Half.pairs Half.settle1_pairs h

/-- Under the kill latch the level of a pin is its safe one (R228). -/
theorem Half.pinLevel_of_latch {h : Half} (hl : h.fg.latch = true) (m : Fin 48) : h.pinLevel m = (h.chans.get m).safeLevel := if_pos hl

/-- Under the kill latch every pin settles at its safe level (R205, R227). -/
theorem Half.settle_safe {h : Half} (hl : h.fg.latch = true) (m : Fin 48) :
    (h.settle.chans.get m).level = (h.settle.chans.get m).safeLevel := by
  have latched (i : Fin 48) (t : Half) (ht : t.fg.latch = true) : (t.settle1 i).fg.latch = true :=
    (congrArg (fun c : Calm => c.fg.latch) (t.settle1_calm i)).trans ht
  have make (i : Fin 48) (t : Half) (ht : t.fg.latch = true) :
      ((t.settle1 i).chans.get i).level = ((t.settle1 i).chans.get i).safeLevel := by
    rw [Half.settle1_level, Half.pinLevel_of_latch ht, (t.settle1_safe i i).2]
  refine eachIdx_all (I := fun t : Half => t.fg.latch = true)
    (P := fun j t => (t.chans.get j).level = (t.chans.get j).safeLevel) hl latched make (fun i j t ht hj => ?_) m
  by_cases e : j = i
  · exact e ▸ make i t ht
  · rw [t.settle1_chan_ne e]
    exact hj

/-! ### The kill latch (R227, R228, R236) -/

theorem Half.drvKill_idle (p : Fin 24) (h : Half) : ((h.drvKill p).pairs.get p).phase = 7 := by
  unfold Half.drvKill
  dsimp only
  split
  · assumption
  · exact (Half.toIdle_moves p _).phase

theorem Half.drvKill_other (p : Fin 24) (h : Half) (q : Fin 24) (hq : q ≠ p) : (h.drvKill p).pairs.get q = h.pairs.get q := by
  unfold Half.drvKill
  dsimp only
  split
  · rfl
  · exact ((MovesTo.of_only (h.boostDone_only p true)).goes (Half.toIdle_moves ..)).other q hq

/-- The floodgate forces every sequencer to IDLE. -/
theorem Half.drvKills_idle (h : Half) (p : Fin 24) : ((eachIdx 24 Half.drvKill h).pairs.get p).phase = 7 := by
  refine eachIdx_all (I := fun _ : Half => True) (P := fun q t => (t.pairs.get q).phase = 7) trivial (fun _ _ _ => trivial)
    (fun q t _ => t.drvKill_idle q) (fun i j t _ hj => ?_) p
  by_cases e : j = i
  · exact e ▸ t.drvKill_idle i
  · rw [t.drvKill_other i j e]
    exact hj

/-- The latch of a half set with a cause at an instant, its sequencers idle and its pins yet to follow. -/
def Half.latchOn (cause now : Nat) (h : Half) : Half :=
  { h with
    fg := { h.fg with latch := true, checked := false, cause := cause }
    led := { h.led with meas := h.led.meas.map (fun m => { m with latchAt := some (m.latchAt.getD now) }) } }

@[simp] theorem Half.latchOn_plan (cause now : Nat) (h : Half) : (h.latchOn cause now).plan = h.plan := rfl

@[simp] theorem Half.latchOn_pairs (cause now : Nat) (h : Half) : (h.latchOn cause now).pairs = h.pairs := rfl

theorem Half.setLatch_of_latch {cause : Nat} {h : Half} (hl : h.fg.latch = true) : h.setLatch cause = h := if_pos hl

theorem Half.setLatch_of_free {cause : Nat} {h : Half} (hl : h.fg.latch = false) :
    h.setLatch cause = ((eachIdx 24 Half.drvKill h).latchOn cause h.now).settle := if_neg (by simp [hl])

theorem Half.fg_of_calm {h t : Half} (e : t.calm = h.calm) : t.fg = h.fg := congrArg Calm.fg e

@[simp] theorem Half.settle_fg (h : Half) : h.settle.fg = h.fg := Half.fg_of_calm (Half.settle_calm h)

/-- Whatever it was, the latch is set. -/
@[simp] theorem Half.setLatch_latch (cause : Nat) (h : Half) : (h.setLatch cause).fg.latch = true := by
  cases hl : h.fg.latch
  · rw [Half.setLatch_of_free hl, Half.settle_fg]
    rfl
  · rw [Half.setLatch_of_latch hl, hl]

theorem Half.setLatch_plan (cause : Nat) (h : Half) : (h.setLatch cause).plan = h.plan := by
  cases hl : h.fg.latch
  · rw [Half.setLatch_of_free hl, Half.settle_plan, Half.latchOn_plan, eachIdx_same Half.plan Half.drvKill_plan]
  · rw [Half.setLatch_of_latch hl]

/-- While the latch is set no profile starts (R228). -/
theorem Half.drvStart_of_latch {h : Half} (hl : h.fg.latch = true) (p : Fin 24) (prof : Nat) (k : Fin 1024) :
    h.drvStart p prof k = h.pairMap p (fun x => { x with slot := some k }) := if_pos hl

/-! ### The kill net (R226, R235, R474, R538) -/

@[simp] theorem State.setLatches_hub (cause : Nat) (s : State) : (s.setLatches cause).hub = s.hub :=
  eachOf_same _ State.hub (fun _ _ => State.setHalf_hub ..) s

/-- A source that reaches a half sets its latch: a source of causes 0 to 4 both, a STOP those on a hub path. -/
theorem State.setLatches_latch {cause : Nat} {s : State} {id : HalfId} (hr : cause ≠ 5 ∨ s.reach id = true) :
    ((s.setLatches cause).half id).fg.latch = true := by
  have hm : id ∈ s.netHalves cause := by
    refine List.mem_filter.mpr ⟨?_, by simpa using hr⟩
    cases id <;> simp [bothHalves]
  refine eachOf_all (I := fun _ => True) (P := fun i (t : State) => (t.half i).fg.latch = true) trivial (fun _ _ _ => trivial)
    (fun i t _ => by simp) (fun i j t _ hj => ?_) hm
  by_cases e : j = i
  · simp [e]
  · rwa [State.setHalf_other _ _ _ _ e]

/-- A release not carried out leaves the floodgate without one, and the halves as they are. -/
theorem State.dropRelease_is (s : State) :
    s.dropRelease.hub.fg = { s.hub.fg with rel := none } ∧ s.dropRelease.a = s.a ∧ s.dropRelease.b = s.b := by
  unfold State.dropRelease
  split
  · next qs _ =>
    have w (u : State) : LinkOnly u (eachOf qs (fun q t => t.finish 0 q 0x0130 (le 1 6)) u) :=
      List.foldlRecOn (motive := LinkOnly u) qs _ (.same u) (fun _ k q _ => k.then_ (.finish ..))
    obtain ⟨ha, hb, -, -, -, -, hh⟩ := (w (s.fgMap (fun f => { f with rel := none }))).keeps
    exact ⟨by rw [hh]; rfl, ha, hb⟩
  · next e => exact ⟨by rw [← e], rfl, rfl⟩

/-- What a source leaves of the floodgate: in RUN it trips, a STOP counting for itself; in CHECKED an input or an overspeed trip counts. -/
def FgHub.killed (cause : Nat) (f : FgHub) : FgHub :=
  if f.st = 2 then { f with st := 0, trips := if cause = 5 then f.trips else f.trips + 1, halfChk := [], rel := none }
  else if f.st = 1 ∧ 1 ≤ cause ∧ cause ≤ 4 then { f with trips := f.trips + 1 } else f

/-- A source of the net sets the latches it reaches and leaves the floodgate so; the halves then stay. -/
theorem State.kill_is (cause : Nat) (s : State) : (s.kill cause).hub.fg = s.hub.fg.killed cause ∧
    (s.kill cause).a = (s.setLatches cause).a ∧ (s.kill cause).b = (s.setLatches cause).b := by
  unfold State.kill FgHub.killed
  extract_lets ids s1 f s2 n
  have e1 : s1.hub = s.hub := s.setLatches_hub cause
  have ef : f = s.hub.fg := congrArg Hub.fg e1
  rw [ef]
  split
  · next h2 =>
    have w : LinkOnly s2 _ := (LinkOnly.raiseHub 0x2A locHub s2).then_ (LinkOnly.postEntry 0 0x8001 true true 0 0 s2.hub.frame
      (le 1 cause ++ le 1 (halfMask ids) ++ le 2 n) _)
    obtain ⟨ha, hb, -, -, -, -, hh⟩ := w.keeps
    obtain ⟨df, da, db⟩ := State.dropRelease_is (s1.fgMap (fun f => { f with
      st := 0, trips := if cause = 5 then f.trips else f.trips + 1, halfChk := [] }))
    refine ⟨?_, ha.trans da, hb.trans db⟩
    refine (congrArg Hub.fg hh).trans (df.trans ?_)
    rw [State.fgMap_hub, e1]
  · simp only [Bool.and_eq_true, decide_eq_true_eq, and_assoc]
    split
    · exact ⟨by rw [State.fgMap_hub, e1], rfl, rfl⟩
    · exact ⟨ef, rfl, rfl⟩

theorem State.kill_half (cause : Nat) (s : State) (id : HalfId) : (s.kill cause).half id = (s.setLatches cause).half id := by
  obtain ⟨-, ha, hb⟩ := s.kill_is cause
  cases id
  · exact ha
  · exact hb

/-! ### After reset -/

/-- Under the latch of a reset every pin is at its safe level. -/
theorem Half.reset_pinLevel (id : HalfId) (m : Fin 48) :
    (Half.reset id 0).pinLevel m = ((Half.reset id 0).chans.get m).safeLevel := Half.pinLevel_of_latch rfl m

theorem State.reset_half (id : HalfId) : State.reset.half id = Half.reset id 0 := by cases id <;> rfl

theorem slotsReset_st (k : Fin 1024) : (slotsReset.get k).st = if k.1 < 0x0C0 then 1 else 0 := by
  unfold slotsReset
  rw [Vector.get_ofFn]
  simp [Slot.empty]

end Sys2Proof.Machine

open Sys2Proof Sys2Proof.Machine

/-- Settles O33: the sequencers idle one by one, then the pins settle one by one under the latch; neither touches a slot, the
configuration or the tracker. -/
theorem killLatchForcesSafeStates : Obligations.KillLatchForcesSafeStates := by
  unfold Obligations.KillLatchForcesSafeStates
  intro cause h
  refine ⟨fun hl => ?_, fun hl => ⟨Half.setLatch_of_latch hl, Half.drvStart_of_latch hl⟩⟩
  intro t
  have et : t = ((eachIdx 24 Half.drvKill h).latchOn cause h.now).settle := Half.setLatch_of_free hl
  have ef : t.fg = ((eachIdx 24 Half.drvKill h).latchOn cause h.now).fg := et ▸ Half.settle_fg _
  have es : t.steady = h.steady := h.setLatch_steady cause
  have ep : t.plan = h.plan := h.setLatch_plan cause
  refine ⟨h.setLatch_latch cause, by rw [ef]; rfl, by rw [ef]; rfl, fun p => ?_, fun m => ⟨?_, congrFun (congrArg Prod.snd ep) m⟩,
    congrArg Prod.fst ep, congrArg Steady.cfg es, congrArg Steady.trk es⟩
  · rw [et, Half.settle_pairs, Half.latchOn_pairs]
    exact Half.drvKills_idle h p
  · rw [et]
    exact Half.settle_safe rfl m

/-- Settles O34: the latches by the halves the net reaches, the floodgate by what a source leaves of it, an input that goes low as a source. -/
theorem killNetSetsEveryLatch : Obligations.KillNetSetsEveryLatch := by
  unfold Obligations.KillNetSetsEveryLatch
  refine ⟨fun cause s hc => ?_, fun w dt s => ?_⟩
  · intro t
    obtain ⟨hf, ha, hb⟩ := s.kill_is cause
    have hn : cause ≠ 5 := by omega
    have latch (id : HalfId) : ((s.setLatches cause).half id).fg.latch = true := State.setLatches_latch (.inl hn)
    refine ⟨(congrArg (fun x : Half => x.fg.latch) ha).trans (latch .A), (congrArg (fun x : Half => x.fg.latch) hb).trans (latch .B),
      fun h2 => ?_, fun h1 => ?_⟩
    · rw [hf, FgHub.killed, if_pos h2, if_neg hn]
      exact ⟨rfl, rfl⟩
    · rw [hf, FgHub.killed, if_neg (by omega)]
      by_cases h0 : cause = 0
      · rw [if_neg (by omega), if_pos h0]
        simp
      · rw [if_pos (by omega), if_neg h0]
  · refine ⟨rfl, ?_⟩
    cases w
    · exact ⟨rfl, by simp [FgHub.input]⟩
    · exact ⟨rfl, by simp [FgHub.input]⟩

/-- Settles O7: part by part of the reset values, the pins by the latch. -/
theorem resetLeavesEveryOutputSafe : Obligations.ResetLeavesEveryOutputSafe := by
  unfold Obligations.ResetLeavesEveryOutputSafe
  simp only [State.reset_half]
  refine ⟨fun _ => ⟨rfl, rfl, rfl⟩, Half.reset_pinLevel, fun id p => ?_, fun id e => ?_, fun id k => slotsReset_st k, rfl, rfl, rfl, rfl⟩
  · exact congrArg Pair.phase (Vector.get_replicate ..)
  · exact congrArg Sle.st (Vector.get_replicate ..)

end

section
/-! PROOFS. The floodgate's inputs that go high or disagree, and the flags of an output pin (R203 to R207, R222, R225, R229, R232). -/

namespace Sys2Proof.Machine

open Sys2Proof

/-! ### The inputs (R225, R229) -/

@[simp] theorem FgHub.input_level (w : FgIn) (v : Bool) (now : Nat) (f : FgHub) : (f.input w v now).level w = v := by
  cases w <;> rfl

/-- FG_SETTLE starts at the rise that makes both inputs high. -/
theorem FgHub.input_hiAt_of_rise {f : FgHub} {now : Nat} (ha : f.fga = true) (hn : f.hiAt = none) :
    (f.input .fgb true now).hiAt = some now := by
  simp [FgHub.input, ha, hn]

theorem execFgDisagree_of_differ {id : HalfId} {s : State} {t : Nat} (hl : s.live id = true) (hd : s.hub.fg.diffAt = some t) :
    execFgDisagree id s = .next ((s.advanceTo (t + 100 * etPerMs + 1)).onHalf id (fun h => h.raise 0x29 (locInp h.id 7))) := by
  unfold execFgDisagree
  rw [hd]
  exact congrArg Host.Outcome.next (State.act_of_live _ ((State.advanceTo_live _ s id).trans hl))

/-! ### The flags of a pin (R206, R207, R222) -/

section

variable {m : Fin 48} {h : Half}

theorem Half.pinFlag_shortHi (hd : h.driverOff m = false) (hc : (h.chans.get m).shortHi = false) (hl : h.pinLevel m = false) :
    h.pinFlag m .shortHi = (h.chanMap m (fun c => { c with shortHi := true, limit := true })).raise 0x21 (locChan h.id m.1) :=
  if_neg (by simp [hd, hc, hl])

theorem Half.pinFlag_shortLo (hd : h.driverOff m = false) (hc : (h.chans.get m).shortLo = false) (hl : h.pinLevel m = true) :
    h.pinFlag m .shortLo = (h.chanMap m (fun c => { c with shortLo := true, limit := true })).raise 0x21 (locChan h.id m.1) :=
  if_neg (by simp [hd, hc, hl])

/-- A flag that is set, or a driver that is off, tells no short to a high. -/
theorem Half.pinFlag_shortHi_same (hk : (h.chans.get m).shortHi = true ∨ h.driverOff m = true) : h.pinFlag m .shortHi = h :=
  if_pos (by rcases hk with hk | hk <;> simp [hk])

/-- Nor to a low. -/
theorem Half.pinFlag_shortLo_same (hk : (h.chans.get m).shortLo = true ∨ h.driverOff m = true) : h.pinFlag m .shortLo = h :=
  if_pos (by rcases hk with hk | hk <;> simp [hk])

/-- LIMIT follows the driver, and is clear where that is off. -/
theorem Half.pinFlag_limit (on : Bool) : h.pinFlag m (.limit on) = h.chanMap m (fun c => { c with limit := on && !h.driverOff m }) := rfl

/-- A mismatch reads the opposite back (log 65), and tells it where its flag is clear. -/
theorem Half.pinFlag_mismatch : h.pinFlag m .mismatch =
    let t := h.chanMap m (fun c => { c with mismatch := true, rb := !h.pinLevel m })
    if (h.chans.get m).mismatch then t else t.raise 0x22 (locChan h.id m.1) := rfl

end

end Sys2Proof.Machine

open Sys2Proof Sys2Proof.Machine

/-- Settles O35: the inputs by what a rise leaves of the floodgate, each flag of a pin by its own case. -/
theorem floodgateInputsAndPins : Obligations.FloodgateInputsAndPins := by
  unfold Obligations.FloodgateInputsAndPins
  intro w dt id m s
  refine ⟨⟨rfl, FgHub.input_level .., fun ha hw hn => ?_⟩, fun hl => ?_⟩
  · subst hw
    exact FgHub.input_hiAt_of_rise ha hn
  · intro h c short
    refine ⟨fun t => execFgDisagree_of_differ hl, fun f => congrArg Host.Outcome.next (State.act_of_live _ hl),
      fun hd => ⟨Half.pinFlag_shortHi hd, Half.pinFlag_shortLo hd, fun on => ?_⟩,
      fun hd => ⟨Half.pinFlag_shortHi_same (.inr hd), Half.pinFlag_shortLo_same (.inr hd), fun on => ?_⟩,
      fun hc => Half.pinFlag_shortHi_same (.inl hc), fun hc => Half.pinFlag_shortLo_same (.inl hc),
      fun hc => Half.pinFlag_mismatch.trans (if_neg (by rw [hc]; exact Bool.false_ne_true)),
      fun hc => Half.pinFlag_mismatch.trans (if_pos hc), fun v => rfl⟩
    · rw [Half.pinFlag_limit, hd, Bool.not_false, Bool.and_true]
      rfl
    · rw [Half.pinFlag_limit, hd, Bool.not_true, Bool.and_false]
      rfl

end

section
/-! PROOFS. The Weir's level sources and its doorbell (R208, R406 to R412). -/

namespace Sys2Proof.Machine

open Sys2Proof

/-! ### A level source and its state -/

/-- The state of a level source names it. -/
@[simp] theorem WeirSt.level_src (w : WeirSt) (src : Nat) : (w.level src).src = src := by
  unfold WeirSt.level
  cases e : w.levels.find? (fun l => l.src = src) with
  | none => rfl
  | some l => simpa using List.find?_some e

/-- The state of the source just set. -/
theorem WeirSt.level_setLevel {l : LvlSrc} {src : Nat} (h : l.src = src) (w : WeirSt) : (WeirSt.setLevel l w).level src = l := by
  unfold WeirSt.level WeirSt.setLevel
  simp [h]

/-- The module whose level source's line has been noted high. -/
def State.noteUp (src : Nat) (s : State) : State := s.weirMap (WeirSt.setLevel { s.hub.weir.level src with live := true })

theorem State.noteUp_level (src : Nat) (s : State) :
    (s.noteUp src).hub.weir.level src = { s.hub.weir.level src with live := true } :=
  WeirSt.level_setLevel (l := { s.hub.weir.level src with live := true }) (WeirSt.level_src ..) _

@[simp] theorem State.noteUp_srcOf (src : Nat) (s : State) : (s.noteUp src).hub.weir.srcOf src = s.hub.weir.srcOf src := rfl

theorem State.levelUp_of_level {src : Nat} {s : State} (h : s.isLevel src = true) : s.levelUp src = (s.noteUp src).levelTry src :=
  if_neg (by simp [h])

/-- The line of a level source asserts: a record where the source is ARMED and enabled and its queues have room, a loss where one has not,
and else a note alone. -/
theorem State.levelUp_eq {src : Nat} {s : State} (h : s.isLevel src = true) : s.levelUp src =
    if (s.hub.weir.level src).st ≠ 0 ∨ (s.hub.weir.srcOf src).1 = false then s.noteUp src
    else if (s.noteUp src).hasRoom src = true then ((s.noteUp src).levelRecord src).weirMap
      (WeirSt.setLevel { s.hub.weir.level src with live := true, st := 1, asked := false })
    else (s.noteUp src).levelLost src := by
  rw [State.levelUp_of_level h]
  unfold State.levelTry
  simp [State.noteUp_level]

/-! ### A queue without room (R410, R412) -/

/-- The hub queue of a half's source without room counts the loss. -/
theorem State.levelLost_of_hub {src : Nat} {s : State} {id : HalfId} {o : Nat} {q : Fin 4} (hs : srcHalf src = some (id, o))
    (hq : (s.hub.weir.srcOf src).2 = q.1) (hr : s.hubRoom src = false) (ho : s.ownRoom src = true) :
    s.levelLost src = { s with hub := s.hub.overflow s.ts q } := by
  unfold State.levelLost
  rw [hs]
  dsimp only
  rw [hr, hq, fin?_val, if_pos ho]
  rfl

/-- So does the event queue of its half. -/
theorem State.levelLost_of_half {src : Nat} {s : State} {id : HalfId} {o : Nat} (hs : srcHalf src = some (id, o))
    (hr : s.hubRoom src = true) (ho : s.ownRoom src = false) : s.levelLost src = s.onHalf id (fun h => h.evOverflow src) := by
  unfold State.levelLost
  rw [hs]
  dsimp only
  rw [hr, ho]
  rfl

/-! ### The handler (R411) -/

theorem State.transient_of_hub {src : Nat} {s : State} {id : HalfId} {o : Nat} (hs : srcHalf src = some (id, o))
    (h : s.reach id = true ∨ s.live id = false) : s.transient src = s.raiseHub 0x69 locHub := by
  unfold State.transient
  rw [hs]
  exact if_pos (by simpa using h)

theorem State.transient_of_half {src : Nat} {s : State} {id : HalfId} {o : Nat} (hs : srcHalf src = some (id, o))
    (hr : s.reach id = false) (hl : s.live id = true) : s.transient src = s.onHalf id (fun h => h.raise 0x69 (locInp h.id 7)) := by
  unfold State.transient
  rw [hs]
  exact if_neg (by simp [hr, hl])

/-- A query of a RECORDED source not asked before notes whether its line still stands. -/
theorem execWeirStatusQuery_of_recorded {src : Fin 4096} {s : State} (hc : s.clocked = true) (h1 : (s.hub.weir.level src.1).st = 1)
    (ha : (s.hub.weir.level src.1).asked = false) : execWeirStatusQuery src s =
      .next (if (s.hub.weir.level src.1).live then s.weirMap (WeirSt.setLevel { s.hub.weir.level src.1 with asked := true })
        else (s.weirMap (WeirSt.setLevel { s.hub.weir.level src.1 with
          asked := true, trans := (s.hub.weir.level src.1).trans + 1 })).transient src.1) := by
  unfold execWeirStatusQuery
  dsimp only
  rw [if_neg (by simp [hc, h1, ha])]
  cases (s.hub.weir.level src.1).live <;> rfl

/-! ### The doorbell (R406, R412) -/

/-- A write of a hub source that is enabled is an append to its queue. -/
theorem Hub.weirWrite_of_enabled {u : Hub} {src : Nat} {q : Fin 4} (now : Word) (kind : Nat) (level halfQ : Bool) (frame ts payload : Word)
    (h : u.weir.srcOf src = (true, q.1)) : u.weirWrite now src kind level halfQ frame ts payload =
      u.append now q ⟨src, q.1, kind, level, false, halfQ, frame, ts, payload, false⟩ := by
  unfold Hub.weirWrite
  rw [h]
  dsimp only
  rw [fin?_val]
  rfl

theorem execWeirDoorbell_of_hub {src : Fin 4096} {s : State} (payload : Word) (hs : srcHalf src.1 = none) (hc : s.clocked = true) :
    execWeirDoorbell src payload s = .next (s.weir src.1 0 false payload) := by
  unfold execWeirDoorbell
  rw [hs]
  exact congrArg Host.Outcome.next (if_pos hc)

theorem execWeirDoorbell_of_half {src : Fin 4096} {s : State} {id : HalfId} {o : Nat} (payload : Word) (hs : srcHalf src.1 = some (id, o))
    (hl : s.live id = true) :
    execWeirDoorbell src payload s = .next (s.onHalf id (fun h => h.emit (.weir src.1 0 false h.frame payload))) := by
  unfold execWeirDoorbell
  rw [hs]
  exact congrArg Host.Outcome.next (State.act_of_live _ hl)

end Sys2Proof.Machine

open Sys2Proof Sys2Proof.Machine

/-- Settles O36: an assertion by the one equation of a level source, a loss by the queue without room, the doorbell by whose source writes. -/
theorem weirSourcesAndTheDoorbell : Obligations.WeirSourcesAndTheDoorbell := by
  unfold Obligations.WeirSourcesAndTheDoorbell
  refine ⟨fun src s hc hlev => ?_, fun src payload s => ⟨execWeirDoorbell_of_hub payload,
    fun _ q hq => Hub.weirWrite_of_enabled _ _ _ _ _ _ _ hq, fun id o hs hl => execWeirDoorbell_of_half payload hs hl⟩⟩
  intro l up
  have assert (t : State) (e : s.levelUp src.1 = t) : Machine.exec (.levelAssert src) s = .next t :=
    congrArg Host.Outcome.next ((if_pos hc).trans e)
  have row := State.levelUp_eq hlev
  refine ⟨fun h0 => assert _ (row.trans (if_pos (.inl h0))), fun h0 he hr => assert _ ?_, fun h0 he => assert _ (row.trans (if_pos (.inr he))),
    fun h0 he hr => assert _ ?_, fun id o hs q hq => ⟨State.levelLost_of_hub hs hq, State.levelLost_of_half hs⟩, ?_,
    fun h1 ha => ⟨fun hv => ?_, fun hv => ?_⟩, fun id o hs => ⟨State.transient_of_hub hs, State.transient_of_half hs⟩, fun h1 => ?_,
    fun id b hl hb => ?_⟩
  · rw [row, if_neg (not_or.mpr ⟨not_not.mpr h0, by simp [he]⟩)]
    exact if_pos hr
  · rw [row, if_neg (not_or.mpr ⟨not_not.mpr h0, by simp [he]⟩)]
    exact if_neg (Bool.eq_false_iff.mp hr)
  · exact congrArg Host.Outcome.next (if_pos (by simp [hc, hlev]))
  · exact (execWeirStatusQuery_of_recorded hc h1 ha).trans (congrArg _ (if_pos hv))
  · exact (execWeirStatusQuery_of_recorded hc h1 ha).trans (congrArg _ (if_neg (Bool.eq_false_iff.mp hv)))
  · exact congrArg Host.Outcome.next (if_pos (Bool.and_eq_true_iff.mpr ⟨hc, decide_eq_true h1⟩))
  · rw [assert _ rfl]
    exact congrArg Host.Outcome.next ((if_pos hl).trans (by rw [hb]))

end

section
/-! PROOFS. Mailbox 0: its requests wait for S0, and what each does there (R226, R378, R418 to R421). -/

namespace Sys2Proof.Machine

open Sys2Proof

/-- STOP, its reserved bytes 0: the source asserts, the stop stands, it counts a trip, the log keeps REASON, and it answers the count. -/
theorem State.serve0_of_stop {a : Ask} {f : Word} {s : State} (h1 : a.cmd = 1) (hd : a.dirty 17 3 = false) : s.serve0 (a, f) =
    let t := (s.kill 5).fgMap (fun x => { x with stop := true, trips := x.trips + 1 })
    (t.log 0x30 0 (a.b 16) f (leW f)).done a 0 t.tripBytes := by
  unfold State.serve0
  dsimp only
  rw [h1]
  exact State.checked_of_none _ (by simp [hd])

/-- A STOP holds the latch of every half the hub reaches (R474). -/
theorem State.serve0_of_stop_latch {a : Ask} {f : Word} {s : State} {id : HalfId} (h1 : a.cmd = 1) (hd : a.dirty 17 3 = false)
    (hr : s.reach id = true) : ((s.serve0 (a, f)).half id).fg.latch = true := by
  rw [State.serve0_of_stop h1 hd]
  dsimp only
  rw [(LinkOnly.done ..).half, State.log, State.flashMap_half, State.fgMap_half, State.kill_half]
  exact State.setLatches_latch (.inr hr)

/-- FLOODGATE_RELEASE, its reserved bytes 0: refused in TRIPPED with the failing item, or TRIP_COUNT where none fails (log 109); in CHECKED
it opens the floodgate with the right trip count, and is refused with another. -/
theorem State.serve0_of_release {a : Ask} {f : Word} {s : State} (h2 : a.cmd = 2) (hd : a.dirty 18 2 = false) (hs : s.hub.fg.st ≤ 1) :
    s.serve0 (a, f) =
      if s.hub.fg.st = 0 then s.done a 0x130 (le 1 (if s.hub.fg.fail = 0 then 6 else s.hub.fg.fail))
      else if a.h 16 = s.hub.fg.trips.toNat then s.fgMap (fun x => { x with st := 2, stop := false, rel := some (bothHalves, [a.seq]) })
      else s.done a 0x130 (le 1 6) := by
  unfold State.serve0
  dsimp only
  rw [h2]
  refine (State.checked_of_none _ (by simp [hd])).trans ?_
  dsimp only
  by_cases h0 : s.hub.fg.st = 0
  · rw [if_pos h0, if_pos h0]
  · rw [if_neg h0, if_neg h0, if_pos (show s.hub.fg.st = 1 by omega)]
    by_cases ht : a.h 16 = s.hub.fg.trips.toNat <;> simp [ht]

/-- SET_DIRECTION of a direction that both wheels allow: work for both stewards' next tick. -/
theorem State.serve0_of_direction {a : Ask} {f : Word} {s : State} (h3 : a.cmd = 3) (hr : s.reaches bothHalves = true) (hb : a.b 16 ≤ 1)
    (hd : a.dirty 17 3 = false) (hw : a.b 16 = 1 → trkCfg0Reversible s.a.trk.cfg0 = true ∧ trkCfg0Reversible s.b.trk.cfg0 = true) :
    s.serve0 (a, f) = s.hubMap (fun u => { u with jobs := u.jobs ++
      [⟨0, a.seq, le 1 (a.b 16), [.dir .A (a.b 16 = 1), .dir .B (a.b 16 = 1)]⟩] }) := by
  unfold State.serve0
  dsimp only
  rw [h3]
  refine State.checked_of_none _ ?_
  have hr2 : s.reaches [.A, .B] = true := hr
  simpa [hr2, hd, Nat.not_lt.mpr hb, bothHalves] using hw

/-- FG_STATUS with both halves reached: FG_STAT of each, and FG_CFG. -/
theorem State.serve0_of_status {a : Ask} {f : Word} {s : State} (h4 : a.cmd = 4) (hr : s.reaches bothHalves = true) :
    s.serve0 (a, f) = s.done a 0 (leW (s.fgStat .A) ++ leW (s.fgStat .B) ++ leW s.hub.fg.cfg) := by
  unfold State.serve0
  dsimp only
  rw [h4]
  exact State.checked_of_none _ (by simp [hr])

end Sys2Proof.Machine

open Sys2Proof Sys2Proof.Machine

/-- Settles O47: the four rows wait, and S0 serves each by its command. -/
theorem floodgateMailbox : Obligations.FloodgateMailbox := by
  unfold Obligations.FloodgateMailbox
  intro m s a f wait
  refine ⟨runs_of rfl fun _ _ _ => rfl, runs_of rfl fun _ _ _ => rfl, runs_of rfl fun _ _ _ => rfl, runs_of rfl fun _ _ _ => rfl,
    fun h1 hd => ⟨State.serve0_of_stop h1 hd, fun id => State.serve0_of_stop_latch h1 hd⟩,
    fun h2 hd => ⟨fun h0 => ?_, fun hs ht => ?_, fun hs ht => ?_⟩, State.serve0_of_direction, State.serve0_of_status⟩
  · rw [State.serve0_of_release h2 hd (by omega), if_pos h0]
  · rw [State.serve0_of_release h2 hd (by omega), if_neg (by omega), if_pos ht]
  · rw [State.serve0_of_release h2 hd (by omega), if_neg (by omega), if_neg ht]

end

section
/-! PROOFS. Mailbox 3, acquisition, closed loop, sluice and pins: what each request does where none of its conditions holds (R201, R289,
R334, R359 to R363, R437 to R440). -/

namespace Sys2Proof.Machine

open Sys2Proof Sys2Proof.Safety

/-! ### ACQ_SET (R272, R289, R437) -/

/-- The conditions of every ACQ_SET, with the ranges of its item. -/
def State.acqConds (a : Ask) (bad : Bool) (u : State) : List (Bool × Nat) :=
  [u.levelCheck 4, (u.noHalf (a.b 16), 0x103), (1 < a.b 16 || 3 < a.b 17 || a.dirty 19 1 || bad, 0x104)]

theorem State.acqSet_of_none {a : Ask} {u : State} {bad : Bool} {own : List (Bool × Nat)} (ok : HalfId → State → State)
    (hc : (u.acqConds a bad).find? (·.1) = none) (ho : own.find? (·.1) = none) : u.acqSet a bad own ok = ok (halfOf (a.b 16)) u := by
  refine State.checked_of_none _ (List.find?_append.trans ?_)
  rw [ho, Option.or_none]
  exact hc

/-- MASK, with none waiting, of a sequencer that no line targets where it empties it: it waits for the sequencer to be idle. -/
theorem State.serveAcqMask_of_none {a : Ask} {u : State} {q : Fin 9} (hq : a.b 18 = q.1)
    (hc : (u.acqConds a ((if q.1 = 0 then 4095 else if q.1 ≤ 6 then 15 else 63) < a.w 20)).find? (·.1) = none)
    (ht : a.w 20 = 0 → (u.half (halfOf (a.b 16))).targeted q = false) (hm : ((u.half (halfOf (a.b 16))).acq.seqs.get q).mask = none) :
    u.serveAcqMask a =
      u.onHalf (halfOf (a.b 16)) (fun h => (h.seqMap q (fun x => { x with mask := some (a.w 20, a.seq, a.silent) })).maskApply q) := by
  unfold State.serveAcqMask
  rw [hq, fin?_val]
  dsimp only
  rw [State.acqSet_of_none _ hc]
  · rw [hm]
  · simpa using ht

theorem State.serveAcqDelay_of_none {a : Ask} {u : State} {t : Fin 32} (ht : a.b 18 = t.1)
    (hc : (u.acqConds a (65535 < a.w 20)).find? (·.1) = none) :
    u.serveAcqDelay a = (u.putReg (.trgCfg1 (halfOf (a.b 16)) t) (put (a.w 20) 16 16)).done a 0 [] := by
  unfold State.serveAcqDelay
  rw [ht, fin?_val]
  exact State.acqSet_of_none _ hc rfl

theorem State.serveAcqStep_of_none {a : Ask} {u : State}
    (hc : (u.acqConds a (4 < a.w 20 || !(u.half (halfOf (a.b 16))).stepFits (a.w 20))).find? (·.1) = none) :
    u.serveAcqStep a = (u.halfMap (halfOf (a.b 16)) (Half.acqMap (fun x => { x with
      aclkNew := some ((x.aclkNew.getD x.aclk &&& 0x8FFFFFFF#32) ||| put (a.w 20) 3 28) }))).done a 0 [] := by
  unfold State.serveAcqStep
  exact State.acqSet_of_none _ hc rfl

theorem State.serveAcqPeriod_of_none {a : Ask} {u : State} {n : Fin 4} (hn : a.b 18 = n.1)
    (hc : (u.acqConds a (a.w 20 < 400 || 16777215 < a.w 20 ||
      (acqTmrFsync ((u.half (halfOf (a.b 16))).acq.tmr.get n) && 8000 % a.w 20 ≠ 0))).find? (·.1) = none) :
    u.serveAcqPeriod a = (u.halfMap (halfOf (a.b 16)) (Half.acqMap (fun x => { x with
      tmrNew := put1 x.tmrNew n (some ((x.tmr.get n &&& 0xC0000000#32) ||| put (a.w 20) 24 0)) }))).done a 0 [] := by
  unfold State.serveAcqPeriod
  rw [hn, fin?_val]
  exact State.acqSet_of_none _ hc rfl

/-! ### CL_SET (R330, R334) -/

/-- The loop of a cylinder set and published, a correction newly at its limit told. -/
def State.clGo (k : Fin 24) (w0 w1 : Word) (u : State) : State :=
  let t := (u.hubMap (fun x => { x with cl := upd x.cl k (ClSt.set w0 w1) })).publish k
  if (t.hub.cl.get k).limit && !(u.hub.cl.get k).limit then t.raiseHub 0x74 locHub else t

theorem State.serveClSet_of_valid {a : Ask} {u : State} {k : Fin 24} (hk : a.b 16 = k.1 + 1) (hl : u.basic 5 = false)
    (hd : a.dirty 17 3 = false) (hw : clWordsBad k (a.reg 20) (a.reg 24) = false)
    (hr : ∀ id : HalfId, (u.half id).clRefused (u.a.ana.lanes.toList ++ u.b.ana.lanes.toList) (k.1 + 1) (a.reg 24) = false) :
    let t := u.clGo k (a.reg 20) (a.reg 24)
    u.serveClSet a = if t.combineBad.isEmpty then t.done a 0 [] else u.done a 0x101 (comboPayload t.combineBad) := by
  intro t
  have hany : bothHalves.any (fun id => (u.half id).clRefused (u.a.ana.lanes.toList ++ u.b.ana.lanes.toList) (k.1 + 1) (a.reg 24)) = false :=
    List.any_eq_false.mpr (fun id _ => by simp [hr id])
  unfold State.serveClSet
  dsimp only
  rw [hk, Nat.add_sub_cancel, fin?_val]
  dsimp only
  rw [State.checked_of_none]
  · rfl
  · simp [State.levelCheck, hl, hd, hw, hany]

/-! ### Sluice (R359 to R363, R438, R439) -/

/-- PROG_LOAD of a program that is not refused, whose pins can be claimed: loaded into the shadow bank, unless COMBINE refuses it. -/
theorem State.serveProgLoad_of_valid {a : Ask} {u : State} {g : Fin 2} (hg : a.b 17 = g.1) (hl : u.basic 6 = false)
    (hn : u.noHalf (a.b 16) = false) (hb : a.loadBad = false)
    (hr : (u.half (halfOf (a.b 16))).loadRefused g (a.b 18 % 16) a.program (a.engCfgs g) = false)
    (hc : (u.half (halfOf (a.b 16))).claimable (loadPins (a.engCfgs g)) = true)
    (hw : u.claimWaits (halfOf (a.b 16)) (loadPins (a.engCfgs g)) = false) :
    let t := u.onHalf (halfOf (a.b 16)) (fun h => (h.claimAll (loadPins (a.engCfgs g))).loadShadow g a.program ⟨a.b 18 % 16, a.engCfgs g,
      128 ≤ a.b 18, if 128 ≤ a.b 18 then some (u.now + a.h 20 * etPerMs) else none, (a.seq, a.silent)⟩)
    u.serveProgLoad a = if t.combineBad.isEmpty then t else u.done a 0x101 (comboPayload t.combineBad) := by
  intro t
  unfold State.serveProgLoad
  dsimp only
  rw [hg, fin?_val]
  dsimp only
  rw [State.checked_of_none]
  · rw [if_neg (by simp [hc, hw])]
    rfl
  · simp [State.levelCheck, hl, hn, hb, hr]

/-- A half that a HALF byte of 0 or 1 names is not missing where the hub reaches it. -/
theorem State.noHalf_of_reach {v : Nat} {u : State} (hr : u.reach (halfOf v) = true) : u.noHalf v = false := by
  simp [State.noHalf, hr]

/-- SLUICE_CTL, its reserved bits 0, acts through SLG_CTL, and waits for the tick with FRAME_ALIGN. -/
theorem State.serveSluiceCtl_of_valid {a : Ask} {u : State} {g : Fin 2} (hg : a.b 17 = g.1) (hl : u.basic 6 = false)
    (hr : u.reach (halfOf (a.b 16)) = true) (h16 : a.b 16 ≤ 1) (h19 : a.b 19 / 2 % 8 = 0) :
    let align := a.b 19 % 2 = 1
    let t := u.onHalf (halfOf (a.b 16)) (fun h =>
      h.slgCtl g (put (a.b 18) 8 24 ||| put (a.b 19 / 16) 4 20 ||| putB align 19) (a.seq, true))
    u.serveSluiceCtl a = if align then t else t.done a 0 [] := by
  intro align t
  unfold State.serveSluiceCtl
  dsimp only
  rw [hg, fin?_val]
  dsimp only
  rw [State.checked_of_none]
  simp [State.levelCheck, hl, State.noHalf_of_reach hr, h19, Nat.not_lt.mpr h16]

/-- A SLUICE_CTL with a START_MASK is the row of the one that starts. -/
theorem execSluiceStart_of_starts {m : Msg} (s : State) (h : (ctlMasks m).1 ≠ 0) :
    execSluiceStart m s = .next (s.request 3 0x51 (fun _ => 24) State.serveSluiceCtl m) := by
  unfold execSluiceStart
  generalize ctlMasks m = c at h
  exact if_neg (by simp [h])

/-- SLUICE_XFER of at most 64 words each way. -/
theorem State.serveSluiceXfer_of_valid {a : Ask} {u : State} {e : Fin 8} (he : a.b 17 = e.1) (hl : u.basic 6 = false)
    (hr : u.reach (halfOf (a.b 16)) = true) (h16 : a.b 16 ≤ 1) (h18 : a.b 18 ≤ 64) (h19 : a.b 19 ≤ 64) :
    let n := min (a.b 18) (64 - ((u.half (halfOf (a.b 16))).eng e).txb.length)
    let got := ((u.half (halfOf (a.b 16))).eng e).rxb.take (a.b 19)
    u.serveSluiceXfer a = (u.halfMap (halfOf (a.b 16)) (Half.sleMap e (fun x => { x with
      txb := x.txb ++ (List.range n).map (fun i => a.reg (20 + 4 * i)), rxb := x.rxb.drop got.length }))).done a 0
        (le 1 n ++ le 1 got.length ++ zeros 2 ++ got.flatMap leW) := by
  intro n got
  unfold State.serveSluiceXfer
  dsimp only
  rw [he, fin?_val]
  dsimp only
  rw [State.checked_of_none]
  simp [State.levelCheck, hl, State.noHalf_of_reach hr, Nat.not_lt.mpr h16, Nat.not_lt.mpr h18, Nat.not_lt.mpr h19]

/-! ### Pins (R440) -/

/-- The work of a GPIO_SET for the tick: a sluice pin's level and enable, or an EV pin's level. -/
def gpioWork (id : HalfId) (i : Nat) (lvl oe : Bool) : List Job :=
  match fin? 16 i, fin? 48 (i - 16) with
  | some n, _ => [.gpioSl id n lvl oe]
  | none, some m => [.gpioEv id m lvl]
  | none, none => []

theorem gpioWork_of_sluice {id : HalfId} {i : Nat} {lvl oe : Bool} (n : Fin 16) (hi : i = n.1) : gpioWork id i lvl oe = [.gpioSl id n lvl oe] := by
  unfold gpioWork
  rw [hi, fin?_val]

theorem gpioWork_of_ev {id : HalfId} {i : Nat} {lvl oe : Bool} (m : Fin 48) (hi : i = 16 + m.1) : gpioWork id i lvl oe = [.gpioEv id m lvl] := by
  have hn : fin? 16 (16 + m.1) = none := dif_neg (by omega)
  unfold gpioWork
  rw [hi, hn, Nat.add_sub_cancel_left, fin?_val]

/-- GPIO_SET of a pin that rank 5 holds: a level, and an enable for a sluice pin alone, as work for the tick. -/
theorem State.serveGpioSet_of_valid {a : Ask} {u : State} (hp : pinBad (a.b 16) (a.b 17) = false) (h18 : a.b 18 ≤ 1) (h19 : a.b 19 ≤ 1)
    (hk : a.b 16 = 0 → a.b 19 = 0) (hr : u.reach (pinOf (a.b 16) (a.b 17)).1 = true)
    (hg : (u.half (pinOf (a.b 16) (a.b 17)).1).isGpio (pinOf (a.b 16) (a.b 17)).2 = true) :
    u.serveGpioSet a = u.hubMap (fun x => { x with jobs := x.jobs ++ [⟨3, a.seq, [],
      gpioWork (pinOf (a.b 16) (a.b 17)).1 (pinOf (a.b 16) (a.b 17)).2 (a.b 18 = 1) (a.b 19 = 1)⟩] }) := by
  unfold State.serveGpioSet
  dsimp only
  rw [State.checked_of_none]
  · rfl
  · simpa [hp, hr, hg, Nat.not_lt.mpr h18, Nat.not_lt.mpr h19] using hk

end Sys2Proof.Machine

open Sys2Proof Sys2Proof.Machine

/-- Settles O52: PIN_CLAIM and PIN_RELEASE by their conditions alone, each other request by its service where none of them holds. -/
theorem expertAcquisitionSluiceAndPins : Obligations.ExpertAcquisitionSluiceAndPins := by
  unfold Obligations.ExpertAcquisitionSluiceAndPins
  intro m s acq a u id
  refine ⟨fun hh => ⟨fun q hi hq hc ht hm => ?_, fun t hi ht hc => ?_, fun hi hc => ?_, fun n hi hn hc => ?_⟩, ?_, ?_, ?_, ?_,
    runs_of rfl fun _ _ _ => rfl, runs_of rfl fun _ _ _ => rfl, ?_⟩
  · exact exec_of_heard (if_neg (not_not.mpr hi)) hh (State.serveAcqMask_of_none hq hc ht hm)
  · exact exec_of_heard (if_neg (not_not.mpr hi)) hh (State.serveAcqDelay_of_none ht hc)
  · exact exec_of_heard (if_neg (not_not.mpr hi)) hh (State.serveAcqStep_of_none hc)
  · exact exec_of_heard (if_neg (not_not.mpr hi)) hh (State.serveAcqPeriod_of_none hn hc)
  · intro k a u hh hk hl hd hw hr
    exact exec_of_heard rfl hh (State.serveClSet_of_valid hk hl hd hw hr)
  · intro g a u id hh hg hl hn hb hr hc hw
    exact exec_of_heard rfl hh (State.serveProgLoad_of_valid hg hl hn hb hr hc hw)
  · intro g a u st ha cl align w t r hh hg hl hr h16 h19
    have serve : State.serveSluiceCtl a u = if align then t else t.done a 0 [] := State.serveSluiceCtl_of_valid hg hl hr h16 h19
    exact ⟨fun hst => exec_of_heard (execSluiceStart_of_starts s hst) hh serve, fun hha => exec_of_heard (if_neg hha) hh serve,
      fun hcl => exec_of_heard (if_neg hcl) hh serve⟩
  · intro e a u id n got hh he hl hr h16 h18 h19
    exact exec_of_heard rfl hh (State.serveSluiceXfer_of_valid he hl hr h16 h18 h19)
  · intro a u p job hh hp h18 h19 hk hr hg
    have serve := State.serveGpioSet_of_valid hp h18 h19 hk hr hg
    exact ⟨fun n hn => exec_of_heard rfl hh (serve.trans (by rw [gpioWork_of_sluice n hn])),
      fun n hn => exec_of_heard rfl hh (serve.trans (by rw [gpioWork_of_ev n hn]))⟩

end

section
/-! PROOFS. The power budget: the shed levels, the scrub they defer, POWER_OVER, and the sensor supplies (R263, R264, R265, R489, R521). -/

namespace Sys2Proof.Machine

open Sys2Proof

/-! ### The shed levels (R263, R264) -/

/-- V_IN as read, the shed level that follows from it standing in the hub and the halves. -/
def State.shedAt (dV k : Nat) (s : State) : State := (s.pwrMap (fun q => { q with vIn := dV })).setShed k

/-- V_IN below the next level's threshold: level 2 defers the scrub from now on, level 4 switches its supplies off, 1 and 3 only stand. -/
theorem State.shedEnter_of_below {dV k : Nat} {s : State} (hs : s.hubOn = true) (hk : s.hub.pwr.shed + 1 = k) (h4 : k ≤ 4)
    (hd : dV < shedThr k) :
    let t := (s.shedAt dV k).raiseHub 0x70 locHub
    s.shedEnter dV = if k = 2 then t.pwrMap (fun q => { q with scrub := some t.now }) else if k = 4 then t.shed4 else t := by
  intro t
  have hn : (!s.hubOn || decide (4 < k) || decide (shedThr k ≤ dV)) ≠ true := by simp [hs, h4, hd]
  unfold State.shedEnter
  dsimp only
  rw [hk, if_neg hn]
  split
  · rfl
  · rfl
  · next h2 h4 => rw [if_neg h2, if_neg h4]; rfl

/-- V_IN 0.5 V above the level's threshold: leaving level 2 ends the deferral, leaving level 4 queues its supplies, 3 and 1 only end. -/
theorem State.shedLeave_of_above {dV k : Nat} {s : State} (hs : s.hubOn = true) (hk : s.hub.pwr.shed = k + 1)
    (hd : shedThr (k + 1) + 5 ≤ dV) :
    let t := s.shedAt dV k
    s.shedLeave dV = if k = 1 then t.pwrMap (fun q => { q with scrub := none })
      else if k = 3 then t.pwrMap (fun q => { q with
        queue := (idxs 24).filter (fun i => q.off4.get i || q.queue.contains i), stepAt := t.now })
      else t := by
  intro t
  have hn : (!s.hubOn || decide (k + 1 = 0) || decide (dV < shedThr (k + 1) + 5)) ≠ true := by simp [hs, hd]
  unfold State.shedLeave
  dsimp only
  rw [hk, if_neg hn, Nat.add_sub_cancel]
  split
  · next h1 => rw [if_pos (Nat.succ.inj h1)]; rfl
  · next h3 => rw [if_neg (by omega), if_pos (Nat.succ.inj h3)]; rfl
  · next h1 h3 => rw [if_neg (mt (congrArg (· + 1)) h1), if_neg (mt (congrArg (· + 1)) h3)]; rfl

/-- SCRUB_DEFER seconds after the scrub was deferred it resumes. -/
theorem execScrubDeferExpire_of_scrub {s : State} {t : Nat} (hs : s.hubOn = true) (ht : s.hub.pwr.scrub = some t) : execScrubDeferExpire s =
    .next ((s.advanceTo (t + pwrCfgScrubDefer s.hub.pwr.cfg * etPerSec)).pwrMap (fun q => { q with scrub := none })) := by
  unfold execScrubDeferExpire
  rw [ht]
  dsimp only
  rw [hs]
  rfl

/-! ### P_IN (R265) -/

/-- 100 ms above 60 W raise POWER_OVER, once for the excursion. -/
theorem execPowerOver_of_overAt {s : State} {t : Nat} (hs : s.hubOn = true) (ht : s.hub.pwr.overAt = some t) : execPowerOver s =
    .next (if s.hub.pwr.raised then s
      else ((s.advanceTo (t + 100 * etPerMs)).pwrMap (fun q => { q with raised := true })).raiseHub 0x71 locHub) := by
  unfold execPowerOver
  rw [ht]
  dsimp only
  rw [hs]
  cases s.hub.pwr.raised <;> rfl

/-! ### The sensor supplies (R264, R489, R521) -/

/-- The supply at the head of the queue starts, the next one 1 ms later. -/
theorem execSupplyRestartStep_of_cons {s : State} {n : Fin 24} {rest : List (Fin 24)} (hs : s.hubOn = true) (hq : s.hub.pwr.queue = n :: rest) :
    let t := s.advanceTo s.hub.pwr.stepAt
    execSupplyRestartStep s = .next ((t.pwrMap (fun q => { q with queue := rest, stepAt := t.now + etPerMs })).ssOn n) := by
  unfold execSupplyRestartStep
  rw [hq]
  dsimp only
  rw [hs]
  rfl

theorem execSsSupplyTrip_of_on {s : State} {n : Fin 24} (hs : s.hubOn = true) (hn : s.hub.pwr.on.get n = true) : execSsSupplyTrip n s =
    .next ((s.pwrMap (fun q => { q with trip := put1 q.trip n true, tripAt := put1 q.tripAt n s.now })).ssOff n false) := by
  unfold execSsSupplyTrip
  rw [hs, hn]
  rfl

/-- A supply that level 4 switched off does not retry, tripped or not. -/
theorem Pwr.mayRetry_of_off4 {p : Pwr} {n : Fin 24} (h : p.off4.get n = true) : p.mayRetry n = false := by
  simp [Pwr.mayRetry, h]

/-- A supply that may not retry stays as it is. -/
theorem execSsSupplyRetry_of_not {s : State} {n : Fin 24} (h : s.hub.pwr.mayRetry n = false) : execSsSupplyRetry n s = .next s := by
  unfold execSsSupplyRetry
  exact if_pos (by simp [h])

/-- The only supply that may retry is the first of those due: it starts when it is due, its next retry counted from there. -/
theorem execSsSupplyRetry_of_only {s : State} {n : Fin 24} (hs : s.hubOn = true) (hn : s.hub.pwr.mayRetry n = true)
    (ho : ∀ m, m ≠ n → s.hub.pwr.mayRetry m = false) :
    let t := max s.now (s.hub.pwr.retryDue n)
    execSsSupplyRetry n s = .next (((s.advanceTo t).pwrMap (fun q => { q with retryAt := some t, tripAt := put1 q.tripAt n t })).ssOn n) := by
  intro t
  have first : (idxs 24).all (fun m => n.1 ≤ m.1 || !s.hub.pwr.mayRetry m || t < s.hub.pwr.retryDue m) = true := by
    refine List.all_eq_true.mpr fun m _ => ?_
    by_cases hm : m = n
    · simp [hm]
    · simp [ho m hm]
  unfold execSsSupplyRetry
  dsimp only
  rw [hs, hn, first]
  rfl

end Sys2Proof.Machine

open Sys2Proof Sys2Proof.Machine

/-- Settles O58: by the effect of each row with the hub running; the level that is entered or left picks its branch. -/
theorem shedLevelsSuppliesAndPower : Obligations.ShedLevelsSuppliesAndPower := by
  unfold Obligations.ShedLevelsSuppliesAndPower
  intro dV n s hs p u
  refine ⟨rfl, rfl, rfl, rfl, fun k _ h4 hk hd => ?_, fun k hk _ hd => ?_, fun m rest => execSupplyRestartStep_of_cons hs,
    fun t => execScrubDeferExpire_of_scrub hs, fun t ht => ?_, execSsSupplyTrip_of_on hs, execSsSupplyRetry_of_only hs,
    fun h => execSsSupplyRetry_of_not (Pwr.mayRetry_of_off4 h)⟩
  · have hx : exec (.shedEnter dV) s = .next _ := congrArg Host.Outcome.next (State.shedEnter_of_below hs hk h4 hd)
    rw [hx]
    refine ⟨fun h => congrArg Host.Outcome.next ?_, fun h => congrArg Host.Outcome.next (if_pos h), fun h => congrArg Host.Outcome.next ?_⟩
    · exact (if_neg (by omega)).trans (if_neg (by omega))
    · exact (if_neg (by omega)).trans (if_pos h)
  · have hx : exec (.shedLeave dV) s = .next _ := congrArg Host.Outcome.next (State.shedLeave_of_above hs hk hd)
    rw [hx]
    refine ⟨fun h => congrArg Host.Outcome.next ?_, fun h => congrArg Host.Outcome.next (if_pos h), fun h => congrArg Host.Outcome.next ?_⟩
    · exact (if_neg (by omega)).trans (if_neg (by omega))
    · exact (if_neg (by omega)).trans (if_pos h)
  · have hx : exec .powerOver s = _ := execPowerOver_of_overAt hs ht
    rw [hx]
    exact ⟨fun h => congrArg Host.Outcome.next (if_neg (ne_true_of_eq_false h)), fun h => congrArg Host.Outcome.next (if_pos h)⟩

end

section
/-! PROOFS. From a trigger to a record and a filed result: the trigger lines, the sequencers, the conversion records, the comparators, and the results
of the lanes (R268 to R290, R297, R322 to R325). -/

namespace Sys2Proof.Machine

open Sys2Proof

/-- An event raised or not leaves the acquisition. -/
theorem Half.raise_if_acq (c : Prop) [Decidable c] (n : Nat) (loc : Word) (h : Half) : (if c then h.raise n loc else h).acq = h.acq := by
  split
  · exact Half.raise_acq ..
  · rfl

/-! ### Triggers (R277 to R280) -/

theorem Half.aclkFire_of_new {h : Half} (he : aclkCfgEn h.acq.aclk = true) (hf : h.trk.fires = true)
    (hn : h.acq.aclkAt ≠ some (aclkMult h.acq.aclk h.cyc)) : h.aclkFire =
      ({ h with acq := { h.acq with aclkAt := some (aclkMult h.acq.aclk h.cyc) } } : Half).triggerSrc 1 none false
        (some (aclkMult h.acq.aclk h.cyc * (aclkStep20 h.acq.aclk : Nat), (h.tws.cyl.map (·.c)).toList)) :=
  (if_neg (by simp [he, hf])).trans (if_neg hn)

theorem Half.timerExpire_of_due {n : Fin 4} {h : Half} (he : acqTmrEn (h.acq.tmr.get n) = true)
    (hp : acqTmrPeriod (h.acq.tmr.get n) ≠ 0) (ht : h.acq.tmrAt.get n ≤ h.now) : h.timerExpire n =
      ({ h with acq := { h.acq with tmrAt := put1 h.acq.tmrAt n (h.acq.tmrAt.get n + acqTmrPeriod (h.acq.tmr.get n)) } } : Half).triggerSrc
        2 (some n.1) false none :=
  if_neg (by simp [he, hp]; omega)

theorem Half.trigger_of_room {t : Fin 32} (step : Bool) (pt : Option (Int × List Int)) {h : Half} (ho : h.lineOn t = true)
    (hr : (h.acq.lines.get t).running h.now < 4) :
    h.trigger t step pt = { h with acq := { h.acq with lines := upd h.acq.lines t (fun l => { l with
      stage := l.stage ++ [⟨h.now, h.now + trgCfg1Delay l.cfg1 + 24, step, pt⟩] }) } } :=
  (if_neg (by simp [ho])).trans (if_pos hr)

/-- Of the triggers of a line the one whose DELAY ends first is the next. -/
theorem firstDue_earliest {l : List DelayT} (hl : l ≠ []) : ∃ d, firstDue l = some d ∧ d ∈ l ∧ ∀ x ∈ l, d.req ≤ x.req := by
  induction l with
  | nil => exact absurd rfl hl
  | cons d t ih =>
    cases t with
    | nil => exact ⟨d, rfl, by simp, by simp⟩
    | cons y t =>
      obtain ⟨x, hx, hmem, hmin⟩ := ih (List.cons_ne_nil y t)
      unfold firstDue
      rw [hx]
      by_cases hlt : x.req < d.req
      · refine ⟨x, if_pos hlt, List.mem_cons_of_mem d hmem, List.forall_mem_cons.mpr ⟨hlt.le, hmin⟩⟩
      · exact ⟨d, if_neg hlt, List.mem_cons_self, List.forall_mem_cons.mpr ⟨le_rfl, fun z hz => (not_lt.mp hlt).trans (hmin z hz)⟩⟩

theorem Half.delayEnds_of_due {t : Fin 32} {d : DelayT} {h : Half} (hd : firstDue (h.acq.lines.get t).stage = some d) (ht : d.req ≤ h.now) :
    let l := h.acq.lines.get t
    h.delayEnds t = eachOf (targets (trgCfg0Target l.cfg0)) (fun q => Half.request q ⟨t.1, trgCfg0Src l.cfg0, d.req, d.step, d.pt⟩)
      { h with acq := { h.acq with lines := upd h.acq.lines t (fun l => { l with stage := l.stage.erase d }) } } := by
  intro l
  unfold Half.delayEnds
  dsimp only
  rw [hd]
  exact if_neg (Nat.not_lt.mpr ht)

/-! ### Sequencers (R268, R279, R285, R289) -/

/-- A request that is taken holds on the next CONVCLK edge the positions that MASK selects. -/
theorem Half.takeReq_run (q : Fin 9) (rq : Req) (at_ : Nat) (late : Bool) (h : Half) :
    ∃ r, h.takeReq q rq at_ late = { h with acq := { h.acq with seqs := upd h.acq.seqs q (fun x => { x with
        run := some r, toWrite := x.toWrite ++ [r] }) } } ∧ r.req = rq ∧ r.hold = convEdge at_ ∧
      r.poss = maskPos q.1 (seqCfgMask (h.acq.seqs.get q).cfg) ∧ r.endAt = r.hold + seqTime q.1 r.poss.length ∧ r.late = late :=
  ⟨_, rfl, rfl, rfl, rfl, rfl, rfl⟩

theorem Half.maskApply_of_none {q : Fin 9} {h : Half} (hm : (h.acq.seqs.get q).mask = none) : h.maskApply q = h := by
  unfold Half.maskApply
  rw [hm]

theorem Half.maskApply_of_idle {q : Fin 9} {m : Nat} {sq : BitVec 16} {f : Bool} {h : Half}
    (hm : (h.acq.seqs.get q).mask = some (m, sq, f)) (hi : h.seqIdle q = true) : h.maskApply q = { h with
      acq := { h.acq with seqs := upd h.acq.seqs q (fun x => { x with mask := none, cfg := (x.cfg &&& 0x000FFFFF#32) ||| put m 12 20 }) },
      out := h.out ++ [.done 3 sq 0 []] } := by
  unfold Half.maskApply
  rw [hm]
  exact if_neg (by simp [hi])

/-- An idle sequencer without a waiting MASK takes a request at its instant. -/
theorem Half.request_of_idle {q : Fin 9} {h : Half} (rq : Req) (hr : (h.acq.seqs.get q).run = none) (hm : (h.acq.seqs.get q).mask = none) :
    h.request q rq = h.takeReq q rq rq.at_ false := by
  unfold Half.request
  dsimp only
  rw [Half.maskApply_of_none hm, hr]

/-- A sequence that has ended frees its sequencer. -/
theorem Half.seqEnd_of_alone {q : Fin 9} {r : Run} {h : Half} (hr : (h.acq.seqs.get q).run = some r) (ht : r.endAt ≤ h.now)
    (hh : (h.acq.seqs.get q).held = []) : h.seqEnd q = h.seqMap q (fun x => { x with run := none, held := [] }) := by
  unfold Half.seqEnd
  dsimp only
  rw [hr, hh]
  exact if_neg (Nat.not_lt.mpr ht)

/-- The request that the sequencer holds is taken as the sequence ends. -/
theorem Half.seqEnd_of_held {q : Fin 9} {r : Run} {rq : Req} {h : Half} (hr : (h.acq.seqs.get q).run = some r) (ht : r.endAt ≤ h.now)
    (hh : (h.acq.seqs.get q).held = [rq]) : h.seqEnd q =
      (h.seqMap q (fun x => { x with run := none, held := [] })).takeReq q rq (max r.endAt rq.at_) (decide (convEdge rq.at_ < r.endAt)) := by
  unfold Half.seqEnd
  dsimp only
  rw [hr, hh]
  exact if_neg (Nat.not_lt.mpr ht)

/-! ### Conversion records (R290) -/

/-- The oldest record not yet written enters the ring; besides it the sequencer, LAST and the count of late records change. -/
theorem Half.writeRecord_acq {q : Fin 9} {r : Run} {rest : List Run} (volts vss : List Int) {h : Half}
    (hw : (h.acq.seqs.get q).toWrite = r :: rest) (ht : r.doneAt q.1 ≤ h.now) (hp : r.req.pt = none) :
    ∃ rc late last, (h.writeRecord q volts vss).acq = { h.acq.push rc with
      seqs := upd h.acq.seqs q (fun s => { s with toWrite := rest }), late := late, last := last } ∧ rc.ts = BitVec.ofNat 32 r.hold := by
  unfold Half.writeRecord
  rw [hw]
  dsimp only
  rw [if_neg (Nat.not_lt.mpr ht), hp]
  exact ⟨_, _, _, Half.raise_if_acq .., rfl⟩

/-! ### Crossings (R297) -/

/-- Triggers leave the comparators. -/
@[simp] theorem Half.overrun_xc (q : Fin 9) (rq : Req) (ts : Nat) (h : Half) : (h.overrun q rq ts).acq.xc = h.acq.xc := by
  have e (k : Half) (hk : k.acq.xc = h.acq.xc) : (k.raise 0x31 (locSense h.id)).acq.xc = h.acq.xc := by rwa [Half.raise_acq]
  unfold Half.overrun
  dsimp only
  split
  · split
    · rw [Half.emit_acq]
      exact e _ rfl
    · exact e _ rfl
  · exact e _ rfl

@[simp] theorem Half.trigger_xc (t : Fin 32) (step : Bool) (pt : Option (Int × List Int)) (h : Half) :
    (h.trigger t step pt).acq.xc = h.acq.xc := by
  unfold Half.trigger
  dsimp only
  split
  · rfl
  · split
    · rfl
    · exact eachOf_same _ (fun h : Half => h.acq.xc) (fun q k => Half.overrun_xc ..) h

@[simp] theorem Half.triggerSrc_xc (src : Nat) (sel : Option Nat) (step : Bool) (pt : Option (Int × List Int)) (h : Half) :
    (h.triggerSrc src sel step pt).acq.xc = h.acq.xc := by
  refine eachIdx_same (fun h : Half => h.acq.xc) (fun t k => ?_) h
  dsimp only
  split
  · exact Half.trigger_xc ..
  · rfl

theorem Half.crossing_of_disabled {g : Fin 12} (rising : Bool) {h : Half} (he : xcCfgEn (h.acq.xc.get g).cfg = false) :
    h.crossing g rising = h := if_pos (by simp [he])

/-- A comparator that looks at both edges takes every crossing. -/
theorem Half.crossing_xc_of_both {g : Fin 12} (rising : Bool) {h : Half} (he : xcCfgEn (h.acq.xc.get g).cfg = true)
    (hb : xcCfgEdge (h.acq.xc.get g).cfg = 2) : (h.crossing g rising).acq.xc.get g =
      { h.acq.xc.get g with live := rising, ts := h.ts, pol := rising, cnt := satInc 16 (h.acq.xc.get g).cnt } := by
  have hold (c d : Prop) [Decidable c] [Decidable d] (o : Out) (sel : Option Nat) (k : Half) :
      (if d then (if c then k.emit o else k).triggerSrc 4 sel false none else if c then k.emit o else k).acq.xc = k.acq.xc := by
    split <;> split <;> simp
  unfold Half.crossing
  dsimp only
  rw [if_neg (by simp [he]), if_neg (by simp [hb]), hold]
  simp

/-! ### Results (R322 to R325, log 114) -/

/-- A result that a lane has of a stage is one of that stage. -/
theorem Lane.imep_of_result {l : Lane} {st : Stage} {r : ResOut} (h : l.result st = some r) : r.imep = decide (st = .imep) := by
  unfold Lane.result at h
  simpa using List.find?_some h

theorem Lane.result_combustion {st : Stage} (hs : st ≠ .imep) (l : Lane) : l.result st = l.results.find? (fun r => r.imep = false) := by
  unfold Lane.result
  rw [decide_eq_false hs]

theorem State.fileStage_of_imep {id : HalfId} {j : Fin 12} {r : ResOut} {s : State} (hl : s.live id = true) (hr : r.imep = true) :
    s.fileStage id j r = s.onHalf id (fun h => h.fileImep j r) := by
  unfold State.fileStage
  rw [State.act_of_live _ hl, hr]
  rfl

theorem State.fileStage_of_combustion {id : HalfId} {j : Fin 12} {r : ResOut} {s : State} (hl : s.live id = true) (hr : r.imep = false) :
    s.fileStage id j r = s.onHalf id (fun h => h.fileCmb j r) := by
  unfold State.fileStage
  rw [State.act_of_live _ hl, hr]
  rfl

section

variable {id : HalfId} {j : Fin 12} {st : Stage} {s : State} (hl : s.live id = true)

include hl

theorem execResultsComplete_of_result {r : ResOut} (hr : ((s.half id).ana.lanes.get j).result st = some r) :
    execResultsComplete id j st s = .next (s.fileStage id j r) := by
  unfold execResultsComplete
  rw [hl, hr]
  rfl

/-- With no result of the stage a window that waits for a valid neighbour waits no longer; what it then gives of the stage is filed. -/
theorem execResultsComplete_of_closed {r : ResOut} (hn : ((s.half id).ana.lanes.get j).result st = none)
    (hr : (((s.onHalf id (Half.closeNow j)).half id).ana.lanes.get j).result st = some r) :
    execResultsComplete id j st s = .next ((s.onHalf id (Half.closeNow j)).fileStage id j r) := by
  unfold execResultsComplete
  rw [hl, hn]
  dsimp only
  rw [State.act_of_live _ hl, hr]
  rfl

theorem execResultsComplete_of_none (hn : ((s.half id).ana.lanes.get j).result st = none)
    (hr : (((s.onHalf id (Half.closeNow j)).half id).ana.lanes.get j).result st = none) :
    execResultsComplete id j st s = .next (s.onHalf id (Half.closeNow j)) := by
  unfold execResultsComplete
  rw [hl, hn]
  dsimp only
  rw [State.act_of_live _ hl, hr]
  rfl

end

theorem Half.closeNow_of_empty {j : Fin 12} {h : Half} (hn : (h.ana.lanes.get j).newest = none) : h.closeNow j = h := by
  unfold Half.closeNow
  rw [hn]

theorem Half.raise_if_ana (c : Prop) [Decidable c] (n : Nat) (loc : Word) (h : Half) : (if c then h.raise n loc else h).ana = h.ana := by
  split
  · exact Half.raise_ana ..
  · rfl

theorem Half.fileImep_results (j : Fin 12) (r : ResOut) (h : Half) :
    ((h.fileImep j r).ana.lanes.get j).results = (h.ana.lanes.get j).results.erase r :=
  congrArg Lane.results (upd_get_self ..)

/-- The filed result leaves its lane. -/
theorem Half.fileCmb_results (j : Fin 12) (r : ResOut) (h : Half) :
    ((h.fileCmb j r).ana.lanes.get j).results = (h.ana.lanes.get j).results.erase r := by
  unfold Half.fileCmb
  dsimp only
  rw [Half.emit_ana, Half.raise_if_ana, Half.raise_if_ana]
  exact congrArg Lane.results (upd_get_self ..)

/-- The result is the last that the filing hands over, its figures as they were. -/
theorem Half.fileCmb_out (j : Fin 12) (r : ResOut) (h : Half) :
    ∃ (r1 : ResOut) (out : List Out), (h.fileCmb j r).out = out ++ [.result r1] ∧
    r1.cyl = r.cyl ∧ r1.cyc = r.cyc ∧ r1.mfb50 = r.mfb50 ∧ r1.fuel = r.fuel := by
  unfold Half.fileCmb
  dsimp only
  rw [Half.emit_out]
  exact ⟨_, _, rfl, rfl, rfl, rfl, rfl⟩

/-! ### The rows of acquisition at a half that works -/

section

variable {id : HalfId} {s : State} (hl : s.live id = true)

include hl

theorem execAngleClockTrigger_of_next {x : Nat} (hx : (s.half id).aclkNext = some x) :
    execAngleClockTrigger id s = .next ((s.advanceTo x).onHalf id Half.aclkFire) := congrArg _ (State.due_of_live _ hl hx)

theorem execAcqTimerExpire_of_en {n : Fin 4} (he : acqTmrEn ((s.half id).acq.tmr.get n) = true) : execAcqTimerExpire id n s =
    .next ((s.advanceTo ((s.half id).acq.tmrAt.get n)).onHalf id (Half.timerExpire n)) := congrArg _ (State.due_of_live _ hl (if_pos he))

theorem execTriggerDelayExpire_of_due {t : Fin 32} {d : DelayT} (hd : firstDue ((s.half id).acq.lines.get t).stage = some d) :
    execTriggerDelayExpire id t s = .next ((s.advanceTo d.req).onHalf id (Half.delayEnds t)) :=
  congrArg _ (State.due_of_live _ hl (by rw [hd]; rfl))

theorem execSequenceEnd_of_run {q : Fin 9} {r : Run} (hr : ((s.half id).acq.seqs.get q).run = some r) :
    execSequenceEnd id q s = .next ((s.advanceTo r.endAt).onHalf id (Half.seqEnd q)) :=
  congrArg _ (State.due_of_live _ hl (by rw [hr]; rfl))

theorem execConversionRecordWrite_of_toWrite {q : Fin 9} {r : Run} {rest : List Run} (v : ConvIn)
    (hw : ((s.half id).acq.seqs.get q).toWrite = r :: rest) : execConversionRecordWrite id q v s =
      .next (((((s.advanceTo (r.doneAt q.1)).onHalf id (Half.writeRecord q v.volts v.vss)).costs id .A).costs id .B).flush) := by
  have hd : ((s.half id).acq.seqs.get q).toWrite.head?.map (Run.doneAt q.1) = some (r.doneAt q.1) := by
    rw [hw]
    rfl
  unfold execConversionRecordWrite
  dsimp only
  rw [if_neg (by simp [hl, hd]), State.due_of_live _ hl hd]

theorem execCrossing_of_live (g : Fin 12) (rising : Bool) (dt : Nat) : execCrossing id g rising dt s =
    .next (let s1 := (s.advance dt).onHalf id (Half.crossing g rising)
      if s1.live id && xcCfgEn ((s1.half id).acq.xc.get g).cfg then s1.probe id g rising else s1) := by
  unfold execCrossing
  rw [State.act_of_live _ ((State.advance_live dt s id).trans hl)]

theorem execAcqMaskApply_of_idle {q : Fin 9} {m : Nat} {sq : BitVec 16} {f : Bool}
    (hm : ((s.half id).acq.seqs.get q).mask = some (m, sq, f)) (hi : (s.half id).seqIdle q = true) : execAcqMaskApply id q s =
      .next (s.onHalf id (fun h => { h with
        acq := { h.acq with seqs := upd h.acq.seqs q (fun x => { x with mask := none, cfg := (x.cfg &&& 0x000FFFFF#32) ||| put m 12 20 }) },
        out := h.out ++ [.done 3 sq 0 []] })) :=
  congrArg _ ((State.act_of_live _ hl).trans (State.onHalf_congr ((if_pos hi).trans (Half.maskApply_of_idle hm hi))))

end

end Sys2Proof.Machine

open Sys2Proof Sys2Proof.Machine

/-- Settles O37: each row by the half at work and the instant it knows; a trigger by its line, a request by its sequencer, a record by the run
that it completes, a result by the lane that has it. -/
theorem triggersBecomeRecordsAndResults : Obligations.TriggersBecomeRecordsAndResults := by
  unfold Obligations.TriggersBecomeRecordsAndResults
  refine ⟨fun id s h hl => ⟨fun x => execAngleClockTrigger_of_next hl, Half.aclkFire_of_new, fun n => execAcqTimerExpire_of_en hl,
    fun n => Half.timerExpire_of_due, fun t step pt => Half.trigger_of_room step pt, fun t d => execTriggerDelayExpire_of_due hl,
    fun l => firstDue_earliest, fun t d => Half.delayEnds_of_due, fun q rq hr hm => ?_, fun q r => execSequenceEnd_of_run hl,
    fun q r hr ht => ⟨Half.seqEnd_of_alone hr ht, fun rq => Half.seqEnd_of_held hr ht⟩,
    fun q r rest v => execConversionRecordWrite_of_toWrite hl v, fun q r rest v hw ht hp => ?_,
    fun g rising dt => execCrossing_of_live hl g rising dt,
    fun g rising => ⟨Half.crossing_of_disabled rising, Half.crossing_xc_of_both rising⟩,
    fun q m sq f => execAcqMaskApply_of_idle hl⟩, fun id j s hl => ⟨fun r hr => ?_, fun r st hs hr => ?_, fun st hn => ?_,
    Half.closeNow_of_empty, fun r h => ⟨h.fileImep_results j r, rfl, h.fileCmb_results j r, h.fileCmb_out j r⟩⟩⟩
  · rw [Half.request_of_idle rq hr hm]
    exact Half.takeReq_run ..
  · obtain ⟨rc, late, last, ea, hts⟩ := Half.writeRecord_acq v.volts v.vss hw ht hp
    intro a
    have e : a = _ := ea
    rw [e]
    exact ⟨⟨rc, rfl, hts⟩, rfl, congrArg Seqr.toWrite (upd_get_self ..)⟩
  · have hres : ((s.half id).ana.lanes.get j).result .imep = some r := hr
    exact (execResultsComplete_of_result hl hres).trans (congrArg _ (State.fileStage_of_imep hl (Lane.imep_of_result hres)))
  · have hres : ((s.half id).ana.lanes.get j).result st = some r := (Lane.result_combustion hs _).trans hr
    have hcmb : r.imep = false := (Lane.imep_of_result hres).trans (decide_eq_false hs)
    exact (execResultsComplete_of_result hl hres).trans (congrArg _ (State.fileStage_of_combustion hl hcmb))
  · exact ⟨fun r => execResultsComplete_of_closed hl hn, execResultsComplete_of_none hl hn⟩

end

section
/-! PROOFS. The references of a sense die (R275, R276, R293): what a flag that sets or clears leaves, and what the runs that hold from then on
see. -/

namespace Sys2Proof.Machine

open Sys2Proof

/-! ### What the runs see (R276) -/

/-- A change that the runs follow concerns the sequencers alone. -/
theorem Half.holds_seqs (h : Half) : h.holds = { h with acq := { h.acq with seqs := h.holds.acq.seqs } } := rfl

theorem Half.holds_run {h : Half} {q : Fin 9} {r : Run} (hr : (h.acq.seqs.get q).run = some r) :
    (h.holds.acq.seqs.get q).run = some (h.holdRun q r) := by
  have e : (h.holds.acq.seqs.get q).run = (h.acq.seqs.get q).run.map (h.holdRun q) :=
    congrArg Seqr.run (Vector.get_ofFn ..)
  rw [e, hr]
  rfl

/-- The positions picked by a test on the position alone, with or without their order. -/
theorem zipIdx_filter_fst {α : Type} (p : α → Bool) (l : List α) : (l.zipIdx.filter (fun x => p x.1)).map (·.1) = l.filter p := by
  rw [← List.zipIdx_map_fst 0 l, List.filter_map, List.zipIdx_map_fst]
  rfl

/-- The P positions hold together, so a run of SEQ 0 that has not held yet sees every reference as it is now. -/
theorem Half.holdRun_refBad_of_ahead {h : Half} {q : Fin 9} {r : Run} (ht : h.now ≤ r.hold) (hq : q.1 = 0) :
    (h.holdRun q r).refBad = r.poss.filter (fun p => !h.acq.refOk (seqInput 0 p)) := by
  have hhold (n : Nat) : r.holdOf q.1 n = r.hold := if_pos hq
  unfold Half.holdRun
  simp only [hhold, if_pos ht]
  rw [hq]
  exact zipIdx_filter_fst (fun p => !h.acq.refOk (seqInput 0 p)) r.poss

/-! ### A flag that sets (R275, R293) -/

theorem Half.refSet_int_of_calibrated (mv : Nat) {h : Half} (hc : h.acq.calDone = true ∨ h.acq.calOn.any (·) = true) :
    h.refSet .int mv = ({ h with acq := { h.acq with intOk := true } } : Half).holds :=
  congrArg (fun a => Half.holds { h with acq := a }) (if_pos (by simpa using hc))

theorem Half.refSet_int_of_first (mv : Nat) {h : Half} (hd : h.acq.calDone = false) (ho : h.acq.calOn.any (·) = false) :
    h.refSet .int mv = ({ h with acq := { h.acq with
      intOk := true, calOn := Vector.replicate 23 true, calEnd := h.now + 800000 } } : Half).holds :=
  congrArg (fun a => Half.holds { h with acq := a }) (if_neg (by simp [hd, ho]))

/-- EXT_VREF within its window fits the 13 bits of its reading. -/
theorem Half.refSet_ext_of_within {mv : Nat} (h : Half) (hlo : 2000 ≤ mv) (hhi : mv ≤ 4500) :
    h.refSet .ext mv = ({ h with acq := { h.acq with extOk := true, vRef := mv } } : Half).holds := by
  have hs : sat 13 mv = mv := if_pos (by omega)
  refine congrArg Half.holds ((if_pos (by simp [hlo, hhi])).trans ?_)
  rw [hs]
  rfl

theorem Half.refSet_ext_of_outside {mv : Nat} (h : Half) (ho : mv < 2000 ∨ 4500 < mv) : h.refSet .ext mv = h.holds :=
  congrArg Half.holds (if_neg (by simp; omega))

theorem Half.refSet_ss_of_within {mv : Nat} (n : Fin 12) (h : Half) (hlo : 4750 ≤ mv) (hhi : mv ≤ 5250) :
    h.refSet (.ss n) mv = ({ h with acq := { h.acq with ssOk := put1 h.acq.ssOk n true } } : Half).holds :=
  congrArg Half.holds (if_pos (by simp [hlo, hhi]))

theorem Half.refSet_ss_of_outside {mv : Nat} (n : Fin 12) (h : Half) (ho : mv < 4750 ∨ 5250 < mv) : h.refSet (.ss n) mv = h.holds :=
  congrArg Half.holds (if_neg (by simp; omega))

/-! ### A flag that clears (R275) -/

theorem Half.refClear_int_of_set {mv : Nat} {h : Half} (ho : mv < 4076 ∨ 4116 < mv) (hf : h.acq.intOk = true) :
    h.refClear .int mv = ({ h with acq := { h.acq with intOk := false } } : Half).holds.raise 0x32 (locSense h.id) :=
  if_neg (by simp [hf]; omega)

theorem Half.refClear_ext_of_set {mv : Nat} {h : Half} (ho : mv < 2000 ∨ 4500 < mv) (hf : h.acq.extOk = true) :
    h.refClear .ext mv = ({ h with acq := { h.acq with extOk := false, vRef := sat 13 mv } } : Half).holds.raise 0x32 (locSense h.id) :=
  if_neg (by simp [hf]; omega)

theorem Half.ssClear_of_clear {n : Fin 12} {h : Half} (hf : h.acq.ssOk.get n = false) : h.ssClear n = h := if_pos (by simp [hf])

theorem Half.refClear_ss_of_set {mv : Nat} {n : Fin 12} {h : Half} (ho : mv < 4750 ∨ 5250 < mv) (hf : h.acq.ssOk.get n = true) :
    h.refClear (.ss n) mv = ({ h with acq := { h.acq with ssOk := put1 h.acq.ssOk n false } } : Half).holds.raise 0x32 (locSense h.id) :=
  (if_neg (by simp; omega)).trans (if_neg (by simp [hf]))

theorem Half.refClear_int_of_clear (mv : Nat) {h : Half} (hf : h.acq.intOk = false) : h.refClear .int mv = h := if_pos (by simp [hf])

theorem Half.refClear_ext_of_clear (mv : Nat) {h : Half} (hf : h.acq.extOk = false) : h.refClear .ext mv = h := if_pos (by simp [hf])

/-- A supply's flag that is not set stays, within the window or outside it. -/
theorem Half.refClear_ss_of_clear (mv : Nat) {n : Fin 12} {h : Half} (hf : h.acq.ssOk.get n = false) : h.refClear (.ss n) mv = h :=
  (congrArg (fun t => if 4750 ≤ mv && mv ≤ 5250 then h else t) (Half.ssClear_of_clear hf)).trans (ite_self h)

end Sys2Proof.Machine

open Sys2Proof Sys2Proof.Machine

/-- Settles O38: each reference by its window and its flag, the runs by what they see from their hold on. -/
theorem referencesSetAndClear : Obligations.ReferencesSetAndClear := by
  unfold Obligations.ReferencesSetAndClear
  intro id n mv s h hl
  refine ⟨fun r => congrArg Host.Outcome.next (State.act_of_live _ hl), Half.refSet_int_of_calibrated mv, Half.refSet_int_of_first mv,
    h.refSet_ext_of_within, h.refSet_ext_of_outside, h.refSet_ss_of_within n, h.refSet_ss_of_outside n,
    fun r => congrArg Host.Outcome.next (State.act_of_live _ hl), Half.refClear_int_of_set, Half.refClear_ext_of_set,
    Half.refClear_ss_of_set, Half.refClear_int_of_clear mv, Half.refClear_ext_of_clear mv, Half.refClear_ss_of_clear mv,
    h.holds_seqs, fun q r hr => ?_⟩
  exact ⟨_, Half.holds_run hr, rfl, rfl, Half.holdRun_refBad_of_ahead⟩

end

section
/-! PROOFS. Background calibration and the test DAC (R293 to R298, R306, R307): what becomes of a group's step when the spare is taken and freed,
what a result makes of its slice, and how a test ends. -/

namespace Sys2Proof.Machine

open Sys2Proof

/-! ### One group of slices -/

/-- Two changes that make the same of an element make the same of the vector. -/
theorem upd_congr {α : Type} {n : Nat} {v : Vector α n} {i : Fin n} {f g : α → α} (e : f (v.get i) = g (v.get i)) : upd v i f = upd v i g :=
  congrArg (fun x => v.set i.1 x i.2) e

theorem Half.calMap_congr {g : Fin 3} {f k : GrpCal → GrpCal} {h : Half} (e : f (h.acq.grps.get g) = k (h.acq.grps.get g)) :
    h.calMap g f = h.calMap g k :=
  congrArg (fun v => { h with acq := { h.acq with grps := v } }) (upd_congr e)

@[simp] theorem Half.calMap_grp (g : Fin 3) (f : GrpCal → GrpCal) (h : Half) : (h.calMap g f).acq.grps.get g = f (h.acq.grps.get g) :=
  upd_get_self ..

@[simp] theorem Half.calMap_slices (g : Fin 3) (f : GrpCal → GrpCal) (h : Half) : (h.calMap g f).acq.slices = h.acq.slices := rfl

@[simp] theorem Half.calMap_lateCnt (g : Fin 3) (f : GrpCal → GrpCal) (h : Half) : (h.calMap g f).acq.lateCnt = h.acq.lateCnt := rfl

/-! ### The spare is taken and freed (R295) -/

/-- A step has the spare: its own converts at once while it serves no other slice. -/
theorem GrpCal.run_eq (g : Fin 3) (x start : Nat) (mine : Option (BitVec 16 × Bool)) (c : GrpCal) :
    c.run g x start mine = { c with
      slice := x, stage := if x = grpN g ∧ c.perm = none then 2 else 1, start := start, mine := mine, fresh := none } := by
  unfold GrpCal.run
  simp

/-- The step of the group takes the place of the one that began and waited first. -/
theorem GrpCal.free_of_cons {g : Fin 3} {c : GrpCal} {y b : Nat} {rq : Option (BitVec 16 × Bool)}
    {rest : List (Nat × Nat × Option (BitVec 16 × Bool))} (h : c.wait = (y, b, rq) :: rest) : c.free g = { c with wait := rest }.run g y b rq := by
  unfold GrpCal.free
  rw [h]

theorem GrpCal.free_of_nil (g : Fin 3) {c : GrpCal} (h : c.wait = []) : c.free g = { c with stage := 0, mine := none, fresh := none } := by
  unfold GrpCal.free
  rw [h]

@[simp] theorem GrpCal.free_perm (g : Fin 3) (c : GrpCal) : (c.free g).perm = c.perm := by
  unfold GrpCal.free
  split <;> rfl

@[simp] theorem GrpCal.free_susp (g : Fin 3) (c : GrpCal) : (c.free g).susp = c.susp := by
  unfold GrpCal.free
  split <;> rfl

/-- The answer to the request that a step serves, behind what the half has ready. -/
def calAnswer (mine : Option (BitVec 16 × Bool)) (st : Nat) (out : List Out) : List Out :=
  match mine with
  | some (sq, _) => out ++ [.done 4 sq st []]
  | none => out

@[simp] theorem Half.calDoneReq_acq (mine : Option (BitVec 16 × Bool)) (st : Nat) (h : Half) : (h.calDoneReq mine st).acq = h.acq := by
  unfold Half.calDoneReq
  split <;> rfl

theorem Half.calDoneReq_out (mine : Option (BitVec 16 × Bool)) (st : Nat) (h : Half) : (h.calDoneReq mine st).out = calAnswer mine st h.out := by
  cases mine <;> rfl

/-- The end of a step frees the spare and leaves the slices and the count of late steps. -/
theorem Half.calFinish_acq (g : Fin 3) (st : Nat) (h : Half) : (h.calFinish g st).acq = (h.calMap g (GrpCal.free g)).acq := Half.calDoneReq_acq ..

theorem Half.calFinish_grp (g : Fin 3) (st : Nat) (h : Half) : (h.calFinish g st).acq.grps.get g = (h.acq.grps.get g).free g := by
  rw [Half.calFinish_acq, Half.calMap_grp]

theorem Half.calFinish_slices (g : Fin 3) (st : Nat) (h : Half) : (h.calFinish g st).acq.slices = h.acq.slices := by
  rw [Half.calFinish_acq, Half.calMap_slices]

theorem Half.calFinish_out (g : Fin 3) (st : Nat) (h : Half) : (h.calFinish g st).out = calAnswer (h.acq.grps.get g).mine st h.out :=
  Half.calDoneReq_out ..

/-! ### A step begins (R294, R295) -/

theorem GrpCal.begin_of_free {g : Fin 3} {c : GrpCal} (x now : Nat) (mine : Option (BitVec 16 × Bool)) (h : c.stage = 0) :
    c.begin_ g x now mine = { c with
      slice := x, stage := if x = grpN g ∧ c.perm = none then 2 else 1, start := now, begun := now, mine := mine, fresh := none } :=
  (if_pos h).trans (GrpCal.run_eq ..)

theorem GrpCal.begin_of_busy {g : Fin 3} {c : GrpCal} (x now : Nat) (mine : Option (BitVec 16 × Bool)) (h : c.stage ≠ 0) :
    c.begin_ g x now mine = { c with begun := now, wait := c.wait ++ [(x, now, mine)] } := if_neg h

/-- The rotation's next slice is not FAILED. -/
theorem Half.calPick_not_failed {g : Fin 3} {h : Half} {n x y : Nat} (hp : h.calPick g n x = some y) :
    (h.acq.slices.get (sliceIx g y)).failed = false := by
  induction n generalizing x with
  | zero => simp [Half.calPick] at hp
  | succ n ih =>
    unfold Half.calPick at hp
    split at hp
    · exact ih hp
    · next hf =>
      obtain rfl := Option.some.inj hp
      exact Bool.eq_false_iff.mpr hf

/-- MB4's request begins. -/
theorem Half.calStart_of_asked {g : Fin 3} {h : Half} {y : Nat} {rq : BitVec 16 × Bool} {rest : List (Nat × BitVec 16 × Bool)}
    (hd : h.acq.calDone = true) (ha : (h.acq.grps.get g).asked = (y, rq) :: rest) :
    h.calStart g = h.calMap g (fun c => { c with asked := rest }.begin_ g y h.now (some rq)) := by
  unfold Half.calStart
  simp only [hd, ha]
  exact (if_neg (by decide)).trans (Half.calMap_congr rfl)

/-- With no request the rotation's next begins. -/
theorem Half.calStart_of_rotation {g : Fin 3} {h : Half} {y : Nat} (hd : h.acq.calDone = true) (ha : (h.acq.grps.get g).asked = [])
    (he : calCfgEn h.acq.calCfg = true) (hs : (h.acq.grps.get g).susp = false)
    (hp : h.calPick g (grpN g + 1) (h.acq.grps.get g).next = some y) :
    h.calStart g = h.calMap g (fun c => { c with asked := [], next := calAfter g y }.begin_ g y h.now none) := by
  unfold Half.calStart
  simp only [hd, ha, he, hs, hp]
  rfl

/-! ### Takeover, lateness, handback (R295, R296) -/

theorem Half.calTakeover_of_free {g : Fin 3} {h : Half} (h1 : (h.acq.grps.get g).stage = 1) (ht : (h.acq.grps.get g).start + 160 ≤ h.now)
    (hi : h.seqIdle (sliceSeq g (h.acq.grps.get g).slice) = true) (hp : (h.acq.grps.get g).perm = none) :
    h.calTakeover g = h.calMap g (fun c => { c with stage := 2 }) :=
  if_pos (by simp [h1, ht, hi, hp])

theorem GrpCal.lateAt_of_shadowing {c : GrpCal} (h : c.stage = 1) : c.lateAt = some (c.start + 64 * 8000) := if_pos h

/-- Of the steps that wait for the spare the oldest becomes late first. -/
theorem GrpCal.lateAt_of_waiting {c : GrpCal} {y b : Nat} {rq : Option (BitVec 16 × Bool)}
    {rest : List (Nat × Nat × Option (BitVec 16 × Bool))} (h : c.stage ≠ 1) (hw : c.wait = (y, b, rq) :: rest) : c.lateAt = some (b + 64 * 8000) := by
  unfold GrpCal.lateAt
  rw [if_neg h, hw]
  rfl

/-- The instant at which a step becomes late is no longer ahead. -/
theorem GrpCal.lateAt_all_of_past {c : GrpCal} {t now : Nat} (h : c.lateAt = some t) (ht : t ≤ now) : c.lateAt.all (now < ·) = false := by
  rw [h]
  exact decide_eq_false (Nat.not_lt.mpr ht)

/-- The step that shadows is late: it is counted and raised, and it ends with CAL_LATE. -/
theorem Half.calLate_of_shadowing {g : Fin 3} {h : Half} (h1 : (h.acq.grps.get g).stage = 1)
    (ht : (h.acq.grps.get g).start + 64 * 8000 ≤ h.now) : h.calLate g = h.calLateEv.calFinish g 0x0142 :=
  (if_neg (ne_true_of_eq_false (GrpCal.lateAt_all_of_past (GrpCal.lateAt_of_shadowing h1) ht))).trans (if_pos h1)

theorem Half.calLateEv_acq (h : Half) : h.calLateEv.acq = { h.acq with lateCnt := satInc 8 h.acq.lateCnt } := Half.raise_acq ..

section

variable {g : Fin 3} {h : Half} (h3 : (h.acq.grps.get g).stage = 3) (ht : (h.acq.grps.get g).endAt + 160 ≤ h.now)
  (hi : h.seqIdle (sliceSeq g (h.acq.grps.get g).slice) = true)

include h3 ht hi

/-- The slice is FAILED: the spare keeps its inputs and the group's rotation is suspended. -/
theorem Half.calHandback_of_failed (hf : (h.acq.slices.get (sliceIx g (h.acq.grps.get g).slice)).failed = true) :
    h.calHandback g = (h.calMap g (fun c => { c with perm := some c.slice, susp := true })).calFinish g 0x0143 :=
  (if_neg (by simp [h3, hi]; omega)).trans (if_pos hf)

/-- A result within its bounds comes into force. -/
theorem Half.calHandback_of_fresh {o k : Int} (hf : (h.acq.slices.get (sliceIx g (h.acq.grps.get g).slice)).failed = false)
    (hr : (h.acq.grps.get g).fresh = some (o, k)) :
    h.calHandback g = (h.calTake (sliceIx g (h.acq.grps.get g).slice) o k).calFinish g 0 := by
  unfold Half.calHandback
  dsimp only
  rw [if_neg (by simp [h3, hi]; omega), hf, hr]
  rfl

/-- A result that may not come into force leaves the slice as it was. -/
theorem Half.calHandback_of_bad (hf : (h.acq.slices.get (sliceIx g (h.acq.grps.get g).slice)).failed = false)
    (hr : (h.acq.grps.get g).fresh = none) : h.calHandback g = h.calFinish g 0x0143 := by
  unfold Half.calHandback
  dsimp only
  rw [if_neg (by simp [h3, hi]; omega), hf, hr]
  rfl

/-- Whatever the handback puts in force, the spare is free after it. -/
theorem Half.calHandback_idle (hw : (h.acq.grps.get g).wait = []) : ((h.calHandback g).acq.grps.get g).stage = 0 := by
  have idle (st : Nat) (k : Half) (e : (k.acq.grps.get g).wait = []) : ((k.calFinish g st).acq.grps.get g).stage = 0 := by
    rw [Half.calFinish_grp, GrpCal.free_of_nil g e]
  cases hf : (h.acq.slices.get (sliceIx g (h.acq.grps.get g).slice)).failed with
  | true =>
    rw [Half.calHandback_of_failed h3 ht hi hf]
    exact idle _ _ (by rwa [Half.calMap_grp])
  | false =>
    cases hr : (h.acq.grps.get g).fresh with
    | none =>
      rw [Half.calHandback_of_bad h3 ht hi hf hr]
      exact idle _ _ hw
    | some c =>
      rw [Half.calHandback_of_fresh h3 ht hi hf hr]
      exact idle _ _ hw

end

/-! ### The result of a slice (R296) -/

/-- A slice after a result that is out of bounds or not: the second fault in a row marks it FAILED. -/
def SliceSt.judged (bad : Bool) (x : SliceSt) : SliceSt :=
  { x with bad := if bad then min 2 (x.bad + 1) else 0, failed := x.failed || (bad && 1 ≤ x.bad) }

theorem Half.calFault_slice (i : Fin 23) (bad : Bool) (h : Half) :
    (h.calFault i bad).acq.slices.get i = (h.acq.slices.get i).judged bad := by
  have e : (h.calFault i bad).acq.slices = upd h.acq.slices i (SliceSt.judged bad) := by
    unfold Half.calFault
    dsimp only
    rw [Half.raise_if_acq, Half.raise_if_acq]
    dsimp only [Half.acqMap_acq]
    refine upd_congr ?_
    cases hf : (h.acq.slices.get i).failed <;> simp [SliceSt.judged, hf]
  rw [e, upd_get_self]

theorem Half.calTake_slice (i : Fin 23) (ofs gain : Int) (h : Half) :
    (h.calTake i ofs gain).acq.slices.get i = { h.acq.slices.get i with ofs := ofs, gain := gain } := upd_get_self ..

theorem calBad_iff (ofs gain : Int) : calBad ofs gain = true ↔ 2000 < ofs.natAbs ∨ 5000 < gain.natAbs := by
  unfold calBad
  simp

/-- With the calibration at enable over, a result judges the slice whose conversions were under way. -/
theorem Half.calResult_slice {g : Fin 3} {h : Half} (ofs gain : Int) (ho : h.acq.calOn.any (·) = false) (h2 : (h.acq.grps.get g).stage = 2) :
    let i := sliceIx g (h.acq.grps.get g).slice
    let y := (h.calResult g ofs gain).acq.slices.get i
    let x := (h.acq.slices.get i).judged (calBad ofs gain)
    y.bad = x.bad ∧ y.failed = x.failed := by
  intro i y x
  have hnone : ((List.range (grpN g + 1)).map (sliceIx g)).find? (fun i => h.acq.calOn.get i) = none := by
    refine List.find?_eq_none.mpr fun j _ => ?_
    have hall := Vector.any_eq_false.mp ho j.1 j.2
    exact hall
  have e : (h.calFault i (calBad ofs gain)).acq.slices.get i = x := Half.calFault_slice ..
  have hy : y = (h.calResult g ofs gain).acq.slices.get i := rfl
  unfold Half.calResult at hy
  simp only [hnone] at hy
  rw [if_neg (by simp [h2])] at hy
  split at hy
  · split at hy
    · rw [hy, Half.calFinish_slices, Half.calMap_slices, e]
      exact ⟨rfl, rfl⟩
    · rw [hy, Half.calFinish_slices, Half.calTake_slice, Half.calMap_slices, e]
      exact ⟨rfl, rfl⟩
  · rw [hy, Half.calMap_slices, e]
    exact ⟨rfl, rfl⟩

/-! ### The test DAC (R298, R307) -/

/-- A running test ends with its verdict. -/
theorem Half.tdacEnd_of_busy {h : Half} (v : Nat) (d : Int) (hb : h.acq.tdac.busy = true) :
    (h.tdacEnd v d).acq.tdac.busy = false ∧ (h.tdacEnd v d).acq.tdac.res = tdacWord v d := by
  have hsame (k : Half) : (if v = 1 then k.raise 0x36 (locAin h.id (tdacCfgInput h.acq.tdac.cfg)) else
      if v = 2 || v = 3 then k.raise 0x37 (locAin h.id (tdacCfgInput h.acq.tdac.cfg)) else
      if v = 4 then k.raise 0x38 (locAin h.id (tdacCfgInput h.acq.tdac.cfg)) else k).acq = k.acq := by
    split
    · exact Half.raise_acq ..
    · split
      · exact Half.raise_acq ..
      · exact Half.raise_if_acq ..
  unfold Half.tdacEnd
  dsimp only
  rw [if_neg (by simp [hb])]
  split
  · rw [Half.emit_acq, hsame]
    exact ⟨rfl, rfl⟩
  · rw [hsame]
    exact ⟨rfl, rfl⟩

theorem Half.tdacVerdict_of_idle (m : TdacMeas) {h : Half} (hb : h.acq.tdac.busy = false) : h.tdacVerdict m = h :=
  if_pos (by simp [hb])

/-- A rise above 0.5 V is OPEN. -/
theorem Half.tdacVerdict_open {m : TdacMeas} {h : Half} (hb : h.acq.tdac.busy = true) (ht : tdacCfgTest h.acq.tdac.cfg = 0)
    (hr : 5000 < m.hi - m.lo) : h.tdacVerdict m = h.tdacEnd 1 (m.hi - m.lo) := by
  unfold Half.tdacVerdict
  dsimp only
  rw [if_neg (by simp [hb]), ht]
  exact congrArg (fun v => h.tdacEnd v _) (if_pos hr)

theorem Half.tdacVerdict_gain {m : TdacMeas} {h : Half} (hb : h.acq.tdac.busy = true) (ht : tdacCfgTest h.acq.tdac.cfg = 1) :
    h.tdacVerdict m = h.tdacEnd (if m.gainErr.natAbs > 500 || m.ofsErr.natAbs > 200 then 4 else 0) m.gainErr := by
  unfold Half.tdacVerdict
  dsimp only
  rw [if_neg (by simp [hb]), ht]
  rfl

/-! ### The rows of calibration at a half that works -/

section

variable {id : HalfId} {g : Grp} {s : State} (hl : s.live id = true)

include hl

theorem execCalStepStart_of_due {t : Nat} (hn : s.hub.noBg.get id.stew = false) (ht : (s.half id).calNextAt (grpIx g) = some t) :
    execCalStepStart id g s = .next ((s.advanceTo t).onHalf id (Half.calStart (grpIx g))) := by
  unfold execCalStepStart
  rw [hn]
  exact congrArg _ (State.due_of_live _ hl ht)

theorem execCalTakeover_of_shadowing (h1 : ((s.half id).acq.grps.get (grpIx g)).stage = 1) : execCalTakeover id g s =
    .next ((s.advanceTo (((s.half id).acq.grps.get (grpIx g)).start + 160)).onHalf id (Half.calTakeover (grpIx g))) :=
  congrArg _ (State.due_of_live _ hl (if_pos h1))

theorem execCalStepLate_of_lateAt {t : Nat} (ht : ((s.half id).acq.grps.get (grpIx g)).lateAt = some t) : execCalStepLate id g s =
    .next ((s.advanceTo t).onHalf id (Half.calLate (grpIx g))) := congrArg _ (State.due_of_live _ hl ht)

theorem execCalHandback_of_ended (h3 : ((s.half id).acq.grps.get (grpIx g)).stage = 3) : execCalHandback id g s =
    .next ((s.advanceTo (((s.half id).acq.grps.get (grpIx g)).endAt + 160)).onHalf id (Half.calHandback (grpIx g))) :=
  congrArg _ (State.due_of_live _ hl (if_pos h3))

end

end Sys2Proof.Machine

open Sys2Proof Sys2Proof.Machine

/-- Settles O39: the rows by the instant each knows; a step by who has the spare when it begins and ends, a result by what it makes of its
slice, a test by the verdict it ends with. -/
theorem calibrationStepRunsItsStages : Obligations.CalibrationStepRunsItsStages := by
  unfold Obligations.CalibrationStepRunsItsStages
  intro id g ofs gain m s h hl c
  refine ⟨fun t => execCalStepStart_of_due hl, execCalTakeover_of_shadowing hl,
    fun h1 => execCalStepLate_of_lateAt hl (GrpCal.lateAt_of_shadowing h1),
    fun y b rq rest hn hw => execCalStepLate_of_lateAt hl (GrpCal.lateAt_of_waiting hn hw), execCalHandback_of_ended hl,
    congrArg Host.Outcome.next (State.act_of_live _ hl), congrArg Host.Outcome.next (State.act_of_live _ hl), ?_, ?_⟩
  · intro d i x grp done
    refine ⟨fun y rq rest h0 hd ha => ?_, fun y rq rest h0 hd ha => ?_, fun y h0 hd ha he hs hp => ⟨Half.calPick_not_failed hp, ?_⟩,
      Half.calTakeover_of_free, fun h1 ht => ?_, fun h3 ht hi => ⟨Half.calHandback_idle h3 ht hi, fun hf => ?_, fun o k hf hr => ?_⟩,
      fun ho h2 => ?_⟩
    · exact (Half.calStart_of_asked hd ha).trans (Half.calMap_congr (GrpCal.begin_of_free _ _ _ h0))
    · exact (Half.calStart_of_asked hd ha).trans (Half.calMap_congr (GrpCal.begin_of_busy _ _ _ h0))
    · exact (Half.calStart_of_rotation hd ha he hs hp).trans (Half.calMap_congr (GrpCal.begin_of_free _ _ _ h0))
    · intro t e
      have et : t = h.calLateEv.calFinish (grpIx g) 0x0142 := Half.calLate_of_shadowing h1 ht
      have ee : e = d.free (grpIx g) := by
        show t.acq.grps.get _ = _
        rw [et, Half.calFinish_grp, Half.calLateEv_acq]
      refine ⟨?_, fun hw => ?_, fun y b rq rest hw => ?_⟩
      · rw [et, Half.calFinish_acq, Half.calMap_lateCnt, Half.calLateEv_acq]
      · rw [ee, GrpCal.free_of_nil _ hw]
      · rw [ee, GrpCal.free_of_cons hw, GrpCal.run_eq]
        exact ⟨rfl, rfl, rfl, rfl, (ite_eq_or_eq _ 2 1).symm⟩
    · rw [Half.calHandback_of_failed h3 ht hi hf, Half.calFinish_grp, Half.calFinish_out, Half.calMap_grp, GrpCal.free_perm,
        GrpCal.free_susp]
      exact ⟨rfl, rfl, rfl⟩
    · rw [Half.calHandback_of_fresh h3 ht hi hf hr, Half.calFinish_slices, Half.calFinish_out, Half.calTake_slice]
      exact ⟨rfl, rfl, rfl⟩
    · intro y
      obtain ⟨hbad, hfailed⟩ := Half.calResult_slice (h := h) (g := grpIx g) ofs gain ho h2
      refine ⟨fun hofs hgain => ?_, fun hout => ?_⟩
      · have hin : calBad ofs gain = false := Bool.eq_false_iff.mpr (by rw [ne_eq, calBad_iff]; omega)
        rw [hin] at hbad hfailed
        exact ⟨hbad, hfailed.trans (Bool.or_false _)⟩
      · rw [(calBad_iff ofs gain).mpr hout] at hbad hfailed
        refine ⟨hbad, ?_⟩
        rw [hfailed]
        simp [SliceSt.judged, x, i, d]
  · intro t
    refine ⟨Half.tdacVerdict_of_idle m, fun hb ht hr => ?_, fun hb ht ho => ?_, fun hb ht hgain hofs => ?_⟩
    · rw [Half.tdacVerdict_open hb ht hr]
      exact Half.tdacEnd_of_busy _ _ hb
    · rw [Half.tdacVerdict_gain hb ht, if_pos (by simpa using ho)]
      exact Half.tdacEnd_of_busy _ _ hb
    · rw [Half.tdacVerdict_gain hb ht, if_neg (by simp; omega)]
      exact Half.tdacEnd_of_busy _ _ hb

end

section
/-! PROOFS. The sluice engines' program rows: a row reaches the word at its engine's tick, and the counters compute (R348, R349, R351). -/

namespace Sys2Proof.Machine

open Sys2Proof Sys2Proof.Safety

/-! ### One engine of a half -/

@[simp] theorem Half.sleMap_eng_self (e : Fin 8) (f : Sle → Sle) (h : Half) : (h.sleMap e f).eng e = f (h.eng e) := upd_get_self ..

@[simp] theorem Half.sleMap_eng_ne {e f : Fin 8} (hf : f ≠ e) (g : Sle → Sle) (h : Half) : (h.sleMap e g).eng f = h.eng f :=
  upd_get_ne _ _ _ _ hf

theorem Half.sleMap_sleMap (e : Fin 8) (f g : Sle → Sle) (h : Half) : (h.sleMap e f).sleMap e g = h.sleMap e (fun x => g (f x)) :=
  congrArg (fun v => { h with slu := { h.slu with eng := v } }) (upd_upd ..)

/-- Two changes that make the same of an engine make the same of the half. -/
theorem Half.sleMap_congr {e : Fin 8} {f g : Sle → Sle} {h : Half} (he : f (h.eng e) = g (h.eng e)) : h.sleMap e f = h.sleMap e g :=
  congrArg (fun v => { h with slu := { h.slu with eng := v } }) (upd_congr he)

/-- An instruction that changes its engine and completes. -/
theorem Half.sleMap_slDone (e : Fin 8) (f : Sle → Sle) (w : BitVec 24) (h : Half) :
    (h.sleMap e f).slDone e w = h.sleMap e (fun x => (f x).complete w) := Half.sleMap_sleMap ..

/-! ### A word at its engine's tick -/

theorem slIs_iff {op : Nat} {f : BitVec 24 → Bool} {w : BitVec 24} : slIs op f w = true ↔ slOp w = op ∧ f w = true := by
  unfold slIs
  simp

/-- What the terminals tell changes no program word. -/
theorem Half.slTake_slWord (es : List SlEdge) (e : Fin 8) (h : Half) : (h.slTake es).slWord e = h.slWord e := rfl

/-- A row's instruction whose word stands at its engine's PC runs at the engine's tick, the terminals told. -/
theorem exec_of_executes {c : Instr} {id : HalfId} {e : Fin 8} {es : List SlEdge} {sel : BitVec 24 → Bool} {w : BitVec 24} {s : State}
    {f : Half → Half} (hc : exec c s = .next (s.slRow id e es sel)) (hx : Executes id e sel w s)
    (hf : ∀ h : Half, h.slWord e = w → h.slExec e = f h) :
    exec c s = .next ((atTick id e s).onHalf id (fun h => f (h.slTake es))) := by
  rw [hc]
  unfold State.slRow
  rw [State.due_of_live _ hx.live (if_pos hx.ready)]
  refine congrArg _ (State.onHalf_congr (hf _ ?_))
  rw [Half.slTake_slWord]
  exact hx.word

/-! ### COUNT (R351) -/

/-- What COUNT makes of an engine's counters, by its FN. -/
def Sle.counted (fn : Nat) (w : BitVec 24) (x : Sle) : Sle :=
  let imm : Word := BitVec.ofNat 32 (slF w 10 0)
  match fn with
  | 0 => { x with c0 := x.c0 + imm }
  | 1 => { x with c0 := x.c0 - imm }
  | 2 => { x with c1 := x.c1 + imm }
  | 3 => { x with c1 := x.c1 - imm }
  | 4 => { x with c0 := x.c0 - x.c1 }
  | 5 => { x with c0 := x.c0 + x.c1 }
  | 6 => { x with c0 := x.c0 >>> slF w 4 0 }
  | _ => { x with c0 := x.c0 &&& imm }

theorem Half.slCount_eq (e : Fin 8) (w : BitVec 24) (h : Half) :
    h.slCount e w = h.sleMap e (fun x => (x.counted (slF w 14 12) w).complete w) := Half.sleMap_slDone ..

theorem Half.slExec_of_count {e : Fin 8} {w : BitVec 24} {h : Half} (hw : h.slWord e = w) (ho : slOp w = 7) : h.slExec e = h.slCount e w := by
  unfold Half.slExec
  simp only [hw, ho]

/-- The row of a COUNT with a FN counts and completes. -/
theorem exec_of_executes_count {c : Instr} {id : HalfId} {e : Fin 8} {fn : Nat} {w : BitVec 24} {s : State}
    (hc : exec c s = .next (s.slRow id e [] (isCount fn))) (hx : Executes id e (isCount fn) w s) :
    exec c s = .next ((atTick id e s).onHalf id (fun h => (h.slTake []).sleMap e (fun x => (x.counted fn w).complete w))) := by
  obtain ⟨ho, hfn⟩ := slIs_iff.mp hx.kind
  refine exec_of_executes hc hx (f := fun h => h.sleMap e (fun x => (x.counted fn w).complete w)) (fun h hw => ?_)
  rw [Half.slExec_of_count hw ho, Half.slCount_eq, of_decide_eq_true hfn]

/-! ### The next address (R349, R351) -/

theorem Sle.complete_of_next_loop {w : BitVec 24} (x : Sle) (hn : slF w 19 18 = 1) : (x.complete w).pc = sleCfg0LoopAt x.cfg0 := by
  unfold Sle.complete
  simp only [hn]

theorem Sle.complete_of_next_step {w : BitVec 24} (x : Sle) (hn : slF w 19 18 = 0) : (x.complete w).pc = (x.pc + 1) % 64 := by
  unfold Sle.complete
  simp only [hn]

/-- NEXT = 2 repeats the word while C1, counted down, has not run out. -/
theorem Sle.complete_of_next_repeat {w : BitVec 24} (x : Sle) (hn : slF w 19 18 = 2) :
    (x.c1 = 0#32 → (x.complete w).pc = (x.pc + 1) % 64 ∧ (x.complete w).c1 = 0#32) ∧
      (x.c1 ≠ 0#32 → (x.complete w).pc = x.pc ∧ (x.complete w).c1 = x.c1 - 1#32) := by
  unfold Sle.complete
  simp only [hn]
  refine ⟨fun hc => ?_, fun hc => ?_⟩
  · rw [if_pos hc]
    exact ⟨rfl, hc⟩
  · rw [if_neg hc]
    exact ⟨rfl, rfl⟩

end Sys2Proof.Machine

open Sys2Proof Sys2Proof.Machine

/-- Settles O40: every FN by the one change it makes of the counters, at the tick at which its word runs. -/
theorem countInstructionsCompute : Obligations.CountInstructionsCompute := by
  unfold Obligations.CountInstructionsCompute
  intro id e w s
  exact ⟨exec_of_executes_count rfl, exec_of_executes_count rfl, exec_of_executes_count rfl, exec_of_executes_count rfl,
    exec_of_executes_count rfl, exec_of_executes_count rfl, exec_of_executes_count rfl, exec_of_executes_count rfl,
    fun x => ⟨x.complete_of_next_step, x.complete_of_next_loop, x.complete_of_next_repeat, rfl⟩⟩

end

section
/-! PROOFS. SIGNAL and PINS: a group's flags within one SLUCLK period, and the pins an engine owns (R345, R351, R353, R407). -/

namespace Sys2Proof.Machine

open Sys2Proof Sys2Proof.Safety

/-! ### SIGNAL (R351, R353, R407) -/

theorem Half.slExec_of_signal {e : Fin 8} {w : BitVec 24} {h : Half} (hw : h.slWord e = w) (ho : slOp w = 8) :
    h.slExec e = h.slSignal e w := by
  unfold Half.slExec
  simp only [hw, ho]

/-- What SIGNAL does, by its KIND, before it completes. -/
def Half.signals (e : Fin 8) (w : BitVec 24) (kind : Nat) (h : Half) : Half :=
  let i := slF w 3 0
  let b : BitVec 16 := BitVec.ofNat 16 (2 ^ i)
  match kind with
  | 0 => h.slgMap (grpOf e) (Slg.setFlag (h.now / 4) b)
  | 1 => h.slgMap (grpOf e) (Slg.clearFlag (h.now / 4) b)
  | _ => h.emit (.weir (h.id.weirBase + 0x020 + 8 * e.1 + i % 8) 0 false h.frame (BitVec.ofNat 32 (i % 8)))

theorem Half.slSignal_eq (e : Fin 8) (w : BitVec 24) (h : Half) : h.slSignal e w = (h.signals e w (slF w 14 13)).slDone e w := rfl

/-- The row of a SIGNAL with a KIND does what the KIND says and completes. -/
theorem exec_of_executes_signal {c : Instr} {id : HalfId} {e : Fin 8} {kind : Nat} {w : BitVec 24} {s : State}
    (hc : exec c s = .next (s.slRow id e [] (isSignal kind))) (hx : Executes id e (isSignal kind) w s) :
    exec c s = .next ((atTick id e s).onHalf id (fun h => ((h.slTake []).signals e w kind).slDone e w)) := by
  obtain ⟨ho, hk⟩ := slIs_iff.mp hx.kind
  refine exec_of_executes hc hx (f := fun h => (h.signals e w kind).slDone e w) (fun h hw => ?_)
  rw [Half.slExec_of_signal hw ho, Half.slSignal_eq, of_decide_eq_true hk]

theorem Slg.clearFlag_of_other_period {n : Nat} (b : BitVec 16) {g : Slg} (hn : g.setAt ≠ n) :
    (g.clearFlag n b).flags = g.flags &&& ~~~b := by
  unfold Slg.clearFlag
  rw [if_neg hn]

theorem Slg.clearFlag_of_same_period {n : Nat} (b : BitVec 16) {g : Slg} (hn : g.setAt = n) :
    (g.clearFlag n b).flags = g.flags &&& ~~~(b &&& ~~~g.sets) := by
  unfold Slg.clearFlag
  rw [if_pos hn]

/-- A set wins over a clear of the same SLUCLK period: nothing of what is to be cleared is left to clear. -/
theorem Slg.clearFlag_setFlag (n : Nat) (b : BitVec 16) (g : Slg) : ((g.setFlag n b).clearFlag n b).flags = (g.setFlag n b).flags := by
  have won (a : BitVec 16) : b &&& ~~~(a ||| b) = 0#16 := by
    ext i
    simp +contextual
  refine (Slg.clearFlag_of_same_period b (n := n) (g := g.setFlag n b) rfl).trans ?_
  show _ &&& ~~~(b &&& ~~~(_ ||| b)) = _
  rw [won, BitVec.not_zero, BitVec.and_allOnes]

/-! ### PINS (R345, R351) -/

theorem Half.slExec_of_pins {e : Fin 8} {w : BitVec 24} {h : Half} (hw : h.slWord e = w) (ho : slOp w = 5) : h.slExec e = h.slPins e w := by
  unfold Half.slExec
  simp only [hw, ho]

/-- What PINS does to each pin of the DRV window, `f` to the pin at an index, before it completes. -/
def Half.drvWindow (e : Fin 8) (w : BitVec 24) (f : Nat → Bool → Half → Half) (h : Half) : Half :=
  eachOf (List.range (min 5 (sleCfg1DrvCnt (h.eng e).cfg1))) (fun k t => f (sleCfg1DrvBase (h.eng e).cfg1 + k) ((slF w 4 0).testBit k) t) h

theorem Half.slPins_of_level {e : Fin 8} {w : BitVec 24} (h : Half) (hw : slF w 14 14 = 0) :
    h.slPins e w = (h.drvWindow e w (Half.slDrive e)).slDone e w := by
  unfold Half.slPins
  simp only [hw]
  rfl

theorem Half.slPins_of_direction {e : Fin 8} {w : BitVec 24} (h : Half) (hw : slF w 14 14 = 1) :
    h.slPins e w = (h.drvWindow e w (Half.slDir e)).slDone e w := by
  unfold Half.slPins
  simp only [hw]
  rfl

/-- The row of a PINS with a TGT goes over the DRV window and completes. -/
theorem exec_of_executes_pins {c : Instr} {id : HalfId} {e : Fin 8} {tgt : Nat} {w : BitVec 24} {s : State} {f : Nat → Bool → Half → Half}
    (hc : exec c s = .next (s.slRow id e [] (slIs 5 (fun w => slF w 14 14 = tgt))))
    (hf : ∀ h : Half, slF w 14 14 = tgt → h.slPins e w = (h.drvWindow e w f).slDone e w)
    (hx : Executes id e (slIs 5 (fun w => slF w 14 14 = tgt)) w s) :
    exec c s = .next ((atTick id e s).onHalf id (fun h => ((h.slTake []).drvWindow e w f).slDone e w)) := by
  obtain ⟨ho, hk⟩ := slIs_iff.mp hx.kind
  refine exec_of_executes hc hx (f := fun h => (h.drvWindow e w f).slDone e w) (fun h hw => ?_)
  rw [Half.slExec_of_pins hw ho, hf h (of_decide_eq_true hk)]

theorem Half.slDrive_of_owned {e : Fin 8} {n : Fin 16} {h : Half} (b : Bool) (ho : h.slOwns e n.1 = true) :
    h.slDrive e n.1 b = { h with slu := { h.slu with pins := upd h.slu.pins n (fun p => { p with lvl := b }) } } := by
  unfold Half.slDrive
  rw [ho, fin?_val]
  rfl

theorem Half.slDir_of_owned {e : Fin 8} {n : Fin 16} {h : Half} (b : Bool) (ho : h.slOwns e n.1 = true) :
    h.slDir e n.1 b = { h with slu := { h.slu with pins := upd h.slu.pins n (fun p => { p with dir := b }) } } := by
  unfold Half.slDir
  rw [ho, fin?_val]
  rfl

theorem Half.slDrive_of_foreign {e : Fin 8} {i : Nat} {h : Half} (b : Bool) (ho : h.slOwns e i = false) : h.slDrive e i b = h :=
  if_pos (by rw [ho]; rfl)

theorem Half.slDir_of_foreign {e : Fin 8} {i : Nat} {h : Half} (b : Bool) (ho : h.slOwns e i = false) : h.slDir e i b = h :=
  if_pos (by rw [ho]; rfl)

end Sys2Proof.Machine

open Sys2Proof Sys2Proof.Machine

/-- Settles O42: SIGNAL by its KIND, PINS by the way it goes over its window and what ownership decides at each pin of it. -/
theorem signalsAndPinsAct : Obligations.SignalsAndPinsAct := by
  unfold Obligations.SignalsAndPinsAct
  intro id e w s
  exact ⟨exec_of_executes_signal rfl, exec_of_executes_signal rfl,
    fun n b g => ⟨rfl, Slg.clearFlag_of_other_period b, Slg.clearFlag_of_same_period b, g.clearFlag_setFlag n b⟩,
    exec_of_executes_signal rfl, exec_of_executes_pins rfl Half.slPins_of_level, exec_of_executes_pins rfl Half.slPins_of_direction,
    fun h n b ho => ⟨Half.slDrive_of_owned b ho, Half.slDir_of_owned b ho⟩,
    fun h i b ho => ⟨Half.slDrive_of_foreign b ho, Half.slDir_of_foreign b ho⟩⟩

end

section
/-! PROOFS. The queues of a sluice engine: words that enter and leave them, a fill, and QUEUE by its OPN (R351, R354, R356, R357). -/

namespace Sys2Proof.Machine

open Sys2Proof Sys2Proof.Safety

/-! ### What an operation of one engine leaves of the others -/

/-- The engines but one are the same in two halves. -/
def Half.Spares (e : Fin 8) (h t : Half) : Prop := ∀ f, f ≠ e → t.eng f = h.eng f

namespace Half.Spares

variable {e : Fin 8} {h t u : Half}

theorem same (e : Fin 8) (h : Half) : Spares e h h := fun _ _ => rfl

theorem then_ (ht : Spares e h t) (hu : Spares e t u) : Spares e h u := fun f hf => (hu f hf).trans (ht f hf)

theorem of_slu (hs : u.slu = t.slu) (ht : Spares e h t) : Spares e h u := fun f hf => (congrArg (fun x => x.eng.get f) hs).trans (ht f hf)

theorem sleMap (ht : Spares e h t) (f : Sle → Sle) : Spares e h (t.sleMap e f) := ht.then_ (fun _ hf => Half.sleMap_eng_ne hf f t)

theorem slDone (ht : Spares e h t) (w : BitVec 24) : Spares e h (t.slDone e w) := ht.sleMap _

theorem slStall (ht : Spares e h t) : Spares e h (t.slStall e) := ht.sleMap _

end Half.Spares

/-! ### Events change no engine -/

theorem Half.eng_of_slu {h t : Half} (hs : t.slu = h.slu) (e : Fin 8) : t.eng e = h.eng e := congrArg (fun x => x.eng.get e) hs

theorem Half.sleMap_slu_congr {h t : Half} (e : Fin 8) (f : Sle → Sle) (hs : t.slu = h.slu) : (t.sleMap e f).slu = (h.sleMap e f).slu :=
  congrArg (fun x : Slu => { x with eng := upd x.eng e f }) hs

/-- An instruction that has changed its engine, whatever it told, completes. -/
theorem Half.slDone_eng {e : Fin 8} {h t : Half} {f : Sle → Sle} (hs : t.slu = (h.sleMap e f).slu) (w : BitVec 24) :
    (t.slDone e w).eng e = (f (h.eng e)).complete w := by
  refine (Half.eng_of_slu (Half.sleMap_slu_congr e (Sle.complete w) hs) e).trans ?_
  rw [Half.sleMap_eng_self, Half.sleMap_eng_self]

@[simp] theorem Half.slEvent_slu (c : Nat) (h : Half) : (h.slEvent c).slu = h.slu := Half.raise_slu ..

theorem Half.slOvr_slu (e : Fin 8) (h : Half) : (h.slOvr e).slu = (h.sleMap e (fun x => { x with ovr := true })).slu := Half.slEvent_slu ..

theorem Half.slUnr_slu (e : Fin 8) (h : Half) : (h.slUnr e).slu = (h.sleMap e (fun x => { x with unr := true })).slu := Half.slEvent_slu ..

/-- A class that a half counts tells the hub of its Weir record alone (R460). -/
theorem Half.raise_out_of_half {c : Nat} (hc : cntHalf c = true) (loc : Word) (h : Half) :
    (h.raise c loc).out = h.out ++ [.weir (h.id.weirBase + 0x080 + c) 0 false h.frame loc] := by
  unfold Half.raise
  simp [hc]

/-! ### Words that enter RX and leave TX (R356) -/

theorem Half.rxPush_slu (e : Fin 8) (v : Word) (h : Half) : (h.rxPush e v).slu = (h.sleMap e (fun x => { x with rx := x.rx ++ [v] })).slu := by
  unfold Half.rxPush
  dsimp only
  split <;> rfl

theorem Half.slStore_slu (e : Fin 8) (h : Half) :
    (h.slStore e).slu = (h.sleMap e (fun x => { x with rx := x.rx ++ [(h.eng e).got], inGot := 0 })).slu := by
  unfold Half.slStore
  rw [Half.sleMap_slu_congr e _ (Half.rxPush_slu e _ h), Half.sleMap_sleMap]

theorem Half.txTake_of_none {e : Fin 8} {h : Half} (hs : h.txSeen e = []) : h.txTake e = (none, h) := by
  unfold Half.txTake
  rw [hs]

theorem Half.txTake_of_seen {e : Fin 8} {h : Half} {v : Word} {l : List Word} (hs : h.txSeen e = v :: l) :
    ∃ t, h.txTake e = (some v, t) ∧ t.slu = (h.sleMap e (fun x => { x with tx := x.tx.tail })).slu := by
  unfold Half.txTake
  rw [hs]
  refine ⟨_, rfl, ?_⟩
  split <;> rfl

/-- The words an engine can take are the first of its queue. -/
theorem Sle.txSeen_cons {x : Sle} {n : Nat} {v : Word} {rest : List Word} (ht : x.tx = v :: rest) (hs : x.txSeen n ≠ []) :
    ∃ l, x.txSeen n = v :: l := by
  unfold Sle.txSeen at hs ⊢
  split
  · next hn =>
    rw [if_pos hn, ht] at hs
    rw [ht]
    generalize (v :: rest).length - x.txNew = k at hs ⊢
    cases k with
    | zero => exact absurd rfl hs
    | succ k => exact ⟨_, rfl⟩
  · exact ⟨rest, ht⟩

theorem Half.txTake_of_cons {e : Fin 8} {h : Half} {v : Word} {rest : List Word} (ht : (h.eng e).tx = v :: rest) (hs : h.txSeen e ≠ []) :
    ∃ t, h.txTake e = (some v, t) ∧ t.slu = (h.sleMap e (fun x => { x with tx := rest })).slu := by
  obtain ⟨l, hl⟩ := Sle.txSeen_cons ht hs
  obtain ⟨t, he, hslu⟩ := Half.txTake_of_seen hl
  refine ⟨t, he, hslu.trans (congrArg Half.slu (Half.sleMap_congr ?_))⟩
  rw [ht]
  rfl

/-! ### A fill (R354) -/

theorem Half.slFill_of_none {e : Fin 8} {h : Half} (hs : h.txSeen e = []) : h.slFill e = none := if_pos (by rw [hs]; rfl)

/-- With no bits received a fill loads the word that leaves TX. -/
theorem Half.slFill_of_cons {e : Fin 8} {h : Half} {v : Word} {rest : List Word} (ht : (h.eng e).tx = v :: rest) (hs : h.txSeen e ≠ [])
    (hg : (h.eng e).inGot = 0) :
    ∃ t, h.slFill e = some t ∧ t.slu = (h.sleMap e (fun x => { x with tx := rest, sr := v, outLeft := 32, inGot := 0 })).slu := by
  obtain ⟨t, he, hslu⟩ := Half.txTake_of_cons ht hs
  refine ⟨t.sleMap e (fun x => { x with sr := v, outLeft := 32, inGot := 0 }), ?_, ?_⟩
  · unfold Half.slFill
    simp [hg, hs, he]
  · rw [Half.sleMap_slu_congr e _ hslu, Half.sleMap_sleMap]

namespace Half.Spares

variable {e : Fin 8} {h t : Half}

theorem txTake (ht : Spares e h t) : Spares e h (t.txTake e).2 := by
  rcases hs : t.txSeen e with _ | ⟨v, l⟩
  · rw [Half.txTake_of_none hs]
    exact ht
  · obtain ⟨u, he, hslu⟩ := Half.txTake_of_seen hs
    rw [he]
    exact of_slu hslu (ht.sleMap _)

theorem slStore (ht : Spares e h t) : Spares e h (t.slStore e) := of_slu (Half.slStore_slu e t) (ht.sleMap _)

theorem slOvr (ht : Spares e h t) : Spares e h (t.slOvr e) := of_slu (Half.slOvr_slu e t) (ht.sleMap _)

theorem slUnr (ht : Spares e h t) : Spares e h (t.slUnr e) := of_slu (Half.slUnr_slu e t) (ht.sleMap _)

theorem slFill (hf : h.slFill e = some t) : Spares e h t := by
  unfold Half.slFill at hf
  extract_lets x h1 at hf
  have h1s : Spares e h h1 := by
    simp only [h1]
    split
    · exact .same e h
    · split
      · exact (Spares.same e h).slStore
      · exact (Spares.same e h).slOvr
  have h2s := h1s.txTake
  clear_value h1
  split at hf
  · cases hf
  · split at hf
    · cases hf
    · generalize h1.txTake e = r at hf h2s
      obtain ⟨_ | v, h2⟩ := r
      · cases hf
      · exact Option.some.inj hf ▸ h2s.sleMap _

end Half.Spares

/-! ### QUEUE (R351, R357) -/

theorem Half.slExec_of_queue {e : Fin 8} {w : BitVec 24} {h : Half} (hw : h.slWord e = w) (ho : slOp w = 4) : h.slExec e = h.slQueue e w := by
  unfold Half.slExec
  simp only [hw, ho]

theorem exec_of_executes_queue {c : Instr} {id : HalfId} {e : Fin 8} {opn : Nat} {w : BitVec 24} {s : State}
    (hc : exec c s = .next (s.slRow id e [] (isQueue opn))) (hx : Executes id e (isQueue opn) w s) :
    exec c s = .next ((atTick id e s).onHalf id (fun h => (h.slTake []).slQueue e w)) :=
  exec_of_executes hc hx (f := fun h => h.slQueue e w) (fun _ hw => Half.slExec_of_queue hw (slIs_iff.mp hx.kind).1)

section
variable {e : Fin 8} {w : BitVec 24} {h : Half}

theorem Half.slQueue_of_filled {t : Half} (hn : slF w 14 12 = 0) (hf : h.slFill e = some t) : h.slQueue e w = t.slDone e w := by
  unfold Half.slQueue
  simp only [hn, hf]

theorem Half.slQueue_of_taken_c0 {t : Half} {v : Word} (hn : slF w 14 12 = 3) (ht : h.txTake e = (some v, t)) :
    h.slQueue e w = (t.sleMap e (fun x => { x with c0 := v })).slDone e w := by
  unfold Half.slQueue
  simp only [hn, ht]
  rfl

theorem Half.slQueue_of_taken_c1 {t : Half} {v : Word} (hn : slF w 14 12 = 4) (ht : h.txTake e = (some v, t)) :
    h.slQueue e w = (t.sleMap e (fun x => { x with c1 := v })).slDone e w := by
  unfold Half.slQueue
  simp only [hn, ht]
  rfl

/-- A word of the row from an empty TX queue waits, or counts the underrun and goes on. -/
theorem Half.slQueue_of_tx_empty (hs : h.txSeen e = []) (hn : slF w 14 12 = 0 ∨ slF w 14 12 = 3 ∨ slF w 14 12 = 4) :
    h.slQueue e w = if slF w 11 11 = 1 then h.slStall e else (h.slUnr e).slDone e w := by
  unfold Half.slQueue
  rcases hn with hn | hn | hn
  · simp only [hn, Half.slFill_of_none hs, hs]
    simp
  · simp only [hn, Half.txTake_of_none hs]
  · simp only [hn, Half.txTake_of_none hs]

theorem Half.slQueue_of_store (hn : slF w 14 12 = 1) : h.slQueue e w =
    if (h.eng e).rxRoom then (h.slStore e).slDone e w
    else if slF w 11 11 = 1 then h.slStall e
    else ((h.sleMap e (fun x => { x with inGot := 0 })).slOvr e).slDone e w := by
  unfold Half.slQueue
  simp only [hn]

theorem Half.slQueue_of_store_c0 (hn : slF w 14 12 = 2) : h.slQueue e w =
    if (h.eng e).rxRoom then (h.rxPush e (h.eng e).c0).slDone e w
    else if slF w 11 11 = 1 then h.slStall e
    else (h.slOvr e).slDone e w := by
  unfold Half.slQueue
  simp only [hn]

/-- A QUEUE changes no other engine. -/
theorem Half.slQueue_spares (e : Fin 8) (w : BitVec 24) (h : Half) : Spares e h (h.slQueue e w) := by
  have own := Spares.same e h
  have waits : Spares e h (if slF w 11 11 = 1 then h.slStall e else (h.slUnr e).slDone e w) := by
    split
    · exact own.slStall
    · exact own.slUnr.slDone w
  unfold Half.slQueue
  dsimp only
  split
  · split
    · next hf => exact (Spares.slFill hf).slDone w
    · split
      · exact own.slStall
      · exact own.slUnr.slDone w
  · split
    · exact own.slStore.slDone w
    · split
      · exact own.slStall
      · exact (own.sleMap _).slOvr.slDone w
  · split
    · exact (Spares.of_slu (Half.rxPush_slu e _ h) (own.sleMap _)).slDone w
    · split
      · exact own.slStall
      · exact own.slOvr.slDone w
  · have taken := own.txTake
    generalize h.txTake e = r at taken
    obtain ⟨_ | v, t⟩ := r
    · exact waits
    · exact (taken.sleMap _).slDone w

end

end Sys2Proof.Machine

open Sys2Proof Sys2Proof.Machine

/-- Settles O41: each OPN by the one update of its engine that it makes, with a word or with room, and by what it does without. -/
theorem queueInstructionsMoveWords : Obligations.QueueInstructionsMoveWords := by
  unfold Obligations.QueueInstructionsMoveWords
  intro id e w s h
  refine ⟨exec_of_executes_queue rfl, exec_of_executes_queue rfl, exec_of_executes_queue rfl, exec_of_executes_queue rfl,
    exec_of_executes_queue rfl, fun hn => if_neg hn, fun hn => if_pos hn, fun v rest ht hs => ⟨fun hn hg => ?_, fun hn => ?_, fun hn => ?_⟩,
    fun hr => ⟨fun hn => ?_, fun hn => ?_⟩, fun hs hn => ⟨fun hb => ?_, fun hb => ?_⟩,
    fun hr => ⟨fun hn hb => ?_, fun hn hb => ?_, fun hn hb => ?_⟩, h.slQueue_spares e w⟩
  · obtain ⟨t, hf, hslu⟩ := Half.slFill_of_cons ht hs hg
    rw [Half.slQueue_of_filled hn hf]
    exact Half.slDone_eng hslu w
  · obtain ⟨t, he, hslu⟩ := Half.txTake_of_cons ht hs
    rw [Half.slQueue_of_taken_c0 hn he]
    exact Half.slDone_eng ((Half.sleMap_slu_congr e _ hslu).trans (congrArg Half.slu (Half.sleMap_sleMap ..))) w
  · obtain ⟨t, he, hslu⟩ := Half.txTake_of_cons ht hs
    rw [Half.slQueue_of_taken_c1 hn he]
    exact Half.slDone_eng ((Half.sleMap_slu_congr e _ hslu).trans (congrArg Half.slu (Half.sleMap_sleMap ..))) w
  · rw [Half.slQueue_of_store hn, if_pos hr]
    exact Half.slDone_eng (Half.slStore_slu e h) w
  · rw [Half.slQueue_of_store_c0 hn, if_pos hr]
    exact Half.slDone_eng (Half.rxPush_slu e _ h) w
  · rw [Half.slQueue_of_tx_empty hs hn, if_pos hb]
  · rw [Half.slQueue_of_tx_empty hs hn, if_neg hb]
  · rcases hn with hn | hn
    · rw [Half.slQueue_of_store hn, hr, if_pos hb]
      rfl
    · rw [Half.slQueue_of_store_c0 hn, hr, if_pos hb]
      rfl
  · rw [Half.slQueue_of_store hn, hr, if_neg hb]
    refine ⟨Half.slDone_eng ((Half.slOvr_slu ..).trans (congrArg Half.slu (Half.sleMap_sleMap ..))) w, ?_⟩
    exact (congrArg List.length (Half.raise_out_of_half (by decide) _ _)).trans List.length_append
  · rw [Half.slQueue_of_store_c0 hn, hr, if_neg hb]
    exact Half.slDone_eng (Half.slOvr_slu e h) w

end

section
/-! PROOFS. Shifts in progress, and what a halt ends and keeps (R355, R360). -/

namespace Sys2Proof.Machine

open Sys2Proof

/-! ### A stall (R349, R354) -/

theorem Half.slStall_eng_stall (e : Fin 8) (h : Half) : ((h.slStall e).eng e).stall = true := by
  unfold Half.slStall
  rw [Half.sleMap_eng_self]
  split
  · assumption
  · rfl

/-- A stall neither begins nor ends a shift. -/
@[simp] theorem Half.slStall_eng_inShift (e : Fin 8) (h : Half) : ((h.slStall e).eng e).inShift = (h.eng e).inShift := by
  unfold Half.slStall
  rw [Half.sleMap_eng_self]
  split <;> rfl

theorem Sle.txSeen_of_nil {x : Sle} (ht : x.tx = []) (n : Nat) : x.txSeen n = [] := by
  unfold Sle.txSeen
  rw [ht, List.take_nil, ite_self]

/-- An automatic fill that finds no word makes its SHIFT wait. -/
theorem Half.slShift_of_no_word {e : Fin 8} {h : Half} (w : BitVec 24) (hm : (h.eng e).mid = false) (ha : sleCfg0Autofill (h.eng e).cfg0 = true)
    (ho : (h.eng e).outLeft = 0) (hs : h.txSeen e = []) : h.slShift e w = h.slStall e := by
  unfold Half.slShift
  simp [hm, ha, ho, Half.slFill_of_none hs]

theorem Sle.inShift_iff (x : Sle) : x.inShift = true ↔ 1 ≤ x.inGot ∨ 1 ≤ x.outLeft := by
  unfold Sle.inShift
  simp [Nat.one_le_iff_ne_zero, Nat.pos_iff_ne_zero]

/-! ### A halt (R360) -/

/-- A halted engine. -/
def Sle.halted (x : Sle) : Sle :=
  { x with st := 1, stall := false, mid := false, wait := 0, outLeft := 0, inGot := 0, abandon := x.abandon || x.inShift }

/-- A halt changes its engine and, where that was in a shift, raises SLE_SHIFT_ABANDONED. -/
theorem Half.slHalt_eq (e : Fin 8) (h : Half) :
    h.slHalt e = if (h.eng e).inShift then (h.sleMap e Sle.halted).slEvent 0x46 else h.sleMap e Sle.halted := rfl

theorem Half.slHalt_slu (e : Fin 8) (h : Half) : (h.slHalt e).slu = (h.sleMap e Sle.halted).slu := by
  rw [Half.slHalt_eq]
  split
  · exact Half.slEvent_slu ..
  · rfl

@[simp] theorem Half.slHalt_chans (e : Fin 8) (h : Half) : (h.slHalt e).chans = h.chans := by
  rw [Half.slHalt_eq]
  split
  · exact Half.raise_chans ..
  · rfl

theorem Half.slHalt_eng_self (e : Fin 8) (h : Half) : (h.slHalt e).eng e = (h.eng e).halted := by
  rw [Half.eng_of_slu (Half.slHalt_slu e h), Half.sleMap_eng_self]

end Sys2Proof.Machine

open Sys2Proof Sys2Proof.Machine

/-- Settles O45: a shift is told by its two counts, which no stall touches; a halt is one update of its engine. -/
theorem haltsEndShiftsInProgress : Obligations.HaltsEndShiftsInProgress := by
  unfold Obligations.HaltsEndShiftsInProgress
  refine ⟨⟨fun x hg ho => ⟨?_, fun b => rfl⟩, fun e w h hm ha ho ht hg _ => ?_⟩, fun e h => ?_⟩
  · rw [Sle.inShift_iff, and_iff_left hg, and_iff_left ho]
  · rw [Half.slShift_of_no_word w hm ha ho (Sle.txSeen_of_nil ht _), Half.slStall_eng_inShift]
    exact ⟨h.slStall_eng_stall e, by rw [Bool.eq_false_iff, ne_eq, Sle.inShift_iff, hg, ho]; omega⟩
  · have others : Half.Spares e h (h.slHalt e) := Half.Spares.of_slu (h.slHalt_slu e) ((Half.Spares.same e h).sleMap _)
    dsimp only
    rw [Half.slHalt_eng_self]
    exact ⟨rfl, rfl, rfl, rfl, rfl, rfl, rfl, rfl, h.slHalt_chans e, (congrArg Slu.pins (h.slHalt_slu e)).trans rfl, others⟩

end

section
/-! PROOFS. JUMP, WAIT, SHIFT, LOAD and STAMP: the rows at their tick, and what each word makes of its engine (R347, R350, R351, R353, R354). -/

namespace Sys2Proof.Machine

open Sys2Proof

/-! ### The instruction at PC, by its OP (R351) -/

section
variable {e : Fin 8} {w : BitVec 24} {h : Half}

theorem Half.slExec_of_jump (hw : h.slWord e = w) (ho : slOp w = 0) : h.slExec e = h.slJump e w := by
  unfold Half.slExec
  simp only [hw, ho]

theorem Half.slExec_of_wait (hw : h.slWord e = w) (ho : slOp w = 1) : h.slExec e = h.slWait e w := by
  unfold Half.slExec
  simp only [hw, ho]

theorem Half.slExec_of_shift (hw : h.slWord e = w) (ho : slOp w = 2) : h.slExec e = h.slShift e w := by
  unfold Half.slExec
  simp only [hw, ho]

theorem Half.slExec_of_stamp_arm (hw : h.slWord e = w) (ho : slOp w = 3) (ha : slF w 13 13 = 1) : h.slExec e = h.slStampArm e w := by
  unfold Half.slExec
  simp only [hw, ho, if_pos ha]

theorem Half.slExec_of_stamp_measure (hw : h.slWord e = w) (ho : slOp w = 3) (ha : slF w 13 13 = 0) :
    h.slExec e = h.slStampMeasure e w := by
  unfold Half.slExec
  simp only [hw, ho, ha]
  rfl

theorem Half.slExec_of_load (hw : h.slWord e = w) (ho : slOp w = 6) : h.slExec e = h.slLoad e w := by
  unfold Half.slExec
  simp only [hw, ho]

/-! ### JUMP and WAIT (R351) -/

theorem Half.slTest_of_always (hn : slF w 14 11 = 0) : h.slTest e w = true := by
  unfold Half.slTest
  simp only [hn]

theorem Half.slTest_of_c0_zero (hn : slF w 14 11 = 1) : h.slTest e w = decide ((h.eng e).c0 = 0#32) := by
  unfold Half.slTest
  simp only [hn]

theorem Half.slTest_of_watch_pin (hn : slF w 14 11 = 6) : h.slTest e w = h.slPin (sleCfg0Wpin (h.eng e).cfg0) := by
  unfold Half.slTest
  simp only [hn]

theorem Half.slCond_of_pin (hn : slF w 14 12 = 0) : h.slCond e w = decide (h.slPin (slF w 5 0) = decide (slF w 11 11 = 1)) := by
  unfold Half.slCond
  simp only [hn]
  cases h.slPin (slF w 5 0) <;> simp

theorem Half.slCond_of_tx (hn : slF w 14 12 = 4) : h.slCond e w = !(h.eng e).tx.isEmpty := by
  unfold Half.slCond
  simp only [hn]

theorem Half.slCond_of_rx (hn : slF w 14 12 = 5) : h.slCond e w = (h.eng e).rxRoom := by
  unfold Half.slCond
  simp only [hn]

/-- A WAIT for anything but an edge completes where its condition holds. -/
theorem Half.slWait_of_met (hn : slF w 14 12 ≠ 1) (hc : h.slCond e w = true) : h.slWait e w = h.slDone e w := by
  unfold Half.slWait
  rw [if_pos hc, if_neg hn]

theorem Half.slWait_of_unmet (hc : h.slCond e w = false) : h.slWait e w = h.slStall e := by
  unfold Half.slWait
  rw [hc]
  rfl

/-! ### SHIFT (R354) -/

/-- A SHIFT to nowhere moves SR alone. -/
theorem Half.slMove_of_within (hn : slF w 9 8 = 2) : h.slMove e w = h.sleMap e (fun y => { y with
    sr := if sleCfg0SrDir (h.eng e).cfg0 then ((h.eng e).sr <<< shiftN w) ||| BitVec.ofNat 32 (h.entering e (slF w 7 5) (shiftN w))
      else ((h.eng e).sr >>> shiftN w) ||| (BitVec.ofNat 32 (h.entering e (slF w 7 5) (shiftN w)) <<< (32 - shiftN w))
    outLeft := (h.eng e).outLeft - shiftN w
    inGot := min 32 ((h.eng e).inGot + shiftN w) }) := by
  unfold Half.slMove
  simp only [hn]

theorem Half.slShiftEnd_of_no_store (ha : sleCfg0Autostore (h.eng e).cfg0 = false) : h.slShiftEnd e w = h.slDone e w :=
  if_neg (by simp [ha])

/-- Where no fill is due a SHIFT moves its bits. -/
theorem Half.slShift_of_no_fill (hm : (h.eng e).mid = false) (hf : sleCfg0Autofill (h.eng e).cfg0 = false ∨ (h.eng e).outLeft ≠ 0) :
    h.slShift e w = (h.slMove e w).slShiftEnd e w := by
  unfold Half.slShift
  rw [if_neg (by simp [hm]), if_neg (by simpa [imp_iff_not_or] using hf)]

theorem Half.slShift_of_within (hn : slF w 9 8 = 2) (hm : (h.eng e).mid = false)
    (hf : sleCfg0Autofill (h.eng e).cfg0 = false ∨ (h.eng e).outLeft ≠ 0) (ha : sleCfg0Autostore (h.eng e).cfg0 = false) :
    h.slShift e w = (h.slMove e w).slDone e w := by
  rw [Half.slShift_of_no_fill hm hf, Half.slShiftEnd_of_no_store]
  rw [Half.slMove_of_within hn, Half.sleMap_eng_self]
  exact ha

/-! ### LOAD (R351, R353) -/

theorem slF_lt (w : BitVec 24) (hi lo : Nat) : slF w hi lo < 2 ^ (hi - lo + 1) := Nat.mod_lt _ (Nat.two_pow_pos _)

/-- An immediate fits the word it is extended to. -/
theorem toNat_imm (w : BitVec 24) : (BitVec.ofNat 32 (slF w 10 0)).toNat = slF w 10 0 :=
  Nat.mod_eq_of_lt ((slF_lt w 10 0).trans (by decide))

/-- A LOAD to a destination. -/
def Half.loads (e : Fin 8) (w : BitVec 24) (v : Word) (dst : Nat) (h : Half) : Half :=
  match dst with
  | 0 => (h.sleMap e (fun x => { x with c0 := v })).slDone e w
  | 1 => (h.sleMap e (fun x => { x with c1 := v })).slDone e w
  | 2 => (h.sleMap e (fun x => { x with sr := v, outLeft := 32, inGot := 0 })).slDone e w
  | 3 =>
    if sleCfg2RegLo (h.eng e).cfg2 ≤ v.toNat && v.toNat ≤ sleCfg2RegHi (h.eng e).cfg2 then h.sleMap e (Sle.branch w v.toNat)
    else h.slAddrFault e
  | _ => (h.sleMap e (fun x => { x with tprev := v })).slDone e w

theorem Half.slLoad_of_imm {dst : Nat} (hi : slF w 11 11 = 1) (hd : slF w 14 12 = dst) :
    h.slLoad e w = h.loads e w (BitVec.ofNat 32 (slF w 10 0)) dst := by
  subst hd
  exact congrArg (fun v => h.loads e w v (slF w 14 12)) (if_pos hi)

/-- A LOAD to PC within the region goes to its address. -/
theorem Half.loads_of_region {v : Word} (hlo : sleCfg2RegLo (h.eng e).cfg2 ≤ v.toNat) (hhi : v.toNat ≤ sleCfg2RegHi (h.eng e).cfg2) :
    h.loads e w v 3 = h.sleMap e (Sle.branch w v.toNat) := if_pos (by simp [hlo, hhi])

theorem Half.loads_of_beyond {v : Word} (hhi : sleCfg2RegHi (h.eng e).cfg2 < v.toNat) : h.loads e w v 3 = h.slAddrFault e :=
  if_neg (by simp [hhi])

theorem Half.slAddrFault_eng (e : Fin 8) (h : Half) : (h.slAddrFault e).eng e = ({ h.eng e with addr := true } : Sle).halted := by
  unfold Half.slAddrFault
  rw [Half.slHalt_eng_self, Half.eng_of_slu (Half.slEvent_slu ..), Half.sleMap_eng_self]

/-! ### STAMP (R350, R351) -/

section
variable {rising : Bool}

/-- An arming STAMP that begins clears the latch of its polarity and waits. -/
theorem Half.slStampArm_of_begin (hp : decide (slF w 14 14 = 1) = rising) (hs : (h.eng e).stall = false) :
    h.slStampArm e w = (h.sleMap e (Sle.setLatch rising none)).slStall e := by
  unfold Half.slStampArm
  rw [if_pos (by rw [hs]; rfl), hp]

/-- An arming STAMP takes the edge it has waited for as TPREV. -/
theorem Half.slStampArm_of_edge {v : Word} (hp : decide (slF w 14 14 = 1) = rising) (hs : (h.eng e).stall = true)
    (hl : (h.eng e).latch rising = some v) :
    h.slStampArm e w = h.sleMap e (fun x => ({ x.setLatch rising none with tprev := v, timeout := false } : Sle).complete w) := by
  unfold Half.slStampArm
  rw [if_neg (by rw [hs]; decide), hp, hl]
  exact Half.sleMap_slDone ..

/-- A measuring STAMP takes an edge at once. -/
theorem Half.slStampMeasure_of_edge {v : Word} (hp : decide (slF w 14 14 = 1) = rising) (hl : (h.eng e).latch rising = some v) :
    h.slStampMeasure e w =
      h.sleMap e (fun x => ({ x.setLatch rising none with c0 := v - x.tprev, tprev := v, timeout := false } : Sle).complete w) := by
  unfold Half.slStampMeasure
  dsimp only
  rw [hp, hl]
  exact Half.sleMap_slDone ..

theorem Half.slStampMeasure_of_none (hp : decide (slF w 14 14 = 1) = rising) (hl : (h.eng e).latch rising = none) :
    h.slStampMeasure e w = h.slStall e := by
  unfold Half.slStampMeasure
  dsimp only
  rw [hp, hl]

end

end

end Sys2Proof.Machine

open Sys2Proof Sys2Proof.Machine

/-- Settles O43: the rows by the OP of their word, each word by the one update of its engine that it makes, a STAMP by the latch of its
polarity. -/
theorem jumpsLoadsAndStampsRun : Obligations.JumpsLoadsAndStampsRun := by
  unfold Obligations.JumpsLoadsAndStampsRun
  intro id e es w s h
  refine ⟨fun hx => exec_of_executes (f := Half.slJump e w) rfl hx fun h hw => Half.slExec_of_jump hw (slIs_iff.mp hx.kind).1,
    fun hx => exec_of_executes (f := Half.slWait e w) rfl hx fun h hw => Half.slExec_of_wait hw (slIs_iff.mp hx.kind).1,
    fun hx => exec_of_executes (f := Half.slShift e w) rfl hx fun h hw => Half.slExec_of_shift hw (slIs_iff.mp hx.kind).1,
    fun hx => exec_of_executes (f := Half.slStampArm e w) rfl hx fun h hw => ?_,
    fun hx => exec_of_executes (f := Half.slStampMeasure e w) rfl hx fun h hw => ?_,
    fun hx => exec_of_executes (f := Half.slLoad e w) rfl hx fun h hw => Half.slExec_of_load hw (slIs_iff.mp hx.kind).1,
    Half.slTest_of_always, Half.slTest_of_c0_zero, Half.slTest_of_watch_pin, fun hn => ⟨Half.slWait_of_met hn, Half.slWait_of_unmet⟩,
    Half.slCond_of_pin, Half.slCond_of_tx, Half.slCond_of_rx, fun hn hm hf ha => ?_, fun hi => ⟨fun hd => ?_, fun hd => ?_, fun hd => ?_,
    fun hd hlo hhi => ?_, fun hd hhi => ?_, fun hd => ?_⟩, ?_, fun hp => ?_, fun hp => ?_⟩
  · obtain ⟨ho, ha⟩ := slIs_iff.mp hx.kind
    exact Half.slExec_of_stamp_arm hw ho (of_decide_eq_true ha)
  · obtain ⟨ho, ha⟩ := slIs_iff.mp hx.kind
    exact Half.slExec_of_stamp_measure hw ho (of_decide_eq_true ha)
  · rw [Half.slShift_of_within hn hm hf ha, Half.slMove_of_within hn, Half.sleMap_slDone]
    exact Half.sleMap_congr rfl
  · exact (Half.slLoad_of_imm hi hd).trans (Half.sleMap_slDone ..)
  · exact (Half.slLoad_of_imm hi hd).trans (Half.sleMap_slDone ..)
  · exact (Half.slLoad_of_imm hi hd).trans (Half.sleMap_slDone ..)
  · have hv := toNat_imm w
    rw [Half.slLoad_of_imm hi hd, Half.loads_of_region (hv.symm ▸ hlo) (hv.symm ▸ hhi), hv]
    rfl
  · rw [Half.slLoad_of_imm hi hd, Half.loads_of_beyond ((toNat_imm w).symm ▸ hhi)]
  · exact (Half.slLoad_of_imm hi hd).trans (Half.sleMap_slDone ..)
  · rw [Half.slAddrFault_eng]
    exact ⟨rfl, rfl⟩
  · have hr : decide (slF w 14 14 = 1) = true := decide_eq_true hp
    exact ⟨Half.slStampArm_of_begin hr, fun v hl => ⟨fun hs => Half.slStampArm_of_edge hr hs hl, Half.slStampMeasure_of_edge hr hl⟩,
      Half.slStampMeasure_of_none hr⟩
  · have hr : decide (slF w 14 14 = 1) = false := by rw [hp]; rfl
    exact ⟨Half.slStampArm_of_begin hr, fun v hl => ⟨fun hs => Half.slStampArm_of_edge hr hs hl, Half.slStampMeasure_of_edge hr hl⟩,
      Half.slStampMeasure_of_none hr⟩

end

section
/-! PROOFS. The swap of a loaded program: what it does to its group and to each engine it names, and the forced swap (R358, R361 to R363). -/

namespace Sys2Proof.Machine

open Sys2Proof

/-! ### The swap on one engine (R358, R362) -/

/-- The swap on an engine is an update of that engine alone. -/
theorem Half.slSwap_is_update (e : Fin 8) (c : List Word) (h : Half) : ∃ f, h.slSwap e c = h.sleMap e f := by
  unfold Half.slSwap
  dsimp only
  split
  · exact ⟨_, Half.sleMap_sleMap ..⟩
  · split
    · exact ⟨_, Half.sleMap_sleMap ..⟩
    · exact ⟨_, rfl⟩

theorem Half.slSwap_grp (e : Fin 8) (c : List Word) (h : Half) : (h.slSwap e c).slu.grp = h.slu.grp := by
  obtain ⟨f, hf⟩ := h.slSwap_is_update e c
  rw [hf]
  rfl

theorem Half.slSwap_out (e : Fin 8) (c : List Word) (h : Half) : (h.slSwap e c).out = h.out := by
  obtain ⟨f, hf⟩ := h.slSwap_is_update e c
  rw [hf, Half.sleMap_out]

theorem Half.slSwap_id (e : Fin 8) (c : List Word) (h : Half) : (h.slSwap e c).id = h.id := by
  obtain ⟨f, hf⟩ := h.slSwap_is_update e c
  rw [hf, Half.sleMap_id]

theorem Half.slSwap_eng_ne {e f : Fin 8} (hf : f ≠ e) (c : List Word) (h : Half) : (h.slSwap e c).eng f = h.eng f := by
  obtain ⟨k, hk⟩ := h.slSwap_is_update e c
  rw [hk, Half.sleMap_eng_ne hf]

/-- A RUNNING engine at its start address, its ticks counted anew. -/
def Sle.Fresh (x : Sle) : Prop := x.st = 2 ∧ x.tcnt = 0#32 ∧ x.pc = sleCfg0Start x.cfg0

theorem Half.slStart_fresh (e : Fin 8) (h : Half) : ((h.slStart e).eng e).Fresh := by
  unfold Half.slStart
  rw [Half.sleMap_eng_self]
  exact ⟨rfl, rfl, rfl⟩

/-- A RUNNING engine starts anew with the swap. -/
theorem Half.slSwap_fresh {e : Fin 8} {h : Half} (c : List Word) (hr : (h.eng e).st = 2) : ((h.slSwap e c).eng e).Fresh := by
  unfold Half.slSwap
  rw [if_pos hr]
  exact Half.slStart_fresh ..

/-! ### The swap of a group (R362) -/

section
variable {g : Fin 2} {h : Half} {w : Swap}

/-- The engines a load names take the swap, one after the other. -/
def Half.swapEngs (g : Fin 2) (w : Swap) (h : Half) : Half :=
  eachOf (maskEngs g w.mask) (fun e h => h.slSwap e ((w.cfgs.lookup e.1).getD [])) h

theorem Half.doSwap_of_some (status : Nat) (hw : (h.slg g).swap = some w) : h.doSwap g status =
    ((h.slgMap g (fun x => { x with bank := !x.bank, swap := none })).swapEngs g w).emit (.done 3 w.req.1 status []) := by
  unfold Half.doSwap
  rw [hw]
  rfl

theorem Half.swapEngs_grp (g : Fin 2) (w : Swap) (h : Half) : (h.swapEngs g w).slu.grp = h.slu.grp :=
  eachOf_same _ (fun t : Half => t.slu.grp) (fun e => Half.slSwap_grp e _) h

theorem Half.swapEngs_out (g : Fin 2) (w : Swap) (h : Half) : (h.swapEngs g w).out = h.out :=
  eachOf_same _ Half.out (fun e => Half.slSwap_out e _) h

theorem Half.swapEngs_id (g : Fin 2) (w : Swap) (h : Half) : (h.swapEngs g w).id = h.id :=
  eachOf_same _ Half.id (fun e => Half.slSwap_id e _) h

/-- Each RUNNING engine the load names starts anew, whichever of them come before and after it. -/
theorem Half.swapEngs_fresh {e : Fin 8} (he : e ∈ maskEngs g w.mask) (hr : (h.eng e).st = 2) : ((h.swapEngs g w).eng e).Fresh := by
  have swapped (c : List Word) (x y : Fin 8) (t : Half) (hy : (t.eng y).st = 2) (hn : y ≠ x → (t.eng y).Fresh) :
      ((t.slSwap x c).eng y).Fresh := by
    by_cases hxy : y = x
    · subst hxy
      exact Half.slSwap_fresh c hy
    · rw [Half.slSwap_eng_ne hxy]
      exact hn hxy
  have running (c : List Word) (x y : Fin 8) (t : Half) (hy : (t.eng y).st = 2) : ((t.slSwap x c).eng y).st = 2 := by
    by_cases hxy : y = x
    · subst hxy
      exact (Half.slSwap_fresh c hy).1
    · rwa [Half.slSwap_eng_ne hxy]
  exact eachOf_all (I := fun t : Half => ∀ f, (h.eng f).st = 2 → (t.eng f).st = 2) (P := fun f t => (h.eng f).st = 2 → (t.eng f).Fresh)
    (fun _ hf => hf) (fun x t ht f hf => running _ x f t (ht f hf)) (fun x t ht hx => Half.slSwap_fresh _ (ht x hx))
    (fun x y t ht hy hf => swapped _ x y t (ht y hf) (fun _ => hy hf)) he hr

/-- A swap flips the active bank and ends the wait. -/
theorem Half.doSwap_slg (status : Nat) (hw : (h.slg g).swap = some w) :
    (h.doSwap g status).slg g = { h.slg g with bank := !(h.slg g).bank, swap := none } := by
  rw [Half.doSwap_of_some status hw]
  exact (congrArg (fun v => Vector.get v g) (Half.swapEngs_grp ..)).trans (upd_get_self ..)

theorem Half.doSwap_out (status : Nat) (hw : (h.slg g).swap = some w) : (h.doSwap g status).out = h.out ++ [.done 3 w.req.1 status []] := by
  rw [Half.doSwap_of_some status hw, Half.emit_out, Half.swapEngs_out, Half.slgMap_out]

theorem Half.doSwap_id (status : Nat) (hw : (h.slg g).swap = some w) : (h.doSwap g status).id = h.id := by
  rw [Half.doSwap_of_some status hw, Half.emit_id, Half.swapEngs_id, Half.slgMap_id]

theorem Half.doSwap_fresh (status : Nat) (hw : (h.slg g).swap = some w) {e : Fin 8} (he : e ∈ maskEngs g w.mask) (hr : (h.eng e).st = 2) :
    ((h.doSwap g status).eng e).Fresh := by
  rw [Half.doSwap_of_some status hw]
  exact Half.swapEngs_fresh he hr

/-! ### The forced swap (R363) -/

/-- The engines a load names that are in a shift. -/
def Half.midShift (g : Fin 2) (w : Swap) (h : Half) : List (Fin 8) :=
  (maskEngs g w.mask).filter (fun e => decide ((h.eng e).st = 2) && (h.eng e).inShift)

/-- With a named engine in a shift the load is not ready. -/
theorem Half.swapReady_of_midShift (hw : (h.slg g).swap = some w) (hm : h.midShift g w ≠ []) : h.swapReady g = false := by
  obtain ⟨e, he⟩ := List.exists_mem_of_ne_nil _ hm
  obtain ⟨hin, hs⟩ := List.mem_filter.mp he
  unfold Half.swapReady
  rw [hw]
  refine List.all_eq_false.mpr ⟨e, hin, ?_⟩
  simpa using hs

/-- The engines in a shift are halted. -/
def Half.haltEngs (es : List (Fin 8)) (h : Half) : Half := eachOf es Half.slHalt h

/-- Engines start. -/
def Half.startEngs (es : List (Fin 8)) (h : Half) : Half := eachOf es Half.slStart h

theorem Half.haltEngs_slg (es : List (Fin 8)) (g : Fin 2) (h : Half) : (h.haltEngs es).slg g = h.slg g :=
  eachOf_same es (fun t : Half => t.slg g) (fun e t => (congrArg (fun u : Slu => u.grp.get g) (t.slHalt_slu e)).trans rfl) h

theorem Half.haltEngs_id (es : List (Fin 8)) (h : Half) : (h.haltEngs es).id = h.id :=
  eachOf_same es Half.id (fun e t => by rw [Half.slHalt_eq]; split; exacts [Half.raise_id .., rfl]) h

theorem Half.startEngs_slg (es : List (Fin 8)) (g : Fin 2) (h : Half) : (h.startEngs es).slg g = h.slg g :=
  eachOf_same (f := Half.slStart) es (fun t => t.slg g) (fun _ _ => rfl) h

theorem Half.startEngs_id (es : List (Fin 8)) (h : Half) : (h.startEngs es).id = h.id := eachOf_same (f := Half.slStart) es Half.id (fun _ _ => rfl) h

/-- A forced swap halts the engines in a shift, swaps with SWAP_FORCED, starts those engines, and tells of it. -/
theorem Half.forceSwap_of_some (hw : (h.slg g).swap = some w) : h.forceSwap g =
    (((h.haltEngs (h.midShift g w)).doSwap g 0x12A).startEngs (h.midShift g w)).raise 0x49 (locInp h.id 7) := by
  have hid : (((h.haltEngs (h.midShift g w)).doSwap g 0x12A).startEngs (h.midShift g w)).id = h.id := by
    rw [Half.startEngs_id, Half.doSwap_id _ ((Half.haltEngs_slg ..).symm ▸ hw), Half.haltEngs_id]
  rw [← hid]
  unfold Half.forceSwap
  rw [hw]
  rfl

theorem Half.forceSwap_slg (hw : (h.slg g).swap = some w) :
    (h.forceSwap g).slg g = { h.slg g with bank := !(h.slg g).bank, swap := none } := by
  rw [Half.forceSwap_of_some hw]
  refine (congrArg (fun u : Slu => u.grp.get g) (Half.raise_slu ..)).trans ?_
  refine (Half.startEngs_slg ..).trans ((Half.doSwap_slg _ ((Half.haltEngs_slg ..).symm ▸ hw)).trans ?_)
  rw [Half.haltEngs_slg]

end

/-! ### The rows -/

theorem exec_programSwap_of_live {id : HalfId} {g : Fin 2} {s : State} {f : Half → Half} (hl : s.live id = true)
    (hf : (if (s.half id).swapReady g then (s.half id).doSwap g 0 else s.half id) = f (s.half id)) :
    exec (.programSwap id g) s = .next (s.onHalf id f) :=
  (congrArg Host.Outcome.next (State.act_of_live _ hl)).trans (congrArg _ (State.onHalf_congr hf))

theorem exec_forcedSwap_of_expiry {id : HalfId} {g : Fin 2} {s : State} {w : Swap} {t : Nat} (hl : s.live id = true)
    (hw : ((s.half id).slg g).swap = some w) (hf : w.force = true) (he : w.expiry = some t) :
    exec (.forcedSwap id g) s = .next ((s.advanceTo t).onHalf id (fun h => h.forceSwap g)) := by
  refine congrArg Host.Outcome.next (State.due_of_live _ hl ?_)
  rw [hw]
  exact (if_pos hf).trans he

end Sys2Proof.Machine

open Sys2Proof Sys2Proof.Machine

/-- Settles O46: the swap by its group and by the engines it goes over, the forced one by the halts before it and the starts after it. -/
theorem programsSwapBetweenShifts : Obligations.ProgramsSwapBetweenShifts := by
  unfold Obligations.ProgramsSwapBetweenShifts
  intro id g s h hl
  refine ⟨fun hr => exec_programSwap_of_live hl (if_pos hr), fun hr => exec_programSwap_of_live hl (if_neg (by rw [hr]; decide)),
    fun _ w hw => ⟨?_, ?_, Half.doSwap_out 0 hw, fun e he hr => Half.doSwap_fresh 0 hw he hr⟩,
    fun w t hw hf he => exec_forcedSwap_of_expiry hl hw hf he,
    fun w hw => ⟨Half.swapReady_of_midShift hw, Half.forceSwap_of_some hw, ?_, ?_⟩⟩
  · rw [Half.doSwap_slg 0 hw]
  · rw [Half.doSwap_slg 0 hw]
  · rw [Half.forceSwap_slg hw]
  · rw [Half.forceSwap_slg hw]

end

section
/-! PROOFS. What a half hands over changes no sluice engine: no event, output or analysis result does (R345, R412). -/

namespace Sys2Proof.Machine

open Sys2Proof

/-! ### The pins and the drive sequencers -/

@[simp] theorem Half.overrun_slu (q : Fin 9) (rq : Req) (ts : Nat) (h : Half) : (h.overrun q rq ts).slu = h.slu := by
  unfold Half.overrun
  dsimp only
  split <;> simp [apply_ite Half.slu]

@[simp] theorem Half.trigger_slu (t : Fin 32) (step : Bool) (pt : Option (Int × List Int)) (h : Half) :
    (h.trigger t step pt).slu = h.slu := by
  have asked (l : List (Fin 9)) (f : Fin 9 → Half → Half) (k : ∀ q u, (f q u).slu = u.slu) : (eachOf l f h).slu = h.slu :=
    eachOf_same l Half.slu k h
  unfold Half.trigger
  dsimp only
  split
  · rfl
  · split
    · rfl
    · exact asked _ _ (fun _ _ => Half.overrun_slu ..)

@[simp] theorem Half.pulseTrig_slu (m : Nat) (starts : Bool) (h : Half) : (h.pulseTrig m starts).slu = h.slu :=
  eachIdx_same Half.slu (fun t u => by simp [apply_ite Half.slu]) h

@[simp] theorem Half.settle1_slu (m : Fin 48) (h : Half) : (h.settle1 m).slu = h.slu := by
  unfold Half.settle1
  simp [apply_ite Half.slu]

@[simp] theorem Half.settle_slu (h : Half) : h.settle.slu = h.slu := eachIdx_same Half.slu Half.settle1_slu h

@[simp] theorem Half.settlePair_slu (p : Fin 24) (h : Half) : (h.settlePair p).slu = h.slu := by
  unfold Half.settlePair Half.pairTrig
  simp [apply_ite Half.slu]

@[simp] theorem Half.drvKill_slu (p : Fin 24) (h : Half) : (h.drvKill p).slu = h.slu := by
  unfold Half.drvKill Half.toIdle Half.enterPhase Half.enterGap Half.boostDone
  simp [apply_ite Half.slu]

@[simp] theorem Half.latchOn_slu (cause now : Nat) (h : Half) : (h.latchOn cause now).slu = h.slu := rfl

@[simp] theorem Half.setLatch_slu (cause : Nat) (h : Half) : (h.setLatch cause).slu = h.slu := by
  cases hl : h.fg.latch
  · rw [Half.setLatch_of_free hl, Half.settle_slu, Half.latchOn_slu]
    exact eachIdx_same Half.slu Half.drvKill_slu h
  · rw [Half.setLatch_of_latch hl]

/-! ### Records and shares -/

@[simp] theorem Half.evAppend_slu (r : WeirRec) (h : Half) : (h.evAppend r).slu = h.slu := by
  unfold Half.evAppend
  dsimp only
  split
  · rfl
  · split
    · rfl
    · unfold Half.evOverflow
      simp [apply_ite Half.slu]

@[simp] theorem Half.drawShare_slu (pair prof : Nat) (h : Half) : (h.drawShare pair prof).slu = h.slu := by
  unfold Half.drawShare
  split
  · rfl
  · dsimp only
    split <;> rfl

/-! ### The lanes of the analysis -/

@[simp] theorem Half.askFuel_slu (j : Fin 12) (r : ResOut) (h : Half) : (h.askFuel j r).slu = h.slu := by
  unfold Half.askFuel
  split <;> simp

@[simp] theorem Half.closeCmb_slu (j : Fin 12) (i : Bool) (h : Half) : (h.closeCmb j i).slu = h.slu := by
  unfold Half.closeCmb
  dsimp only
  split
  · simp
  · split <;> simp [apply_ite Half.slu]

@[simp] theorem Half.closeImep_slu (j : Fin 12) (i : Bool) (h : Half) : (h.closeImep j i).slu = h.slu := by
  unfold Half.closeImep
  dsimp only
  split
  · rfl
  · split <;> simp

@[simp] theorem Half.closePeg_slu (j : Fin 12) (h : Half) : (h.closePeg j).slu = h.slu := by
  unfold Half.closePeg
  dsimp only
  split <;> simp [apply_ite Half.slu]

@[simp] theorem Half.closeWindows_slu (j : Fin 12) (n : Bool) (phi : Rat) (h : Half) : (h.closeWindows j n phi).slu = h.slu := by
  unfold Half.closeWindows
  simp [apply_ite Half.slu]

@[simp] theorem Half.closeNow_slu (j : Fin 12) (h : Half) : (h.closeNow j).slu = h.slu := by
  unfold Half.closeNow
  split <;> simp

@[simp] theorem Half.endTrace_slu (j : Fin 12) (span : Int) (h : Half) : (h.endTrace j span).slu = h.slu := by
  unfold Half.endTrace
  dsimp only
  split <;> simp

@[simp] theorem Half.setLaneCyc_slu (j : Fin 12) (h : Half) : (h.setLaneCyc j).slu = h.slu := by
  unfold Half.setLaneCyc
  dsimp only
  split <;> simp

@[simp] theorem Half.traceSmp_slu (j : Fin 12) (ang : Int) (code : BitVec 16) (ok : Bool) (hold : Nat) (start : Bool) (back : Int) (h : Half) :
    (h.traceSmp j ang code ok hold start back).slu = h.slu := by
  unfold Half.traceSmp
  extract_lets l on len gone h0
  have e0 : h0.slu = h.slu := by simp [h0, apply_ite Half.slu]
  clear_value h0
  dsimp only
  split
  · rfl
  · split <;> simp +zetaDelta [apply_ite Half.slu, e0]

@[simp] theorem Half.lanePoint_slu (j : Fin 12) (phi : Rat) (begins : Bool) (h : Half) : (h.lanePoint j phi begins).slu = h.slu := by
  unfold Half.lanePoint
  simp [apply_ite Half.slu]

@[simp] theorem Half.newCycle_slu (j : Fin 12) (red : Bool) (phi : Rat) (h : Half) : (h.newCycle j red phi).slu = h.slu := rfl

@[simp] theorem Half.addSmp_slu (j : Fin 12) (s : Smp) (h : Half) : (h.addSmp j s).slu = h.slu := rfl

@[simp] theorem Half.endCycle_slu (j : Fin 12) (red : Bool) (s : Smp) (h : Half) : (h.endCycle j red s).slu = h.slu := by
  unfold Half.endCycle Half.cyclePeak
  simp [apply_ite Half.slu]

@[simp] theorem Half.laneSmp_slu (j : Fin 12) (ang ck : Int) (code : BitVec 16) (ok spare off : Bool) (vss : Int) (hold : Nat) (h : Half) :
    (h.laneSmp j ang ck code ok spare off vss hold).slu = h.slu := by
  unfold Half.laneSmp
  extract_lets l len raw phi s begins back h1 l1 h2
  have e1 : h1.slu = h.slu := by simp [h1]
  have e2 : h2.slu = h1.slu := by
    simp only [h2]
    split
    · simp [apply_ite Half.slu]
    · exact Half.addSmp_slu ..
  simp [apply_ite Half.slu, e2, e1]

@[simp] theorem Half.anaIncomplete_slu (h : Half) : h.anaIncomplete.slu = h.slu :=
  eachIdx_same Half.slu (fun j t => by simp [apply_ite Half.slu]) h

@[simp] theorem Half.lostPoint_slu (pt : Int × List Int) (hold : Nat) (h : Half) : (h.lostPoint pt hold).slu = h.slu :=
  eachIdx_same Half.slu (fun j t => by simp [apply_ite Half.slu]) h

/-! ### The hand-over (R412) -/

/-- The sluice engines of both halves. -/
def State.slus (s : State) : Slu × Slu := (s.a.slu, s.b.slu)

theorem State.half_slu_of_slus {s t : State} (e : t.slus = s.slus) (id : HalfId) : (t.half id).slu = (s.half id).slu := by
  cases id
  · exact congrArg Prod.fst e
  · exact congrArg Prod.snd e

theorem LinkOnly.slus {s t : State} (h : LinkOnly s t) : t.slus = s.slus := by
  obtain ⟨ha, hb, -⟩ := h.keeps
  unfold State.slus
  rw [ha, hb]

theorem State.setHalf_slus {s : State} {h : Half} {id : HalfId} (e : h.slu = (s.half id).slu) : (s.setHalf h id).slus = s.slus := by
  cases id
  · exact congrArg (·, s.b.slu) e
  · exact congrArg (s.a.slu, ·) e

theorem State.dropRelease_slus (s : State) : s.dropRelease.slus = s.slus := by
  unfold State.dropRelease
  split
  · exact eachOf_same _ State.slus (fun _ _ => (LinkOnly.finish ..).slus) _
  · rfl

theorem State.setLatches_slus (cause : Nat) (s : State) : (s.setLatches cause).slus = s.slus :=
  eachOf_same _ State.slus (fun _ _ => State.setHalf_slus (Half.setLatch_slu ..)) s

theorem State.kill_slus (cause : Nat) (s : State) : (s.kill cause).slus = s.slus := by
  unfold State.kill
  extract_lets ids s1 f s2 n
  have e1 : s1.slus = s.slus := State.setLatches_slus cause s
  have e2 : s2.slus = s1.slus := State.dropRelease_slus _
  split
  · exact (LinkOnly.postEntry ..).slus.trans ((LinkOnly.raiseHub ..).slus.trans (e2.trans e1))
  · split <;> exact e1

theorem State.boostStart_slus (id : HalfId) (pair prof k : Nat) (s : State) : (s.boostStart id pair prof k).slus = s.slus := by
  unfold State.boostStart
  extract_lets h cyc h1 s1
  have e : h1.slu = (s.half id).slu := Half.drawShare_slu ..
  have e1 : s1.slus = s.slus := State.setHalf_slus e
  split
  · exact e1
  · refine Eq.trans (State.setHalf_slus ?_) e1
    exact e.trans (State.half_slu_of_slus e1 id).symm

theorem State.cutCount_slus (cyl cyc flags : Nat) (s : State) : (s.cutCount cyl cyc flags).slus = s.slus := by
  unfold State.cutCount
  split
  · rfl
  · split
    · rfl
    · split
      split <;> rfl

theorem State.openRec_slus (id : HalfId) (o : OpenRec) (s : State) : (s.openRec id o).slus = s.slus := by
  unfold State.openRec
  dsimp only
  split <;> rfl

theorem State.cutSample_slus (id : HalfId) (cyl cyc : Nat) (ap : Int) (pts : List (Rat × Rat × Bool)) (ast : Bool) (s : State) :
    (s.cutSample id cyl cyc ap pts ast).slus = s.slus := by
  unfold State.cutSample
  split
  · rfl
  · split <;> rfl

theorem State.fuelAsk_slus (id : HalfId) (j : Fin 12) (cyl cyc : Nat) (s : State) : (s.fuelAsk id j cyl cyc).slus = s.slus := by
  unfold State.fuelAsk
  split
  · rfl
  · exact State.setHalf_slus rfl

theorem State.moveCount_slus (id : HalfId) (cyl old new : Nat) (ks : List Nat) (s : State) : (s.moveCount id cyl old new ks).slus = s.slus := by
  unfold State.moveCount
  dsimp only
  split
  · rfl
  · split <;> split <;> rfl

theorem State.tooth_slus (id : HalfId) (i : Nat) (ts : Word) (pol first : Bool) (cls pos : Nat) (s : State) :
    (s.tooth id i ts pol first cls pos).slus = s.slus := by
  unfold State.tooth
  extract_lets on s1 e
  have e1 : s1.slus = s.slus := by
    simp only [s1]
    split <;> rfl
  exact e1

theorem State.fileResult_slus (id : HalfId) (r : ResOut) (s : State) : (s.fileResult id r).slus = s.slus := by
  unfold State.fileResult
  extract_lets pl s1
  have e1 : s1.slus = s.slus := by
    simp only [s1]
    split <;> rfl
  split <;> exact e1

theorem State.newTrace_slus (id : HalfId) (cyl cyc : Nat) (s : State) : (s.newTrace id cyl cyc).slus = s.slus := by
  unfold State.newTrace
  dsimp only
  split <;> rfl

theorem State.decimTrace_slus (cyl : Nat) (s : State) : (s.decimTrace cyl).slus = s.slus := by
  unfold State.decimTrace
  split <;> rfl

theorem State.addTrace_slus (id : HalfId) (cyl : Nat) (bytes : List Byte) (s : State) : (s.addTrace id cyl bytes).slus = s.slus := by
  unfold State.addTrace
  split
  · rfl
  · dsimp only
    split <;> rfl

theorem State.cyclePeak_slus (id : HalfId) (x : Nat × Nat × Nat × Option Int × Rat) (s : State) : (s.cyclePeak id x).slus = s.slus := by
  unfold State.cyclePeak
  dsimp only
  split <;> rfl

/-- One item handed over. -/
theorem State.take_slus (id : HalfId) (o : Out) (s : State) : (s.take id o).slus = s.slus := by
  unfold State.take
  extract_lets path keep
  cases o with
  | weir src kind level frame payload =>
    dsimp only
    split
    · rfl
    · split <;> exact State.setHalf_slus (Half.evAppend_slu ..)
  | log typ code frame data => dsimp only; split <;> rfl
  | ev e => dsimp only; split <;> rfl
  | unsol mb cmd frame payload wake =>
    dsimp only
    split
    · exact (LinkOnly.postEntry ..).slus
    · rfl
  | done mb seq status payload => exact (LinkOnly.finish ..).slus
  | kill cause => exact State.kill_slus cause s
  | entry cyl cyc bytes key => rfl
  | outcome cyl key o => rfl
  | tag cyl key t => rfl
  | boostStart pair prof k => exact State.boostStart_slus id pair prof k s
  | boostEnd pair drop => exact State.setHalf_slus rfl
  | tooth i ts pol first cls pos => exact State.tooth_slus ..
  | result r => exact State.fileResult_slus id r s
  | traceNew cyl => exact State.newTrace_slus ..
  | laneCount j cyl => exact State.setHalf_slus rfl
  | fuelAsk j cyl cyc => exact State.fuelAsk_slus id j cyl cyc s
  | traceDecim cyl => exact State.decimTrace_slus cyl s
  | trace cyl bytes => exact State.addTrace_slus id cyl bytes s
  | cyclePeak lane cyl cyc ang span => exact State.cyclePeak_slus ..
  | anaLoss => exact State.setHalf_slus (Half.anaIncomplete_slu _)
  | aclkLost pt hold => exact State.setHalf_slus (Half.lostPoint_slu ..)
  | opened o => exact (State.cutCount_slus ..).trans (State.openRec_slus id o s)
  | recount cyl old new ks => exact State.moveCount_slus ..
  | calPeak cyl cyc ap pts ast => exact State.cutSample_slus ..

theorem State.takeAll_slus (id : HalfId) (s : State) : (s.takeAll id).slus = s.slus := by
  unfold State.takeAll
  dsimp only
  split
  · rfl
  · exact (eachOf_same _ State.slus (fun o t => State.take_slus id o t) _).trans (State.setHalf_slus rfl)

/-- The hand-over leaves every sluice engine, pin and group as it is. -/
theorem State.flush_slus (s : State) : s.flush.slus = s.slus :=
  eachOf_same (f := fun _ (t : State) => (t.takeAll .A).takeAll .B) (List.range 6) State.slus
    (fun _ _ => (State.takeAll_slus ..).trans (State.takeAll_slus ..)) s

end Sys2Proof.Machine

end

section
/-! PROOFS. Stalled instructions, STAMP timeouts and the edges of a watch pin (R347 to R350, R352). -/

namespace Sys2Proof.Machine

open Sys2Proof

/-! ### Time starts and halts no engine -/

theorem Half.present_slu (h : Half) : h.present.slu = h.slu := by
  unfold Half.present
  split <;> rfl

theorem Half.setAcc_slu (a : Nat) (h : Half) : (h.setAcc a).slu = h.slu := by
  unfold Half.setAcc
  simp [apply_ite Half.slu]

theorem Half.advance_slu (n : Nat) (h : Half) : (h.advance n).slu = h.slu := by
  unfold Half.advance
  simp [apply_ite Half.slu, Half.present_slu, Half.setAcc_slu]

theorem Sle.periods_st (p : Nat) (x : Sle) : (x.periods p).st = x.st := by
  unfold Sle.periods
  dsimp only
  split
  · rfl
  · split <;> rfl

theorem Half.pass_eng_st (n : Nat) (e : Fin 8) (h : Half) : ((h.pass n).eng e).st = (h.eng e).st := by
  have ticked : (h.pass n).eng e = ((h.advance n).eng e).periods ((h.advance n).now / 4 - h.now / 4) := Vector.getElem_map ..
  rw [ticked, Sle.periods_st, Half.eng_of_slu (Half.advance_slu n h)]

/-- As time passes a RUNNING engine stays RUNNING, and another does not start. -/
theorem State.advance_eng_st (n : Nat) (s : State) (id : HalfId) (e : Fin 8) :
    (((s.advance n).half id).eng e).st = ((s.half id).eng e).st := by
  unfold State.advance
  split
  · rfl
  · extract_lets go
    have goes (h : Half) : ((go h).eng e).st = (h.eng e).st := by
      simp only [go]
      split
      · exact Half.pass_eng_st n e h
      · rfl
    refine (congrArg (fun u : Slu => (u.eng.get e).st) (State.half_slu_of_slus (State.flush_slus _) id)).trans ?_
    cases id
    · exact goes s.a
    · exact goes s.b

theorem State.due_of_none {id : HalfId} {t : Half → Option Nat} {s : State} (f : Half → Half) (ht : t (s.half id) = none) : s.due id t f = s := by
  unfold State.due
  rw [ht]
  exact ite_self s

/-! ### A stalled instruction (R349, R352) -/

section
variable {id : HalfId} {e : Fin 8} {es : List SlEdge} {s : State}

/-- A stalled instruction that does not wait for ticks is tried anew at the next one. -/
theorem execStallRelease_of_tick (hl : s.live id = true) (hr : ((s.half id).eng e).st = 2) (hs : ((s.half id).eng e).stall = true)
    (hw : slOp ((s.half id).slWord e) ≠ 1 ∨ slF ((s.half id).slWord e) 14 12 ≠ 6) : execStallRelease id e es s =
      .next ((s.advanceTo (((s.half id).eng e).nextTick (s.half id).now)).onHalf id (fun h => (h.slTake es).slExec e)) := by
  refine congrArg Host.Outcome.next (State.due_of_live _ hl ?_)
  dsimp only
  rw [if_neg (by simp [hr, hs]), if_neg]
  simp only [Bool.and_eq_true, decide_eq_true_eq]
  rintro ⟨⟨ho, hn⟩, -⟩
  exact hw.elim (· ho) (· hn)

/-- A WAIT for ticks is tried anew when they have run out. -/
theorem execStallRelease_of_ticks (hl : s.live id = true) (hr : ((s.half id).eng e).st = 2) (hs : ((s.half id).eng e).stall = true)
    (ho : slOp ((s.half id).slWord e) = 1) (hn : slF ((s.half id).slWord e) 14 12 = 6)
    (hc : (((s.half id).eng e).tcnt - ((s.half id).eng e).beg).toNat < ((s.half id).eng e).c0.toNat) : execStallRelease id e es s =
      .next ((s.advanceTo (Sle.tickAt (s.half id).now
        (((s.half id).eng e).c0.toNat - (((s.half id).eng e).tcnt - ((s.half id).eng e).beg).toNat) ((s.half id).eng e))).onHalf id
          (fun h => (h.slTake es).slExec e)) := by
  refine congrArg Host.Outcome.next (State.due_of_live _ hl ?_)
  dsimp only
  rw [if_neg (by simp [hr, hs]), if_pos (by rw [ho, hn, decide_eq_true hc]; rfl)]

/-- A measuring STAMP that waits for its edge ends by timeout where TLIM is not 0. -/
theorem execStampTimeout_of_limit (hl : s.live id = true) (hr : ((s.half id).eng e).st = 2) (hs : ((s.half id).eng e).stall = true)
    (ho : slOp ((s.half id).slWord e) = 3) (ha : slF ((s.half id).slWord e) 13 13 = 0)
    (hn : ((s.half id).eng e).latch (decide (slF ((s.half id).slWord e) 14 14 = 1)) = none) (ht : ((s.half id).eng e).tlim ≠ 0#32) :
    execStampTimeout id e s = .next ((s.advanceTo (Sle.tickAt (s.half id).now ((s.half id).eng e).timeoutIn ((s.half id).eng e))).onHalf id
      (fun h => h.slTimeout e (h.slWord e))) := by
  refine congrArg Host.Outcome.next (State.due_of_live _ hl (if_pos ?_))
  simp [hr, hs, ho, ha, hn, ht]

theorem execStampTimeout_of_no_limit (ht : ((s.half id).eng e).tlim = 0#32) : execStampTimeout id e s = .next s :=
  congrArg Host.Outcome.next (State.due_of_none _ (if_neg (by simp [ht])))

theorem Half.slTimeout_eq (e : Fin 8) (w : BitVec 24) (h : Half) :
    h.slTimeout e w = h.sleMap e (fun y => ({ y with c0 := y.tlim, tprev := y.tcnt, timeout := true } : Sle).complete w) :=
  Half.sleMap_slDone ..

/-! ### The watch pin (R350) -/

theorem execWpinEdgeLatch_of_running (dt : Nat) (hl : s.live id = true) (hr : ((s.half id).eng e).st = 2) :
    execWpinEdgeLatch id e es dt s =
      .next (((s.advance dt).advanceTo ((((s.advance dt).half id).eng e).nextTick ((s.advance dt).half id).now)).onHalf id
        (fun h => (h.slTake es).slEdge e)) :=
  congrArg Host.Outcome.next (State.due_of_live _ ((State.advance_live dt s id).trans hl)
    (if_pos ((State.advance_eng_st dt s id e).trans hr)))

theorem execWpinEdgeLatch_of_not_running (dt : Nat) (hr : ((s.half id).eng e).st ≠ 2) :
    execWpinEdgeLatch id e es dt s = .next (s.advance dt) :=
  congrArg Host.Outcome.next (State.due_of_none _ (if_neg (by rwa [State.advance_eng_st])))

end

section
variable {e : Fin 8} {h : Half} {lvl : Bool}

/-- The sample that shows no edge latches none. -/
theorem Half.slEdge_of_same (hn : (h.eng e).st ≠ 2 ∨ h.slPin (sleCfg0Wpin (h.eng e).cfg0) = (h.eng e).seen) : h.slEdge e = h :=
  if_pos (by simpa using hn)

/-- An edge finds the latch of its polarity free. -/
theorem Half.slEdge_of_free (hr : (h.eng e).st = 2) (hp : h.slPin (sleCfg0Wpin (h.eng e).cfg0) = lvl) (hs : lvl ≠ (h.eng e).seen)
    (hf : (h.eng e).latch lvl = none) : h.slEdge e = h.sleMap e (fun y => { y.setLatch lvl (some y.tcnt) with seen := lvl }) := by
  unfold Half.slEdge
  dsimp only
  rw [if_neg (by simp [hr, hp, hs]), hp, hf]
  exact Half.sleMap_congr rfl

/-- An edge finds the latch of its polarity taken: it is lost. -/
theorem Half.slEdge_of_taken (hr : (h.eng e).st = 2) (hp : h.slPin (sleCfg0Wpin (h.eng e).cfg0) = lvl) (hs : lvl ≠ (h.eng e).seen)
    (hf : ((h.eng e).latch lvl).isSome = true) :
    h.slEdge e = (h.sleMap e (fun y => { y with seen := lvl, lost := true })).raise 0x47 (locInp h.id 7) := by
  unfold Half.slEdge
  dsimp only
  rw [if_neg (by simp [hr, hp, hs]), hp, if_pos hf]
  rfl

end

/-! ### The filter of a terminal (R347) -/

/-- A settled terminal's new level at an SLUCLK edge. -/
theorem SlPin.take_of_settled {p : SlPin} {k : Nat} (hd : p.due = []) (hf : p.raw = p.filt) (hk : p.rawAt < k) :
    p.take k (!p.raw) = { p with raw := !p.raw, rawAt := k } := by
  have held : p.hold (k - 1) = p := by
    unfold SlPin.hold SlPin.last
    rw [hd]
    simp [hf]
  unfold SlPin.take
  rw [held]
  exact if_neg (by simp [hk])

/-- The level of a terminal that has just changed follows once it has held for FILT periods, two periods on. -/
theorem SlPin.level_of_changed {p : SlPin} {k n : Nat} (hd : p.due = []) (hk : 0 < k) :
    ({ p with raw := !p.filt, rawAt := k } : SlPin).level n = if k + 2 + slpCfgFilt p.cfg ≤ n then !p.filt else p.filt := by
  unfold SlPin.level SlPin.hold SlPin.last
  by_cases hn : k + 2 + slpCfgFilt p.cfg ≤ n
  · have h2 : ¬ n - 2 < k + slpCfgFilt p.cfg := by omega
    simp [hd, hn, h2]
  · have h2 : n - 2 < k + slpCfgFilt p.cfg := by omega
    simp [hd, hn, h2]

end Sys2Proof.Machine

open Sys2Proof Sys2Proof.Machine

/-- Settles O44: each row by the instant its engine knows, which time leaves RUNNING; an edge by the latch of its polarity; a terminal by what
its filter holds. -/
theorem stallsTimeoutsAndEdgesOfAnEngine : Obligations.StallsTimeoutsAndEdgesOfAnEngine := by
  unfold Obligations.StallsTimeoutsAndEdgesOfAnEngine
  intro id e es dt s h hl
  refine ⟨execStallRelease_of_tick hl, execStallRelease_of_ticks hl,
    fun hr hs ho ha hn => ⟨fun ht => ?_, execStampTimeout_of_no_limit⟩, execWpinEdgeLatch_of_running dt hl,
    execWpinEdgeLatch_of_not_running dt, ⟨fun hr hs hp hf => ?_, fun hr hs hp hf => ?_, fun hr hs hf => ?_, Half.slEdge_of_same⟩,
    fun p k n hd hf hk _ => ?_⟩
  · refine (execStampTimeout_of_limit hl hr hs ho ha hn ht).trans (congrArg _ (State.onHalf_congr ?_))
    exact Half.slTimeout_eq ..
  · exact Half.slEdge_of_free hr hp (by simp [hs]) hf
  · exact Half.slEdge_of_free hr hp (by simp [hs]) hf
  · exact Half.slEdge_of_taken hr rfl hs hf
  · rw [SlPin.take_of_settled hd hf hk, hf]
    exact SlPin.level_of_changed hd (by omega)

end

section
/-! PROOFS. The completion queue: what posting, notifying and waking leave of the host link, the queue's bound, and in what order completions
leave (R379, R380, R396 to R403). -/

namespace Sys2Proof.Machine

open Sys2Proof Sys2Proof.Safety

/-! ### What posting and notifying leave of the host link -/

/-- `m` is `l` but for the completion queue, its tail and overflow count, the interrupt line, and what has been sent with its counters. -/
def HostLink.Posted (l m : HostLink) : Prop :=
  ∃ cq tail ovf irq dgAt outAlive sent,
    m = { l with cq := cq, tail := tail, ovf := ovf, irq := irq, dgAt := dgAt, outAlive := outAlive, sent := sent }

theorem HostLink.Posted.same (l : HostLink) : l.Posted l := ⟨_, _, _, _, _, _, _, rfl⟩

theorem HostLink.Posted.then_ {l m n : HostLink} (h : l.Posted m) (k : m.Posted n) : l.Posted n := by
  obtain ⟨_, _, _, _, _, _, _, rfl⟩ := h
  obtain ⟨cq, tail, ovf, irq, dgAt, outAlive, sent, rfl⟩ := k
  exact ⟨cq, tail, ovf, irq, dgAt, outAlive, sent, rfl⟩

/-- What the host link keeps. -/
theorem HostLink.Posted.keeps {l m : HostLink} (h : l.Posted m) :
    m.reqs = l.reqs ∧ m.mb1 = l.mb1 ∧ m.asleep = l.asleep ∧ m.alive = l.alive ∧ m.chk = l.chk := by
  obtain ⟨_, _, _, _, _, _, _, rfl⟩ := h
  exact ⟨rfl, rfl, rfl, rfl, rfl⟩

@[simp] theorem State.raiseHub_link (c : Nat) (loc : Word) (s : State) : (s.raiseHub c loc).hub.link = s.hub.link := weir_link ..

theorem State.datagram_link (n : Nat) (s : State) : s.hub.link.Posted (s.datagram n).hub.link := ⟨_, _, _, _, _, _, _, rfl⟩

theorem State.notify_link (s : State) : s.hub.link.Posted s.notify.hub.link := by
  unfold State.notify
  dsimp only
  split
  · exact ⟨_, _, _, _, _, _, _, rfl⟩
  · exact (State.datagram_link _ s).then_ ⟨_, _, _, _, _, _, _, rfl⟩

theorem State.coalesce_link (s : State) : s.hub.link.Posted s.coalesce.hub.link := by
  unfold State.coalesce
  dsimp only
  split
  · rw [State.raiseHub_link]
    exact ⟨_, _, _, _, _, _, _, rfl⟩
  · exact .same _

/-- The queue in which an entry is posted: with room as it stands, else with two entries merged. -/
def State.roomy (s : State) : State := if s.hub.link.cq.length < 256 then s else s.coalesce

/-- The link with an entry appended to the completion queue. -/
def HostLink.enqueue (e : Entry) (l : HostLink) : HostLink := { l with cq := l.cq ++ [e], tail := l.tail + 1, outAlive := l.outAlive + 1 }

/-- Posting makes room, appends the entry, and notifies a sleeping host of one of the wake class. -/
theorem State.postEntry_eq (mb cmd : Nat) (unsol wake : Bool) (seq : BitVec 16) (status : Nat) (frame : Word) (payload : List Byte) (s : State) :
    s.postEntry mb cmd unsol wake seq status frame payload =
      let u := s.roomy.linkMap (fun l => l.enqueue
        ⟨mb, cmd, unsol, wake, seq, l.outAlive, status, frame, payload, s.now, false, false, wake && l.asleep⟩)
      if wake && u.hub.link.asleep then u.notify else u := rfl

/-- With room and the host awake, the entry is appended and nothing else happens. -/
theorem State.postEntry_of_room {s : State} (mb cmd : Nat) (unsol wake : Bool) (seq : BitVec 16) (status : Nat) (frame : Word)
    (payload : List Byte) (hr : s.hub.link.cq.length < 256) (ha : s.hub.link.asleep = false) :
    s.postEntry mb cmd unsol wake seq status frame payload = s.linkMap (HostLink.enqueue
      ⟨mb, cmd, unsol, wake, seq, s.hub.link.outAlive, status, frame, payload, s.now, false, false, false⟩) := by
  have e : s.roomy = s := if_pos hr
  rw [State.postEntry_eq, e]
  dsimp only
  rw [if_neg (by simp [HostLink.enqueue, ha])]
  simp only [State.linkMap, State.hubMap, ha, Bool.and_false]

theorem State.postEntry_link (mb cmd : Nat) (unsol wake : Bool) (seq : BitVec 16) (status : Nat) (frame : Word) (payload : List Byte) (s : State) :
    s.hub.link.Posted (s.postEntry mb cmd unsol wake seq status frame payload).hub.link := by
  have h1 : s.hub.link.Posted s.roomy.hub.link := by
    unfold State.roomy
    split
    · exact .same _
    · exact s.coalesce_link
  have h2 (e : HostLink → Entry) : s.hub.link.Posted (s.roomy.linkMap (fun l => l.enqueue (e l))).hub.link :=
    h1.then_ ⟨_, _, _, _, _, _, _, rfl⟩
  rw [State.postEntry_eq]
  dsimp only
  split
  · exact (h2 _).then_ (State.notify_link _)
  · exact h2 _

/-- Waking leaves the host awake and posts nothing. -/
theorem State.wake_link (s : State) : HostLink.Posted { s.hub.link with asleep := false } s.wake.hub.link := by
  unfold State.wake
  split
  · next h =>
    have e : s.hub.link = { s.hub.link with asleep := false } := by rw [← (Bool.not_eq_true' _).mp h]
    rw [← e]
    exact .same _
  · dsimp only
    split
    · exact .same _
    · exact State.notify_link _

@[simp] theorem State.doorbell_link (mb : Fin 8) (s : State) :
    (s.doorbell mb).hub.link = { s.hub.link with doors := upd s.hub.link.doors mb (· + 1) } := by
  unfold State.doorbell
  rw [State.linkMap_hub, weir_link]

/-! ### The bound of the completion queue (R396, R403) -/

theorem State.notify_cq_length (s : State) : s.notify.hub.link.cq.length = s.hub.link.cq.length := by
  unfold State.notify State.datagram
  dsimp only
  split <;> simp

/-- The places picked for a merge lie within a queue that holds two entries. -/
theorem mergePick_lt {q : List Entry} (h : 2 ≤ q.length) : (mergePick q).1 < q.length ∧ (mergePick q).2 < q.length := by
  unfold mergePick
  extract_lets non
  have hn : ∀ x ∈ non, x.1 < q.length := by
    simp only [non, List.mem_map, List.mem_filter]
    rintro x ⟨⟨e, k⟩, ⟨hm, -⟩, rfl⟩
    exact (List.mem_zipIdx' hm).1
  have hm (x) (hx : x ∈ non.filter (fun x => !x.2)) : x.1 < q.length := hn x (List.mem_of_mem_filter hx)
  have two {l : List (Nat × Bool)} {x y : Nat × Bool} {t : List (Nat × Bool)} (hl : ∀ z ∈ l, z.1 < q.length) (e : l = x :: y :: t) :
      x.1 < q.length ∧ y.1 < q.length := by
    subst e
    exact ⟨hl x (by simp), hl y (by simp)⟩
  clear_value non
  split
  · exact two hn rfl
  · split
    · next hk => exact two hm hk
    · exact ⟨by omega, by omega⟩

/-- A merge makes one entry of two. -/
theorem State.coalesce_cq_length {s : State} (h : 2 ≤ s.hub.link.cq.length) :
    s.coalesce.hub.link.cq.length = s.hub.link.cq.length - 1 := by
  obtain ⟨hi, hj⟩ := mergePick_lt h
  unfold State.coalesce
  dsimp only
  rw [List.getElem?_eq_getElem hi, List.getElem?_eq_getElem hj]
  dsimp only
  rw [State.raiseHub_link]
  simp [List.length_eraseIdx, hj]

theorem State.roomy_cq_length {s : State} (h : s.hub.link.cq.length ≤ 256) : s.roomy.hub.link.cq.length < 256 := by
  unfold State.roomy
  split
  · assumption
  · rw [State.coalesce_cq_length (by omega)]
    omega

theorem State.postEntry_cq_length_le {s : State} (mb cmd : Nat) (unsol wake : Bool) (seq : BitVec 16) (status : Nat) (frame : Word)
    (payload : List Byte) (h : s.hub.link.cq.length ≤ 256) : (s.postEntry mb cmd unsol wake seq status frame payload).hub.link.cq.length ≤ 256 := by
  have hr := State.roomy_cq_length h
  have hu (e : HostLink → Entry) : (s.roomy.linkMap (fun l => l.enqueue (e l))).hub.link.cq.length ≤ 256 := by
    simp only [State.linkMap_hub, HostLink.enqueue, List.length_append, List.length_singleton]
    omega
  rw [State.postEntry_eq]
  dsimp only
  split
  · rw [State.notify_cq_length]
    exact hu _
  · exact hu _

/-! ### The order of completions (R379, R380) -/

/-- The requests of a mailbox, as `postDone` numbers them. -/
theorem map_fst_mine (mb : Nat) (l : List HReq) :
    (l.zipIdx.filter (fun x => x.1.mb = mb)).map Prod.fst = l.filter (fun r => r.mb = mb) := by
  rw [← List.zipIdx_map_fst 0 l, List.filter_map, List.zipIdx_map_fst]
  rfl

/-- While the oldest request of an in-order mailbox has not finished, none of its completions leaves. -/
theorem State.postDone_of_waiting {mb : Nat} {s : State} {r : HReq} {rest : List HReq} (h4 : mb ≠ 4) (h5 : mb ≠ 5)
    (hr : s.hub.link.reqs.filter (fun x => x.mb = mb) = r :: rest) (hn : r.res = none) : ∀ n, s.postDone mb n = s
  | 0 => rfl
  | n + 1 => by
    unfold State.postDone
    dsimp only
    rw [← map_fst_mine] at hr
    obtain ⟨⟨x, i⟩, t, ht, rfl, -⟩ := List.map_eq_cons_iff.mp hr
    rw [if_neg (by simp [h4, h5]), ht]
    simp [Option.filter, show x.res = none from hn]

/-- Without a request outstanding there is none to complete. -/
theorem State.postDone_of_no_request {mb : Nat} {s : State} (h : s.hub.link.reqs.filter (fun x => x.mb = mb) = []) :
    ∀ n, s.postDone mb n = s
  | 0 => rfl
  | n + 1 => by
    unfold State.postDone
    dsimp only
    rw [← map_fst_mine, List.map_eq_nil_iff] at h
    simp [h]

theorem State.postReq_reqs (r : HReq) (status : Nat) (payload : List Byte) (s : State) :
    (s.postReq r status payload).hub.link.reqs = s.hub.link.reqs := by
  unfold State.postReq
  extract_lets s1
  have h : s1.hub.link.reqs = s.hub.link.reqs := by
    simp only [s1]
    split
    · rfl
    · exact (State.postEntry_link ..).keeps.1
  split <;> exact h

/-- The one request of its mailbox, finished: it leaves with its completion. -/
theorem State.postDone_of_only {mb : Nat} {s : State} {l : List HReq} {r : HReq} {st : Nat} {p : List Byte} (n : Nat)
    (hs : s.hub.link.reqs = l ++ [r]) (hl : l.filter (fun x => x.mb = mb) = []) (hm : r.mb = mb) (hr : r.res = some (st, p)) :
    s.postDone mb (n + 1) = (s.linkMap (fun k => { k with reqs := l })).postReq r st p := by
  have hz : (l ++ [r]).zipIdx.filter (fun x => x.1.mb = mb) = [(r, l.length)] := by
    have h0 : l.zipIdx.filter (fun x => x.1.mb = mb) = [] := List.map_eq_nil_iff.mp ((map_fst_mine mb l).trans hl)
    rw [List.zipIdx_append, List.filter_append, h0]
    simp [hm]
  have ht : ((s.linkMap (fun k => { k with reqs := l })).postReq r st p).hub.link.reqs = l := State.postReq_reqs ..
  have he : s.linkMap (fun k => { k with reqs := k.reqs.eraseIdx l.length }) = s.linkMap (fun k => { k with reqs := l }) := by
    unfold State.linkMap State.hubMap
    dsimp only
    rw [hs, List.eraseIdx_append_of_length_le (Nat.le_refl _)]
    simp
  rw [State.postDone, hs, hz]
  simp only [List.find?_cons, List.head?_cons, hr, Option.isSome_some, Option.filter_some, ite_self, if_true]
  rw [he]
  exact State.postDone_of_no_request (by rw [ht]; exact hl) n

/-- The one request of its mailbox finishes: it leaves with its completion. -/
theorem State.finish_of_only {s : State} {l : List HReq} {r : HReq} (status : Nat) (payload : List Byte) (hs : s.hub.link.reqs = l ++ [r])
    (hl : l.filter (fun x => x.mb = r.mb) = []) (hr : r.res = none) : s.finish r.mb r.seq status payload =
      (s.linkMap (fun k => { k with reqs := l })).postReq { r with res := some (status, payload) } status payload := by
  have hk : l.map (fun x => if x.mb = r.mb && x.seq = r.seq && x.res.isNone then { x with res := some (status, payload) } else x) = l := by
    refine (List.map_congr_left (g := id) fun x hx => if_neg ?_).trans (List.map_id l)
    have hx : x.mb ≠ r.mb := by simpa using List.filter_eq_nil_iff.mp hl x hx
    simp [hx]
  unfold State.finish
  refine (State.postDone_of_only (l := l) (r := { r with res := some (status, payload) }) 39 ?_ hl rfl rfl).trans rfl
  show s.hub.link.reqs.map _ = _
  rw [hs, List.map_append, hk]
  simp [hr]

/-- The completion of a request, the host awake and the queue with room: one entry, none for a SILENT request that succeeded in full. -/
theorem State.postReq_cq {s : State} (r : HReq) (status : Nat) (payload : List Byte) (hr : s.hub.link.cq.length < 256)
    (ha : s.hub.link.asleep = false) : (s.postReq r status payload).hub.link.cq = s.hub.link.cq ++ (if r.silent = true ∧ status = 0 then [] else
      [⟨r.mb, r.cmd, false, r.mb = 0, r.seq, s.hub.link.outAlive, status, s.hub.frame, payload, s.now, false, false, false⟩]) := by
  unfold State.postReq
  extract_lets s1
  have h : (if r.mb = 7 && r.cmd = 1 && status = 0 then s1.linkMap (fun l => { l with asleep := true }) else s1).hub.link.cq =
      s1.hub.link.cq := by split <;> rfl
  rw [h]
  by_cases hq : r.silent = true ∧ status = 0
  · rw [if_pos hq, List.append_nil]
    exact congrArg (fun t : State => t.hub.link.cq) (if_pos (by simpa using hq))
  · rw [if_neg hq]
    refine (congrArg (fun t : State => t.hub.link.cq) (if_neg (by simpa using hq))).trans ?_
    rw [State.postEntry_of_room _ _ _ _ _ _ _ _ hr ha]
    rfl

/-- While the oldest request of an in-order mailbox has not finished, one that finishes behind it waits. -/
theorem State.finish_of_waiting {mb : Nat} {seq : BitVec 16} {s : State} {r : HReq} {rest : List HReq} (status : Nat) (payload : List Byte)
    (h4 : mb ≠ 4) (h5 : mb ≠ 5) (hr : s.hub.link.reqs.filter (fun x => x.mb = mb) = r :: rest) (hn : r.res = none) (hq : r.seq ≠ seq) :
    s.finish mb seq status payload = s.linkMap (fun l => { l with reqs := l.reqs.map (fun r =>
      if r.mb = mb && r.seq = seq && r.res.isNone then { r with res := some (status, payload) } else r) }) := by
  let f (x : HReq) : HReq := if x.mb = mb && x.seq = seq && x.res.isNone then { x with res := some (status, payload) } else x
  have hf : (fun x : HReq => decide (x.mb = mb)) ∘ f = fun x => decide (x.mb = mb) := by
    funext x
    show decide ((f x).mb = mb) = _
    unfold f
    split <;> rfl
  have hw : (s.hub.link.reqs.map f).filter (fun x => x.mb = mb) = r :: rest.map f := by
    rw [List.filter_map, hf, hr, List.map_cons]
    exact congrArg (· :: _) (if_neg (by simp [hq]))
  exact State.postDone_of_waiting h4 h5 hw hn 40

/-! ### An accepted message -/

theorem HostLink.from_eq (m : Msg) (l : HostLink) : ∃ ports peer, l.from_ m = { l with ports := ports, peer := peer } := by
  unfold HostLink.from_
  split
  · exact ⟨_, _, rfl⟩
  · exact ⟨_, _, rfl⟩
  · exact ⟨l.ports, l.peer, rfl⟩

/-- An accepted message leaves the host awake, its request outstanding behind the others, and the setpoint frames that wait. -/
theorem taken_link (mb : Fin 8) (cmd : Nat) (m : Msg) (s : State) :
    (taken mb cmd m s).hub.link.asleep = false ∧
      (taken mb cmd m s).hub.link.reqs = s.hub.link.reqs ++ [⟨mb.1, m.seq, cmd, m.flags.getLsbD 5, none⟩] ∧
      (taken mb cmd m s).hub.link.mb1 = s.hub.link.mb1 := by
  obtain ⟨ports, peer, hf⟩ := HostLink.from_eq m s.hub.link
  unfold Safety.taken
  extract_lets s1
  have hr : s1.hub.link.reqs = s.hub.link.reqs := by
    show (s.hub.link.from_ m).reqs = _
    rw [hf]
  have hm : s1.hub.link.mb1 = s.hub.link.mb1 := by
    show (s.hub.link.from_ m).mb1 = _
    rw [hf]
  obtain ⟨kr, km, ka, -, -⟩ := (State.wake_link s1).keeps
  rw [State.linkMap_hub, State.doorbell_link]
  exact ⟨ka, by rw [← hr, ← kr], by rw [← hm, ← km]⟩

end Sys2Proof.Machine

open Sys2Proof.Machine Sys2Proof.Safety

/-- Settles O14: the request taken last is the one of its mailbox, so it leaves with its one completion. -/
theorem anAcceptedRequestIsAnsweredOnce : Obligations.AnAcceptedRequestIsAnsweredOnce := by
  unfold Obligations.AnAcceptedRequestIsAnsweredOnce
  intro mb cmd status payload m s u t hm hq
  obtain ⟨ha, hr, -⟩ := taken_link mb cmd m s
  have ht : t = (u.linkMap (fun k => { k with reqs := s.hub.link.reqs })).postReq
      ⟨mb.1, m.seq, cmd, m.flags.getLsbD 5, some (status, payload)⟩ status payload := State.finish_of_only status payload hr hm rfl
  rw [ht]
  exact ⟨State.postReq_reqs .., State.postReq_cq _ _ _ hq ha⟩

/-- Settles O15: the finish marks the request, and no completion of its mailbox may leave before the oldest. -/
theorem inOrderMailboxesHoldCompletionsBack : Obligations.InOrderMailboxesHoldCompletionsBack := by
  unfold Obligations.InOrderMailboxesHoldCompletionsBack
  intro mb seq status payload r rest s h4 h5 hr hn hq
  rw [State.finish_of_waiting status payload h4 h5 hr hn hq]
  exact ⟨rfl, List.length_map _⟩

/-- Settles O16: posting first makes room where there is none. -/
theorem completionQueueHoldsAtMost256 : Obligations.CompletionQueueHoldsAtMost256 := by
  unfold Obligations.CompletionQueueHoldsAtMost256
  intro mb cmd unsol wake seq status frame payload s
  exact State.postEntry_cq_length_le mb cmd unsol wake seq status frame payload

end

section
/-! PROOFS. The Weir's queues: where a record enters, what a full queue loses, and how far a queue grows (R406, R410, R412). -/

namespace Sys2Proof.Machine

open Sys2Proof

/-! ### The place of a record (R406) -/

/-- A record that stands in a queue must come behind another written after it: one SUPCLK period, not consumed, a higher source. -/
def WeirRec.yields (r x : WeirRec) : Bool := supPeriod x.ts = supPeriod r.ts && x.halfQ = r.halfQ && !x.taken && r.src < x.src

theorem weirPut_eq (r : WeirRec) (l : List WeirRec) : weirPut r l =
    l.take (l.length - (l.reverse.takeWhile r.yields).length) ++ [r] ++ l.drop (l.length - (l.reverse.takeWhile r.yields).length) := rfl

theorem weirPut_length (r : WeirRec) (l : List WeirRec) : (weirPut r l).length = l.length + 1 := by
  rw [weirPut_eq]
  simp only [List.length_append, List.length_take, List.length_drop, List.length_singleton]
  omega

theorem weirPut_of_behind {r : WeirRec} {l : List WeirRec} (h : ∀ x, l.getLast? = some x → r.yields x = false) : weirPut r l = l ++ [r] := by
  have hn : l.reverse.takeWhile r.yields = [] := by
    rcases List.eq_nil_or_concat l with rfl | ⟨l0, x, rfl⟩
    · rfl
    · rw [List.concat_eq_append] at h ⊢
      rw [List.reverse_append]
      exact List.takeWhile_cons_of_neg (by simp [h x (by simp)])
  rw [weirPut_eq, hn]
  simp

theorem weirPut_of_yields {r x : WeirRec} (l : List WeirRec) (h : r.yields x = true) : weirPut r (l ++ [x]) = weirPut r l ++ [x] := by
  have hl : (l.reverse.takeWhile r.yields).length ≤ l.length := by
    simpa using (List.takeWhile_sublist (l := l.reverse) r.yields).length_le
  rw [weirPut_eq, weirPut_eq, List.reverse_append]
  simp only [List.reverse_singleton, List.singleton_append, List.takeWhile_cons_of_pos h, List.length_append, List.length_cons, List.length_nil]
  rw [show l.length + (0 + 1) - ((l.reverse.takeWhile r.yields).length + 1) = l.length - (l.reverse.takeWhile r.yields).length by omega,
    List.take_append_of_le_length (by omega), List.drop_append_of_le_length (by omega)]
  simp

/-! ### A queue with room (R410) -/

theorem WeirSt.room_iff {w : WeirSt} {q : Fin 4} : w.room q = true ↔ (w.queues.get q).length < 1024 := by simp [WeirSt.room]

@[simp] theorem WeirSt.put_queue_self (q : Fin 4) (r : WeirRec) (w : WeirSt) :
    (w.put q r).queues.get q = weirPut { r with queue := q.1, ovf := w.ovf.get q } (w.queues.get q) := upd_get_self ..

theorem WeirSt.put_queue_ne {p q : Fin 4} (r : WeirRec) (w : WeirSt) (h : p ≠ q) : (w.put q r).queues.get p = w.queues.get p := upd_get_ne _ _ _ _ h

theorem Hub.append_of_room {q : Fin 4} {u : Hub} (now : Word) (r : WeirRec) (h : (u.weir.queues.get q).length < 1024) :
    u.append now q r = { u with weir := u.weir.put q r } := if_pos (WeirSt.room_iff.mpr h)

theorem Hub.append_of_full {q : Fin 4} {u : Hub} (now : Word) (r : WeirRec) (h : 1024 ≤ (u.weir.queues.get q).length) :
    u.append now q r = u.overflow now q := if_neg (by rw [WeirSt.room_iff]; omega)

/-! ### A full queue and the record of its overflow (R410, log 17) -/

/-- A loss at a queue: LOST, and OVF for the next record. -/
def WeirSt.lose (q : Fin 4) (w : WeirSt) : WeirSt := { w with lost := upd w.lost q (· + 1), ovf := put1 w.ovf q true }

/-- The record of WEIR_OVERFLOW at the hub. -/
def Hub.overflowRec (now : Word) (u : Hub) : WeirRec := ⟨0x088, 0, 0, false, false, false, u.frame, now, locHub, false⟩

theorem Hub.overflow_eq (now : Word) (q : Fin 4) (u : Hub) : u.overflow now q =
    { u with weir := (u.weir.lose q).note (u.overflowRec now), flt := { u.flt with queue := u.flt.queue ++ [⟨0x68, u.frame, locHub⟩] } } := rfl

theorem WeirSt.note_of_room {w : WeirSt} {r : WeirRec} {p : Fin 4} (hs : w.srcOf r.src = (true, p.1)) (hr : (w.queues.get p).length < 1024) :
    w.note r = w.put p r := by
  unfold WeirSt.note
  rw [hs]
  dsimp only
  rw [fin?_val]
  exact if_pos (WeirSt.room_iff.mpr hr)

theorem WeirSt.note_of_no_room {w : WeirSt} {r : WeirRec} (h : ∀ p : Fin 4, w.srcOf r.src = (true, p.1) → 1024 ≤ (w.queues.get p).length) :
    w.note r = w := by
  unfold WeirSt.note
  split
  · next n hs =>
    split
    · next p hp =>
      have hn : p.1 = n := by
        unfold fin? at hp
        split at hp
        · exact (congrArg Fin.val (Option.some.inj hp)).symm
        · nomatch hp
      exact if_neg (by rw [WeirSt.room_iff, Nat.not_lt]; exact h p (hn ▸ hs))
    · rfl
  · rfl

/-- A record is noted in the queue of its source where that has room, and nowhere else. -/
theorem WeirSt.note_cases (w : WeirSt) (r : WeirRec) :
    (∃ p : Fin 4, w.srcOf r.src = (true, p.1) ∧ (w.queues.get p).length < 1024 ∧ w.note r = w.put p r) ∨
      w.note r = w ∧ ∀ p : Fin 4, ¬ (w.srcOf r.src = (true, p.1) ∧ (w.queues.get p).length < 1024) := by
  by_cases h : ∃ p : Fin 4, w.srcOf r.src = (true, p.1) ∧ (w.queues.get p).length < 1024
  · obtain ⟨p, hs, hr⟩ := h
    exact .inl ⟨p, hs, hr, WeirSt.note_of_room hs hr⟩
  · have hn := not_exists.mp h
    exact .inr ⟨WeirSt.note_of_no_room fun p hs => Nat.not_lt.mp fun hr => hn p ⟨hs, hr⟩, hn⟩

@[simp] theorem WeirSt.note_lost (w : WeirSt) (r : WeirRec) : (w.note r).lost = w.lost := by
  obtain ⟨p, -, -, h⟩ | ⟨h, -⟩ := w.note_cases r <;> rw [h]
  rfl

/-- Where the record is noted in a queue. -/
theorem WeirSt.note_queue_of_room {w : WeirSt} {r : WeirRec} {p : Fin 4} (hs : w.srcOf r.src = (true, p.1))
    (hr : (w.queues.get p).length < 1024) :
    (w.note r).queues.get p = weirPut { r with queue := p.1, ovf := w.ovf.get p } (w.queues.get p) := by
  rw [WeirSt.note_of_room hs hr, WeirSt.put_queue_self]

/-- Where it is not. -/
theorem WeirSt.note_queue_of_not {w : WeirSt} {r : WeirRec} {p : Fin 4}
    (h : ¬ (w.srcOf r.src = (true, p.1) ∧ (w.queues.get p).length < 1024)) :
    (w.note r).queues.get p = w.queues.get p ∧ (w.note r).ovf.get p = w.ovf.get p := by
  obtain ⟨q, hs, hr, e⟩ | ⟨e, -⟩ := w.note_cases r
  · have hq : p ≠ q := fun he => h (he ▸ ⟨hs, hr⟩)
    rw [e]
    exact ⟨WeirSt.put_queue_ne r w hq, put1_get_ne _ _ _ _ hq⟩
  · rw [e]
    exact ⟨rfl, rfl⟩

/-! ### The bounds (R410, R412) -/

theorem WeirSt.put_length_le {w : WeirSt} {q : Fin 4} (r : WeirRec) (h : ∀ p : Fin 4, (w.queues.get p).length ≤ 1024)
    (hr : (w.queues.get q).length < 1024) (p : Fin 4) : ((w.put q r).queues.get p).length ≤ 1024 := by
  by_cases hp : p = q
  · subst hp
    rw [WeirSt.put_queue_self, weirPut_length]
    exact hr
  · rw [WeirSt.put_queue_ne r w hp]
    exact h p

theorem WeirSt.note_length_le {w : WeirSt} (r : WeirRec) (h : ∀ p : Fin 4, (w.queues.get p).length ≤ 1024) (p : Fin 4) :
    ((w.note r).queues.get p).length ≤ 1024 := by
  obtain ⟨q, -, hr, e⟩ | ⟨e, -⟩ := w.note_cases r <;> rw [e]
  · exact WeirSt.put_length_le r h hr p
  · exact h p

theorem Hub.append_length_le {u : Hub} (now : Word) (q : Fin 4) (r : WeirRec) (h : ∀ p : Fin 4, (u.weir.queues.get p).length ≤ 1024)
    (p : Fin 4) : ((u.append now q r).weir.queues.get p).length ≤ 1024 := by
  by_cases hr : (u.weir.queues.get q).length < 1024
  · rw [Hub.append_of_room now r hr]
    exact WeirSt.put_length_le r h hr p
  · rw [Hub.append_of_full now r (Nat.not_lt.mp hr), Hub.overflow_eq]
    exact WeirSt.note_length_le (w := u.weir.lose q) _ h p

theorem Hub.weirWrite_length_le {u : Hub} (now : Word) (src kind : Nat) (level halfQ : Bool) (frame ts payload : Word)
    (h : ∀ p : Fin 4, (u.weir.queues.get p).length ≤ 1024) (p : Fin 4) :
    ((u.weirWrite now src kind level halfQ frame ts payload).weir.queues.get p).length ≤ 1024 := by
  unfold Hub.weirWrite
  dsimp only
  split
  · exact h p
  · split
    · exact Hub.append_length_le now _ _ h p
    · exact h p

theorem Half.evOverflow_evq (src : Nat) (h : Half) : (h.evOverflow src).evq = h.evq := by
  unfold Half.evOverflow
  dsimp only
  split
  · rfl
  · exact Half.raise_evq ..

theorem Half.evAppend_length_le {h : Half} (r : WeirRec) (hl : h.evq.length ≤ 256) : (h.evAppend r).evq.length ≤ 256 := by
  unfold Half.evAppend
  dsimp only
  split
  · rw [weirPut_length]
    assumption
  · split
    · next i hi =>
      have hi := (List.findIdx?_eq_some_iff_findIdx_eq.mp hi).1
      rw [weirPut_length, List.length_eraseIdx_of_lt hi]
      omega
    · rw [Half.evOverflow_evq]
      exact hl

end Sys2Proof.Machine

open Sys2Proof Sys2Proof.Machine

/-- Settles O17: with room the record takes its place in its queue, without it the overflow's own record goes where its source's queue has
room; no queue takes a record without room. -/
theorem weirQueuesLoseAndCount : Obligations.WeirQueuesLoseAndCount := by
  unfold Obligations.WeirQueuesLoseAndCount
  refine ⟨fun now q r u hr => ?_, fun now q r u hr => ?_, fun now src kind level halfQ frame ts payload u h =>
    Hub.weirWrite_length_le now src kind level halfQ frame ts payload h, fun r h => Half.evAppend_length_le r⟩
  · intro r1 l v
    have hv : v = { u with weir := u.weir.put q r } := Hub.append_of_room now r hr
    rw [hv]
    refine ⟨WeirSt.put_queue_self .., weirPut_length .., fun h => weirPut_of_behind fun x hx => ?_, fun x l0 hl h1 h2 h3 h4 => ?_,
      put1_get_self .., rfl, fun p => WeirSt.put_queue_ne r u.weir⟩
    · have := h x hx
      unfold WeirRec.yields
      grind
    · rw [hl]
      exact weirPut_of_yields l0 (by simp [WeirRec.yields, r1, h1, h2, h3, h4])
  · intro v own
    have hv : v = u.overflow now q := Hub.append_of_full now r hr
    have full : ¬ (u.weir.srcOf 0x088 = (true, q.1) ∧ (u.weir.queues.get q).length < 1024) := fun h => by omega
    rw [hv, Hub.overflow_eq]
    let w : WeirSt := u.weir.lose q
    obtain ⟨hq, ho⟩ := WeirSt.note_queue_of_not (w := w) (r := own) full
    refine ⟨hq, (congrArg (Vector.get · q) (WeirSt.note_lost w own)).trans (upd_get_self ..), ho.trans (put1_get_self ..), rfl,
      fun p => ⟨fun hs hp => ?_, fun h => (WeirSt.note_queue_of_not (w := w) (r := own) h).1⟩⟩
    have hne : p ≠ q := fun e => full (e ▸ ⟨hs, hp⟩)
    have hp1 : w.ovf.get p = u.weir.ovf.get p := put1_get_ne _ _ _ _ hne
    rw [← hp1]
    exact WeirSt.note_queue_of_room (w := w) (r := own) hs hp

end

section
/-! PROOFS. The check units and what a request meets before it is served: the alive counter, the refusals, discarded and unknown messages,
faulty streams (R373, R379 to R386). -/

namespace Sys2Proof.Machine

open Sys2Proof

/-! ### The alive counter (R384) -/

/-- The state after a frame from which its mailbox's alive counter counts on. -/
def State.follow (mb : Fin 8) (m : Msg) (s : State) : State := s.linkMap (fun l => { l with alive := put1 l.alive mb (some m.alive) })

theorem State.aliveCheck_of_first {mb : Fin 8} {m : Msg} {s : State} (cmd : Nat) (h : s.hub.link.alive.get mb = none) :
    s.aliveCheck mb cmd m = (s.follow mb m, true) := by
  unfold State.aliveCheck
  rw [h]
  rfl

/-- The check by the distance from the last accepted frame. -/
theorem State.aliveCheck_of_some {mb : Fin 8} {m : Msg} {s : State} {a : BitVec 16} (cmd : Nat) (h : s.hub.link.alive.get mb = some a) :
    s.aliveCheck mb cmd m =
      if (m.alive - a).toNat = 1 then (s.follow mb m, true)
      else if (m.alive - a).toNat = 2 then ((s.follow mb m).raiseHub 0x61 locHub, true)
      else if (m.alive - a).toNat = 0 ∨ 32768 ≤ (m.alive - a).toNat then ((s.refuse mb.1 cmd m.seq 0x20).checkFail (mbStream mb.1), false)
      else (((s.follow mb m).refuse mb.1 cmd m.seq 0x21).checkFail (mbStream mb.1), false) := by
  unfold State.aliveCheck
  rw [h]
  simp only [Bool.or_eq_true, decide_eq_true_eq]
  rfl

/-! ### The refusals before acceptance (R379, R381) -/

/-- What the stage refuses rests on the boot state. -/
theorem State.stageRefuses_congr {s t : State} (mb cmd : Nat) (h : t.hub.boot = s.hub.boot) : t.stageRefuses mb cmd = s.stageRefuses mb cmd := by
  unfold State.stageRefuses
  rw [h]

/-- The common checks in their order. -/
theorem State.accept_of_stage {a : Ask} {s : State} {st : Nat} (lenOk : Bool) (serve : Ask → State → State)
    (h : s.stageRefuses a.mb a.cmd = some st) : s.accept a lenOk serve = s.refuse a.mb a.cmd a.seq st := by
  unfold State.accept
  rw [h]

theorem State.accept_of_no_stage {a : Ask} {s : State} (lenOk : Bool) (serve : Ask → State → State)
    (h : s.stageRefuses a.mb a.cmd = none) : s.accept a lenOk serve =
      let mine := s.hub.link.reqs.filter (fun r => r.mb = a.mb)
      if lenOk = false then s.refuse a.mb a.cmd a.seq 0x12
      else if 32 ≤ mine.length then s.refuse a.mb a.cmd a.seq 0x14
      else if mine.any (fun r => r.seq = a.seq) = true then s.refuse a.mb a.cmd a.seq 0x15
      else serve a (s.linkMap (fun l => { l with reqs := l.reqs ++ [⟨a.mb, a.seq, a.cmd, a.silent, none⟩] })) := by
  unfold State.accept
  rw [h]
  simp only [Bool.not_eq_true', ge_iff_le]

/-- Where no check refuses, the request is outstanding and served. -/
theorem State.accept_of_free {a : Ask} {s : State} {lenOk : Bool} (serve : Ask → State → State) (hst : s.stageRefuses a.mb a.cmd = none)
    (hl : lenOk = true) (hr : (s.hub.link.reqs.filter (fun r => r.mb = a.mb)).length < 32)
    (hf : (s.hub.link.reqs.filter (fun r => r.mb = a.mb)).any (fun r => r.seq = a.seq) = false) : s.accept a lenOk serve =
      serve a (s.linkMap (fun l => { l with reqs := l.reqs ++ [⟨a.mb, a.seq, a.cmd, a.silent, none⟩] })) := by
  rw [State.accept_of_no_stage lenOk serve hst]
  exact (if_neg (by simp [hl])).trans ((if_neg (Nat.not_le.mpr hr)).trans (if_neg (Bool.eq_false_iff.mp hf)))

/-! ### Lastingly faulty streams (R386) -/

theorem State.streamRecover_of_faulty {i : Fin 9} {s : State} (hc : s.clocked = true) (hf : s.hub.link.faulty.get i = true) :
    s.streamRecover i = (s.advanceTo ((s.hub.link.fails.get i).headD 0 + s.hub.link.cfg.chkWin * etPerMs)).linkMap
      (fun l => { l with faulty := put1 l.faulty i false, fails := put1 l.fails i [] }) := if_neg (by simp [hc, hf])

theorem State.streamRecover_of_not {i : Fin 9} {s : State} (h : s.clocked = false ∨ s.hub.link.faulty.get i = false) :
    s.streamRecover i = s := if_pos (by simpa using h)

/-! ### Discarded and unknown messages (R373, R381, R383) -/

theorem State.discard_of_wrong {t : Transport} {b : List Byte} {udp : Nat} {s : State} (hs : s.serves t = true) (hb : b ≠ [])
    (hw : crcOk b = false ∨ ((t = .eth1 ∨ t = .eth2) ∧ udp ≠ u16 b 6)) : s.discard t b udp = s.checkFail (mbStream (byteAt b 0)) := by
  unfold State.discard
  dsimp only
  rw [if_neg, if_neg (by simp [hb])]
  rcases hw with hc | ⟨rfl | rfl, hu⟩
  · simp [hs, hc]
  · simp [hs, hu]
  · simp [hs, hu]

theorem fin?_of_le {n v : Nat} (h : n ≤ v) : fin? n v = none := dif_neg (Nat.not_lt.mpr h)

/-- A message to a mailbox above 7. -/
theorem State.unknown_of_no_mailbox {mb cmd : Nat} {m : Msg} {s : State} (h : 8 ≤ mb) (hs : s.serves m.t = true) :
    s.unknown mb cmd m = if misfit m then s.checkFail none else s.wake.refuse mb cmd m.seq 0x10 := by
  unfold State.unknown
  rw [fin?_of_le h]
  exact if_neg (by simp [hs])

/-- A message of no known command goes by its check unit and the stage. -/
theorem State.unknown_of_mailbox {mb : Fin 8} {cmd : Nat} {m : Msg} {s : State} (hk : known mb.1 cmd = false) :
    s.unknown mb.1 cmd m = if (s.hear mb cmd m).2 = false then (s.hear mb cmd m).1 else
      (s.hear mb cmd m).1.refuse mb.1 cmd m.seq (((s.hear mb cmd m).1.stageRefuses mb.1 cmd).getD 0x11) := by
  unfold State.unknown
  rw [fin?_val]
  dsimp only
  rw [if_neg (by simp [hk])]
  simp only [Bool.not_eq_true']

theorem State.hear_of_misfit {mb : Fin 8} {m : Msg} {s : State} (cmd : Nat) (hs : s.serves m.t = true) (hm : misfit m = true) :
    s.hear mb cmd m = (s.checkFail (mbStream mb.1), false) := by
  unfold State.hear
  rw [if_neg (by simp [hs]), if_pos hm]

/-- A refusal leaves the alive counters and the count of check failures. -/
theorem State.refuse_keeps (mb cmd : Nat) (seq : BitVec 16) (status : Nat) (s : State) :
    (s.refuse mb cmd seq status).hub.link.alive = s.hub.link.alive ∧ (s.refuse mb cmd seq status).hub.link.chk = s.hub.link.chk := by
  obtain ⟨-, -, -, ha, hc⟩ := (State.postEntry_link mb cmd false (mb = 0) seq status s.hub.frame [] s).keeps
  exact ⟨ha, hc⟩

theorem State.wake_keeps (s : State) : s.wake.hub.link.alive = s.hub.link.alive ∧ s.wake.hub.link.chk = s.hub.link.chk := by
  obtain ⟨-, -, -, ha, hc⟩ := s.wake_link.keeps
  exact ⟨ha, hc⟩

end Sys2Proof.Machine

open Sys2Proof Sys2Proof.Machine

/-- Settles O12: the distance picks the branch of the check. -/
theorem aliveCounterDecides : Obligations.AliveCounterDecides := by
  unfold Obligations.AliveCounterDecides
  intro mb cmd m s set
  refine ⟨State.aliveCheck_of_first cmd, fun a ha => ?_⟩
  rw [State.aliveCheck_of_some cmd ha]
  refine ⟨fun h => if_pos h, fun h => ?_, fun h => ?_, fun ⟨h3, hl⟩ => ?_⟩
  · rw [if_neg (by omega), if_pos h]
    rfl
  · rw [if_neg (by omega), if_neg (by omega), if_pos h]
  · rw [if_neg (by omega), if_neg (by omega), if_neg (by omega)]
    rfl

/-- Settles O13: the stage first, then the three other checks in their order. -/
theorem refusalsBeforeAcceptanceInOrder : Obligations.RefusalsBeforeAcceptanceInOrder := by
  unfold Obligations.RefusalsBeforeAcceptanceInOrder
  intro a lenOk serve s mine
  refine ⟨fun st => State.accept_of_stage lenOk serve, fun hst => ?_⟩
  have checks := State.accept_of_no_stage lenOk serve hst
  refine ⟨fun hl => checks.trans (if_pos hl), fun hl hn => checks.trans ?_, fun hl hn hs => checks.trans ?_,
    fun hl hn hs => State.accept_of_free serve hst hl hn hs⟩
  · exact (if_neg (by simp [hl])).trans (if_pos hn)
  · exact (if_neg (by simp [hl])).trans ((if_neg (Nat.not_le.mpr hn)).trans (if_pos hs))

/-- Settles O19: the row is the recovery of the stream it names. -/
theorem streamsRecoverAfterCheckWindow : Obligations.StreamsRecoverAfterCheckWindow := by
  unfold Obligations.StreamsRecoverAfterCheckWindow
  intro x s i
  exact ⟨fun hc hf => congrArg Host.Outcome.next (State.streamRecover_of_faulty hc hf),
    fun h => congrArg Host.Outcome.next (State.streamRecover_of_not h)⟩

/-- Settles O21: a discarded frame by what is wrong with it, a message by whether its mailbox exists and its check unit passes it. -/
theorem discardedAndUnknownMessages : Obligations.DiscardedAndUnknownMessages := by
  unfold Obligations.DiscardedAndUnknownMessages
  intro s
  refine ⟨fun t b udp hs hb hw => congrArg Host.Outcome.next (State.discard_of_wrong hs hb hw),
    fun mb cmd m hs hm b hb hk => congrArg Host.Outcome.next ?_, fun mb cmd m hs hm h8 => congrArg Host.Outcome.next ?_,
    fun mb cmd m hs hm h8 => ⟨_, congrArg Host.Outcome.next ?_, rfl, ?_⟩, fun mb cmd m u hk hh hst => congrArg Host.Outcome.next ?_⟩
  · rw [hb, State.unknown_of_mailbox hk, State.hear_of_misfit _ hs hm]
    rfl
  · exact (State.unknown_of_no_mailbox h8 hs).trans (if_pos hm)
  · exact (State.unknown_of_no_mailbox h8 hs).trans (if_neg (by simp [hm]))
  · obtain ⟨ra, rc⟩ := s.wake.refuse_keeps mb.toNat cmd.toNat m.seq 0x10
    exact ⟨ra.trans s.wake_keeps.1, rc.trans s.wake_keeps.2⟩
  · have hb : (BitVec.ofNat 8 mb.1).toNat = mb.1 := (BitVec.toNat_ofNat ..).trans (Nat.mod_eq_of_lt (by omega))
    rw [hb, State.unknown_of_mailbox hk, hh]
    dsimp only
    rw [hst]
    rfl

end

section
/-! PROOFS. Below the mailboxes: repeated notifications and CQ_HEAD, the SPI request buffer, management frames (R374, R376, R399, R400). -/

namespace Sys2Proof.Machine

open Sys2Proof

/-! ### Notifications and CQ_HEAD (R399, R400) -/

/-- The notification sent longest ago goes out again: it counts from its new instant, and CQ_HEAD stays. -/
theorem State.datagram_again {v : State} {n : Nat} (hn : v.now = n) :
    let u := (v.linkMap (fun l => { l with dgAt := l.dgAt.tail })).datagram 0
    u.hub.link.dgAt = v.hub.link.dgAt.tail ++ [n] ∧ u.hub.link.head = v.hub.link.head := by
  subst hn
  exact ⟨rfl, rfl⟩

theorem execDatagramRepeat_of_sent {t : Nat} {rest : List Nat} {s : State} (hs : s.serves .eth1 = true) (hd : s.hub.link.dgAt = t :: rest) :
    execDatagramRepeat s = .next (((s.advanceTo (t + 2 * etPerMs)).linkMap (fun l => { l with dgAt := l.dgAt.tail })).datagram 0) := by
  unfold execDatagramRepeat
  rw [hd]
  exact congrArg Host.Outcome.next (if_pos hs)

/-- A write of CQ_HEAD within the entries posted moves it, frees the entries before it and ends the repeating. -/
theorem State.cqHead_of_posted {v : BitVec 16} {s : State} (h : (v - s.hub.link.head).toNat ≤ (s.hub.link.tail - s.hub.link.head).toNat) :
    (s.cqHead v).hub.link.dgAt = [] ∧ (s.cqHead v).hub.link.head = v ∧
      (s.cqHead v).hub.link.cq = s.hub.link.cq.drop (v - s.hub.link.head).toNat := by
  unfold State.cqHead
  dsimp only
  rw [if_neg (Nat.not_lt.mpr h)]
  exact ⟨rfl, rfl, rfl⟩

/-! ### The SPI request buffer (R374) -/

theorem execRequestBufferWrite_of_free {s : State} (ofs : Nat) (data : List Byte) (hs : s.serves .spi = true) (hb : s.reqBusy = false) :
    execRequestBufferWrite ofs data s = .next (s.linkMap (fun l => { l with buf := overlay l.buf (min ofs 1024) data })) :=
  congrArg Host.Outcome.next ((if_neg (by simp [hs])).trans (if_neg (by simp [hb])))

theorem execRequestBufferWrite_of_busy {s : State} (ofs : Nat) (data : List Byte) (hs : s.serves .spi = true) (hb : s.reqBusy = true) :
    execRequestBufferWrite ofs data s = .next s.spiLost := congrArg Host.Outcome.next ((if_neg (by simp [hs])).trans (if_pos hb))

theorem execReqDbWrite_of_free {s : State} (len : BitVec 16) (hs : s.serves .spi = true) (hb : s.reqBusy = false) :
    execReqDbWrite len s =
      let b := s.hub.link.buf.take len.toNat
      if crcOk b then s.takeBuffer.mail (byteAt b 0) (u16 b 2) (bufMsg b) else .next (s.takeBuffer.discard .spi b 0) :=
  (if_neg (by simp [hs])).trans (if_neg (by simp [hb]))

theorem execReqDbWrite_of_busy {s : State} (len : BitVec 16) (hs : s.serves .spi = true) (hb : s.reqBusy = true) :
    execReqDbWrite len s = .next s.spiLost := (if_neg (by simp [hs])).trans (if_pos hb)

/-- A message handed on answers: it does what its row or an unknown message does. -/
theorem State.mail_answers (mb cmd : Nat) (m : Msg) (s : State) : Answers (s.mail mb cmd m) := by
  obtain ⟨c, -, -, h⟩ | ⟨_, _, _, h⟩ := State.mail_mailed mb cmd m s
  · rw [h]
    exact exec_answers c s
  · exact ⟨_, h⟩

/-! ### Management frames (R376) -/

/-- A management frame of its operation, whole, with a good CRC: the host wakes, and the frame's length decides. -/
theorem State.management_of_good {op : Nat} {b : List Byte} {s : State} (port : Fin 2) (go : Nat → Nat → State → State)
    (hs : s.serves .eth1 = true) (hc : crcOk b = true) (ho : byteAt b 0 = op) (hf : b.length = 12 + u16 b 4 ∨ (op = 3 ∧ b.length = 12)) :
    s.management port op b go =
      if u16 b 4 < 4 ∨ 256 < u16 b 4 ∨ u16 b 4 % 4 ≠ 0 then s.wake.answer port (mgmtAnswer op (u16 b 2) (u16 b 4) 0x12 [])
      else go (u16 b 2) (u16 b 4) s.wake := by
  unfold State.management
  dsimp only
  rw [if_neg (by simp [hs]), if_neg, if_neg (by simp [ho])]
  · simp only [Bool.or_eq_true, decide_eq_true_eq, or_assoc]
  · simpa [hc, not_or, imp_iff_not_or] using hf

end Sys2Proof.Machine

open Sys2Proof Sys2Proof.Machine

/-- Settles O18: the repeat by the time it brings and the notification it sends, CQ_HEAD by its write. -/
theorem notificationsAreRepeatedUntilTheHostReads : Obligations.NotificationsAreRepeatedUntilTheHostReads := by
  unfold Obligations.NotificationsAreRepeatedUntilTheHostReads
  exact ⟨fun t rest s hs hd => ⟨_, execDatagramRepeat_of_sent hs hd, rfl, State.datagram_again (State.advanceTo_now ..)⟩, fun v s hs hv =>
    ⟨_, congrArg Host.Outcome.next (if_pos hs), rfl, State.cqHead_of_posted hv⟩⟩

/-- Settles O20: either write by REQ_BUSY; the message handed on answers, whatever its row. -/
theorem spiRequestBuffer : Obligations.SpiRequestBuffer := by
  unfold Obligations.SpiRequestBuffer
  intro s hs
  refine ⟨fun hb => ⟨fun ofs data _ => execRequestBufferWrite_of_free ofs data hs hb, fun len hc => ?_, fun len hc => ?_⟩,
    fun hb ofs data len => ⟨execRequestBufferWrite_of_busy ofs data hs hb, execReqDbWrite_of_busy len hs hb⟩⟩
  · obtain ⟨t, ht⟩ := State.mail_answers (byteAt (s.hub.link.buf.take len.toNat) 0) (u16 (s.hub.link.buf.take len.toNat) 2)
      (bufMsg (s.hub.link.buf.take len.toNat)) s.takeBuffer
    exact ⟨t, (execReqDbWrite_of_free len hs hb).trans ((if_pos hc).trans ht), ht⟩
  · exact (execReqDbWrite_of_free len hs hb).trans (if_neg (by simp [hc]))

/-- Settles O22: a good frame by its length, a write then by its address. -/
theorem managementFrames : Obligations.ManagementFrames := by
  unfold Obligations.ManagementFrames
  intro port b s hs hc
  refine ⟨fun ho hf => ?_, fun ho hf h4 h256 hm => ?_⟩
  · have row := State.management_of_good port (fun a n s => s.answer port (mgmtAnswer 3 a n 0 ((List.range n).map (fun i => s.windowByte (a + i)))))
      hs hc ho (hf.imp_right fun h => ⟨rfl, h⟩)
    exact ⟨fun hl => congrArg Host.Outcome.next (row.trans (if_neg (by omega))),
      fun hl => congrArg Host.Outcome.next (row.trans (if_pos hl))⟩
  · have row := State.management_of_good port (fun a n s =>
      if a = 0x088 && n = 4 then (s.cqHead (BitVec.ofNat 16 (u16 b 8))).answer port (mgmtAnswer 2 a n 0 [])
      else s.answer port (mgmtAnswer 2 a n 0x13 [])) hs hc ho (.inl hf)
    rw [if_neg (by omega)] at row
    refine ⟨fun ha hn => congrArg Host.Outcome.next (row.trans ?_), fun ha => congrArg Host.Outcome.next (row.trans (if_neg ?_))⟩
    · rw [ha, hn]
      rfl
    · simpa [imp_iff_not_or] using ha

end

section
/-! PROOFS. SETPOINT, the CAN backup and status frames, and mailbox 7 (R384, R385, R387, R392, R393, R395, R401, R422, R451, R452). -/

namespace Sys2Proof.Machine

open Sys2Proof Sys2Proof.Safety

/-! ### An accepted message at its check unit -/

/-- The state after the check unit of an accepted message: `taken` but for its request. -/
def rung (mb : Fin 8) (cmd : Nat) (m : Msg) (s : State) : State :=
  ((s.linkMap (fun l => { (l.from_ m) with
    alive := put1 l.alive mb (some m.alive)
    dups := (m.t, m.alive, crc32c (msgBytes mb.1 cmd m), s.now) :: l.dups.filter (fun d => s.now ≤ d.2.2.2 + etPerMs)
    okRun := if mb.1 = 1 then l.okRun + 1 else l.okRun })).wake).doorbell mb

theorem taken_eq (mb : Fin 8) (cmd : Nat) (m : Msg) (s : State) : taken mb cmd m s =
    (rung mb cmd m s).linkMap (fun l => { l with reqs := l.reqs ++ [⟨mb.1, m.seq, cmd, m.flags.getLsbD 5, none⟩] }) := rfl

theorem rung_linkOnly (mb : Fin 8) (cmd : Nat) (m : Msg) (s : State) : LinkOnly s (rung mb cmd m s) :=
  (LinkOnly.linkMap _ _).then_ ((LinkOnly.wake _).then_ (.doorbell mb _))

/-- The boot stage and the load figure stay. -/
theorem rung_hub (mb : Fin 8) (cmd : Nat) (m : Msg) (s : State) :
    (rung mb cmd m s).hub.boot = s.hub.boot ∧ (rung mb cmd m s).hub.load = s.hub.load := by
  obtain ⟨l, w, f, h⟩ := rung_linkOnly mb cmd m s
  rw [h]
  exact ⟨rfl, rfl⟩

theorem rung_link (mb : Fin 8) (cmd : Nat) (m : Msg) (s : State) :
    (rung mb cmd m s).hub.link.reqs = s.hub.link.reqs ∧ (rung mb cmd m s).hub.link.mb1 = s.hub.link.mb1 := by
  obtain ⟨-, hr, hm⟩ := taken_link mb cmd m s
  rw [taken_eq, State.linkMap_hub] at hr hm
  exact ⟨List.append_cancel_right hr, hm⟩

/-- The alive counter of an accepted message counts on. -/
theorem aliveCheck_of_heard {mb : Fin 8} {cmd : Nat} {len : Ask → Nat} {m : Msg} {s : State} (h : Heard mb cmd len m s) :
    s.aliveCheck mb cmd m = (s.follow mb m, true) := by
  rcases h.alive with ha | ha
  · exact State.aliveCheck_of_first cmd ha
  · have hd : (m.alive - (m.alive - 1)).toNat = 1 := by bv_omega
    rw [State.aliveCheck_of_some cmd ha, if_pos hd]

theorem hear_of_heard {mb : Fin 8} {cmd : Nat} {len : Ask → Nat} {m : Msg} {s : State} (h : Heard mb cmd len m s) :
    s.hear mb cmd m = (rung mb cmd m s, true) := by
  have hm : misfit m = false := by simp [misfit, h.length.2.1]
  unfold State.hear
  rw [if_neg (by simp [h.serves]), if_neg (by simp [hm])]
  dsimp only
  rw [if_neg (by simp [h.once]), aliveCheck_of_heard h]
  refine congrArg (fun x : State => (x.wake.doorbell mb, true)) ?_
  unfold State.follow State.linkMap State.hubMap HostLink.from_
  cases m.t <;> rfl

/-! ### SETPOINT and its load figure (R147, R387, R422) -/

theorem State.takeLoad_hub (v : Nat) (s : State) :
    (s.takeLoad v).hub = { s.hub with load := if v = 0xFFFF then s.hub.load else min v 1200 } := by
  unfold State.takeLoad
  split
  · rfl
  · refine eachOf_same bothHalves State.hub (fun id t => ?_) _
    split
    · exact State.setHalf_hub ..
    · rfl

/-- An accepted SETPOINT: its load figure is taken, it is outstanding, and it waits for host intake. -/
theorem execSetpoint_of_heard {m : Msg} {s : State} (h : Heard 1 1 (fun a => 24 + 28 * a.b 18) m s) : execSetpoint m s =
    .next ((((rung 1 1 m s).takeLoad ((msgAsk 1 1 m).h 16)).linkMap (fun l => { l with
      reqs := l.reqs ++ [⟨1, m.seq, 1, m.flags.getLsbD 5, none⟩] })).linkMap (fun l => { l with mb1 := l.mb1 ++ [msgAsk 1 1 m] })) := by
  obtain ⟨hlen, hpay, hmax⟩ := h.length
  have h4 : 4 ≤ m.payload.length := by omega
  have hb : ((rung 1 1 m s).takeLoad ((msgAsk 1 1 m).h 16)).hub.boot = s.hub.boot := by
    rw [State.takeLoad_hub]
    exact (rung_hub 1 1 m s).1
  have hr : ((rung 1 1 m s).takeLoad ((msgAsk 1 1 m).h 16)).hub.link.reqs = s.hub.link.reqs := by
    rw [State.takeLoad_hub]
    exact (rung_link 1 1 m s).1
  have hs : (rung 1 1 m s).stageRefuses 1 1 = none := (State.stageRefuses_congr 1 1 (rung_hub 1 1 m s).1).trans h.stage
  have ht : 2 ≤ (msgAsk 1 1 m).p.length := Nat.le_trans (by decide) h4
  unfold execSetpoint
  rw [hear_of_heard h]
  dsimp only
  rw [hs, if_neg (by simp), if_pos (by simp [ht])]
  have hroom := h.room
  have hfresh := h.fresh
  rw [← hr] at hroom hfresh
  refine congrArg Host.Outcome.next (State.accept_of_free _ ((State.stageRefuses_congr 1 1 hb).trans h.stage) ?_ hroom hfresh)
  have hp : m.len = 20 + (msgAsk 1 1 m).p.length := hpay
  have hq : 4 ≤ (msgAsk 1 1 m).p.length := h4
  simp only [Bool.and_eq_true, decide_eq_true_eq]
  exact ⟨⟨⟨⟨by omega, hmax⟩, hq⟩, hp⟩, hlen⟩

/-! ### CAN backup frames (R385, R392, R393) -/

/-- The state after a backup frame from which its cylinder's alive counter counts on. -/
def State.canFollow (c : Fin 24) (al : Nat) (s : State) : State := s.linkMap (fun l => { l with canAlive := put1 l.canAlive c (some al) })

/-- The state after a backup frame that is taken: its load figure is, and it waits for host intake. -/
def State.canGood (c : Fin 24) (al : Nat) (data : List Byte) (s : State) : State :=
  ((s.canFollow c al).takeLoad (u16 data 28)).linkMap (fun l => { l with mb1 := l.mb1 ++ [⟨8, 0, 0, true, data⟩] })

/-- A whole backup frame of the configured port and of a cylinder's identifier goes by its alive counter. -/
theorem State.canBackup_of_whole {port ident : Nat} {data : List Byte} {s : State} {c : Fin 24} (hc : s.clocked = true)
    (hst : s.hub.boot.stage = 4) (he : s.hub.link.cfg.backupEn = true) (hp : port = s.hub.link.cfg.backupPort) (hl : data.length = 32)
    (hcrc : crc16 (data.take 30) = BitVec.ofNat 16 (256 * byteAt data 30 + byteAt data 31)) (hi : ident = s.hub.link.cfg.spBase + c.1)
    (hb : byteAt data 1 = c.1 + 1) :
    let al := byteAt data 0 / 16
    s.canBackup port ident data = (s.hub.link.canAlive.get c).elim (s.canGood c al data) (fun old =>
      if (al + 16 - old) % 16 = 1 then s.canGood c al data
      else if (al + 16 - old) % 16 = 2 then (s.canGood c al data).raiseHub 0x61 locHub
      else (s.checkFail (some 8)).canFollow c al) := by
  have hcyl : ident + 1 - s.hub.link.cfg.spBase = c.1 + 1 := by omega
  have hserve : s.serves .eth1 = true := by simp [State.serves, hc, hst]
  unfold State.canBackup
  dsimp only
  rw [hcyl, if_neg, if_neg (by simp [hl, hcrc]), if_neg (by simp [hb]), Nat.add_sub_cancel, fin?_val]
  · dsimp only
    cases s.hub.link.canAlive.get c <;> rfl
  · have hci : c.1 < 24 := c.2
    simp [hserve, hst, he, hp]
    omega

/-! ### CAN status frames (R395) -/

theorem LinkCfg.canPorts_nodup (l : LinkCfg) : l.canPorts.Nodup := (List.nodup_finRange 2).filter _

/-- Counters counted once for each index of a list. -/
theorem foldl_count_get {n : Nat} (ps : List (Fin n)) (hn : ps.Nodup) (v : Vector Nat n) (p : Fin n) :
    (ps.foldl (fun v p => upd v p (· + 1)) v).get p = v.get p + (if p ∈ ps then 1 else 0) := by
  induction ps generalizing v with
  | nil => rfl
  | cons q qs ih =>
    obtain ⟨hq, hqs⟩ := List.nodup_cons.mp hn
    rw [List.foldl_cons, ih hqs, upd_get]
    by_cases hp : p = q
    · subst hp
      simp [hq]
    · simp [hp]

/-- The status frames leave: a frame and a count for each configured port, and the instant. -/
theorem State.statSend_sent (u : State) :
    u.statSend = u.linkMap (fun l => { l with canOut := u.statSend.hub.link.canOut, statAt := u.now, sent := u.statSend.hub.link.sent }) ∧
      u.statSend.hub.link.sent = u.hub.link.cfg.canPorts.map (fun p => ⟨2 + p.1, 0, 0, u.hub.link.cfg.statId, u.statBytes p, 0⟩) ++ u.hub.link.sent ∧
      ∀ p, u.statSend.hub.link.canOut.get p = u.hub.link.canOut.get p + (if p ∈ u.hub.link.cfg.canPorts then 1 else 0) :=
  ⟨rfl, rfl, foldl_count_get _ u.hub.link.cfg.canPorts_nodup _⟩

theorem State.statSend_now {u : State} {n : Nat} (hn : u.now = n) : u.statSend.now = n ∧ u.statSend.hub.link.statAt = u.statSend.now := ⟨hn, rfl⟩

theorem execCanStatusFrame_of_ready {s : State} (hc : s.clocked = true) (hst : s.hub.boot.stage = 4) :
    execCanStatusFrame s = .next (s.advanceTo (s.hub.link.statAt + s.hub.link.cfg.statPer * etPerMs)).statSend := if_neg (by simp [hc, hst])

end Sys2Proof.Machine

open Sys2Proof Sys2Proof.Machine Sys2Proof.Safety

/-- Settles O48: an accepted SETPOINT by its load figure and its request, a backup frame by its alive counter, the status frames by the ports
they count on. -/
theorem setpointsArriveAndWait : Obligations.SetpointsArriveAndWait := by
  unfold Obligations.SetpointsArriveAndWait
  intro m port ident data s
  refine ⟨fun h => ⟨_, execSetpoint_of_heard h, ?_⟩, ?_, fun hc hst => ⟨_, execCanStatusFrame_of_ready hc hst, State.statSend_sent _,
    State.statSend_now (State.advanceTo_now ..)⟩⟩
  · obtain ⟨hr, hm⟩ := rung_link 1 1 m s
    have hload : (rung 1 1 m s).hub.load = s.hub.load := (rung_hub 1 1 m s).2
    simp only [State.linkMap_hub, State.takeLoad_hub, hr, hm, hload, and_self]
  · intro l al hc hst he hp hl hcrc c hi hb set good
    have row : Machine.exec (.canBackupFrame port ident data) s = _ := congrArg Host.Outcome.next
      (State.canBackup_of_whole hc hst he hp hl hcrc hi hb)
    refine ⟨fun hn => ?_, fun old ho _ => ⟨fun h1 => ?_, fun h2 => ?_, fun h1 h2 => ?_⟩⟩
    · rw [row, hn]
      rfl
    · rw [row, ho]
      exact congrArg Host.Outcome.next (if_pos h1)
    · rw [row, ho]
      exact congrArg Host.Outcome.next ((if_neg (by omega)).trans (if_pos h2))
    · rw [row, ho]
      exact congrArg Host.Outcome.next ((if_neg h1).trans (if_neg h2))

/-- Settles O56: the four rows by their conditions, the sleep by the completion that leaves. -/
theorem serviceMailbox : Obligations.ServiceMailbox := by
  unfold Obligations.ServiceMailbox
  intro m s
  exact ⟨runs_of rfl fun _ _ _ => rfl, fun r u p hm hc => congrArg (fun t : State => t.hub.link.asleep) (if_pos (by simp [hm, hc])),
    runs_of rfl fun _ _ _ => rfl, runs_of rfl fun _ _ _ => rfl, runs_of rfl fun _ _ _ => rfl⟩

end

section
/-! PROOFS. What no command undoes: the owner key, the rollback floor, and that not both firmware slots are ACTIVE (R450, R492, R493, R498). -/

namespace Sys2Proof.Machine

open Sys2Proof Sys2Proof.Safety

/-! ### Slots that become ACTIVE -/

/-- No slot that was not ACTIVE has become so. -/
def NoneActivated (v w : Vector FwSlot 2) : Prop := ∀ i, (w.get i).st = 3 → (v.get i).st = 3

theorem NoneActivated.refl (v : Vector FwSlot 2) : NoneActivated v v := fun _ => id

theorem NoneActivated.trans {u v w : Vector FwSlot 2} (h : NoneActivated u v) (k : NoneActivated v w) : NoneActivated u w :=
  fun i => h i ∘ k i

/-- A slot that changes without becoming ACTIVE. -/
theorem NoneActivated.upd {v : Vector FwSlot 2} {i : Fin 2} {f : FwSlot → FwSlot} (h : ∀ x, (f x).st = 3 → x.st = 3) :
    NoneActivated v (upd v i f) := fun j => by
  rw [upd_get]
  split
  · next e => exact e ▸ h _
  · exact id

/-- Verification, an attempt and the end of a trial activate no slot (R492). -/
theorem Flash.fail_fw (i : Fin 2) (f : Flash) : NoneActivated f.fw (f.fail i).fw := NoneActivated.upd fun x h => by
  split at h
  · exact h
  · nomatch h

theorem Flash.attempt_fw (i : Fin 2) (f : Flash) : NoneActivated f.fw (f.attempt i).fw :=
  NoneActivated.upd (f := fun s => if s.st = 2 then { s with tries := s.tries + 1 } else s) fun x h => by
    split at h <;> exact h

theorem Flash.endTrials_fw (f : Flash) : NoneActivated f.fw f.endTrials.1.fw := fun i h => by
  have e : f.endTrials.1.fw.get i = if (f.fw.get i).st = 2 && 3 ≤ (f.fw.get i).tries then { f.fw.get i with st := 4 } else f.fw.get i :=
    Vector.getElem_map ..
  rw [e] at h
  split at h
  · nomatch h
  · exact h

theorem Flash.select_fw (f : Flash) : NoneActivated f.fw f.select.1.fw := by
  unfold Flash.select
  split
  · next i _ =>
    dsimp only
    split
    · exact f.attempt_fw i
    · split
      · exact (f.fail_fw i).trans ((f.fail i).attempt_fw (1 - i))
      · exact (f.fail_fw i).trans ((f.fail i).fail_fw (1 - i))
  · extract_lets i ok f1
    split
    · exact f.attempt_fw i
    · split
      · exact (f.fail_fw i).trans ((f.fail i).attempt_fw (1 - i))
      · exact (f.fail_fw i).trans ((f.fail i).fail_fw (1 - i))

/-! ### What a vault keeps -/

/-- Not both slots of a vault are ACTIVE. -/
def Vault.oneActive (v : Vault) : Prop := ¬ ((v.fw.get 0).st = 3 ∧ (v.fw.get 1).st = 3)

/-- From one vault to the next an enrolled owner key stays, the floor does not fall, and no second slot becomes ACTIVE. -/
structure Vault.Holds (v w : Vault) : Prop where
  owner  : ∀ k, v.owner = some k → w.owner = some k
  floor  : v.floor ≤ w.floor
  active : v.oneActive → w.oneActive

/-- Where the owner key and the floor are the same and no slot has become ACTIVE. -/
theorem Vault.Holds.of_noneActivated {v w : Vault} (ho : w.owner = v.owner) (hf : w.floor = v.floor) (ha : NoneActivated v.fw w.fw) :
    v.Holds w := ⟨fun _ h => ho.trans h, hf.ge, fun h k => h ⟨ha 0 k.1, ha 1 k.2⟩⟩

theorem Vault.Holds.of_clock {v w : Vault} {f : Word} {n : Nat} (h : w = v.clock f n) : v.Holds w := by
  subst h
  exact .of_noneActivated rfl rfl (.refl _)

theorem Vault.Holds.of_eq {v w : Vault} (h : w = v) : v.Holds w := by
  subst h
  exact .of_noneActivated rfl rfl (.refl _)

/-! ### The commands that open the vault -/

/-- OWNER_ENROL enrols a key only where there is none (R450, R498). -/
theorem execOwnerEnrol_holds {m : Msg} {s t : State} (q : execOwnerEnrol m s = .next t) : s.vault.Holds t.vault := by
  have hv := execOwnerEnrol_vault m s t q
  cases Host.Outcome.next.inj q
  obtain h | ⟨a, u, hu, hn, -⟩ := State.request_vault_cases (serve := State.serveEnrol) (fun _ _ => rfl)
  · exact .of_eq h
  · have free : u.hub.flash.owner = none := by simpa using List.find?_eq_none.mp hn _ List.mem_cons_self
    rw [hv]
    exact ⟨fun k h => absurd (free.symm.trans ((congrArg Vault.owner hu).trans h)) nofun, le_rfl, id⟩

/-- A request that activates no firmware slot and leaves the rest of the vault. -/
theorem holds_of_fw {s t u : State} (hv : t.vault = { s.vault with fw := t.vault.fw }) (hu : u.vault = s.vault)
    (h : NoneActivated u.vault.fw t.vault.fw) : s.vault.Holds t.vault := by
  rw [hv]
  exact .of_noneActivated rfl rfl (hu ▸ h)

/-- A firmware slot that changes without becoming ACTIVE. -/
theorem State.slotFw_noneActivated {i : Fin 2} {f : FwSlot → FwSlot} (s : State) (h : ∀ x, (f x).st = 3 → x.st = 3) :
    NoneActivated s.vault.fw (s.slotFw i f).vault.fw := NoneActivated.upd h

/-- FW_BEGIN empties the idle slot (R450). -/
theorem execFwBegin_holds {m : Msg} {s t : State} (q : execFwBegin m s = .next t) : s.vault.Holds t.vault := by
  have hv := execFwBegin_vault m s t q
  cases Host.Outcome.next.inj q
  obtain h | ⟨a, u, hu, -, h⟩ := State.request_vault_cases (serve := State.serveFwBegin) (fun _ _ => rfl)
  · exact .of_eq h
  · refine holds_of_fw hv hu ?_
    rw [h, State.done_vault, State.cfgMap_vault]
    exact u.slotFw_noneActivated nofun

/-- FW_CHUNK leaves the idle slot's state (R450). -/
theorem execFwChunk_holds {m : Msg} {s t : State} (q : execFwChunk m s = .next t) : s.vault.Holds t.vault := by
  have hv := execFwChunk_vault m s t q
  cases Host.Outcome.next.inj q
  obtain h | ⟨a, u, hu, -, h⟩ := State.request_vault_cases (serve := State.serveFwChunk) (fun _ _ => rfl)
  · exact .of_eq h
  · refine holds_of_fw hv hu ?_
    rw [h, State.done_vault, State.cfgMap_vault]
    exact u.slotFw_noneActivated fun _ => id

/-- FW_COMMIT makes the idle slot TRIAL (R450, R492). -/
theorem execFwCommit_holds {m : Msg} {s t : State} (q : execFwCommit m s = .next t) : s.vault.Holds t.vault := by
  have hv := execFwCommit_vault m s t q
  cases Host.Outcome.next.inj q
  obtain h | ⟨a, u, hu, -, h⟩ := State.request_vault_cases (serve := State.serveFwCommit) (fun _ _ => rfl)
  · exact .of_eq h
  · refine holds_of_fw hv hu ?_
    rw [h, State.done_vault, State.log_vault, State.cfgMap_vault]
    exact u.slotFw_noneActivated nofun

/-- A boot fallback ends the trials alone. -/
theorem State.bootFallback_fw (s : State) : NoneActivated s.hub.flash.fw s.bootFallback.hub.flash.fw := by
  unfold State.bootFallback
  split
  · have e : (State.moduleReset 13 (s.flashMap fun f => f.endTrials.1)).hub.flash.fw = s.hub.flash.endTrials.1.fw :=
      congrArg Vault.fw (State.moduleReset_vault ..)
    exact e ▸ s.hub.flash.endTrials_fw
  · exact .refl _

/-- COLD_BOOT activates no slot: the boot fallback and the ROM count, fail and select (R492). -/
theorem State.coldBoot_fw (s : State) : NoneActivated s.vault.fw s.coldBoot.vault.fw := by
  have hs := s.bootFallback_fw.trans ((Flash.endTrials_fw _).trans (Flash.select_fw _))
  unfold State.coldBoot
  split
  · exact .refl _
  · dsimp only
    split
    · split <;> exact hs
    · split <;> exact hs

theorem execColdBoot_holds {s t : State} (q : execColdBoot s = .next t) : s.vault.Holds t.vault := by
  have hv := execColdBoot_vault s t q
  cases Host.Outcome.next.inj q
  rw [hv]
  exact .of_noneActivated rfl rfl s.coldBoot_fw

/-! ### The confirmation of a trial (R492, R493) -/

/-- The flash once the trial of a slot and its image is confirmed: that slot ACTIVE, another that was ACTIVE VALID, the floor raised where the
image says so. -/
def Flash.confirm (i : Fin 2) (img : List Byte) (f : Flash) : Flash := { f with
  fw := Vector.ofFn (fun j : Fin 2 =>
    if j = i then { f.fw.get j with st := 3, tries := 0 } else if (f.fw.get j).st = 3 then { f.fw.get j with st := 1 } else f.fw.get j)
  floor := if fwRaises img then max f.floor (fwSecver img) else f.floor }

/-- TRIAL_CONFIRM of a trial that runs in READY or NO_CONFIG confirms it at its 60 s. -/
theorem State.trialConfirm_of_trial {s : State} (hc : s.clocked = true) (ht : s.hub.boot.trial = true)
    (hs : s.hub.boot.stage = 4 ∨ s.hub.boot.stage = 5) : s.trialConfirm =
      let u := s.advanceTo (s.hub.boot.since + 60 * etPerSec)
      let i : Fin 2 := if s.hub.boot.slot then 1 else 0
      (u.flashMap (Flash.confirm i (u.hub.flash.fw.get i).img)).bootMap (fun b => { b with trial := false }) :=
  if_neg (by rcases hs with hs | hs <;> simp [hc, ht, hs])

/-- Else it leaves the state. -/
theorem State.trialConfirm_of_not {s : State} (h : ¬ (s.clocked = true ∧ s.hub.boot.trial = true ∧ (s.hub.boot.stage = 4 ∨ s.hub.boot.stage = 5))) :
    s.trialConfirm = s := if_pos (by simpa [imp_iff_not_or, or_assoc] using h)

theorem Flash.confirm_self (i : Fin 2) (img : List Byte) (f : Flash) : ((f.confirm i img).fw.get i).st = 3 := by
  have e : (f.confirm i img).fw.get i = _ := Vector.get_ofFn ..
  rw [e, if_pos rfl]

theorem Flash.confirm_other {i j : Fin 2} (img : List Byte) (f : Flash) (h : j ≠ i) : ((f.confirm i img).fw.get j).st ≠ 3 := by
  have e : (f.confirm i img).fw.get j = _ := Vector.get_ofFn ..
  rw [e, if_neg h]
  split
  · nofun
  · assumption

theorem Flash.confirm_floor (i : Fin 2) (img : List Byte) (f : Flash) : f.floor ≤ (f.confirm i img).floor := by
  unfold Flash.confirm
  dsimp only
  split
  · exact Nat.le_max_left ..
  · exact le_rfl

/-- A confirmation leaves one slot ACTIVE. -/
theorem Flash.confirm_oneActive (i : Fin 2) (img : List Byte) (f : Flash) :
    ¬ (((f.confirm i img).fw.get 0).st = 3 ∧ ((f.confirm i img).fw.get 1).st = 3) := by
  rintro ⟨h0, h1⟩
  match i with
  | 0 => exact f.confirm_other img (by decide) h1
  | 1 => exact f.confirm_other img (by decide) h0

theorem State.confirm_holds (i : Fin 2) (img : List Byte) (s : State) : s.vault.Holds (s.flashMap (Flash.confirm i img)).vault :=
  ⟨fun _ => id, s.hub.flash.confirm_floor i img, fun _ => s.hub.flash.confirm_oneActive i img⟩

/-- TRIAL_CONFIRM raises the floor at most and leaves one slot ACTIVE (R492, R493). -/
theorem execTrialConfirm_holds {s t : State} (q : execTrialConfirm s = .next t) : s.vault.Holds t.vault := by
  cases Host.Outcome.next.inj q
  by_cases h : s.clocked = true ∧ s.hub.boot.trial = true ∧ (s.hub.boot.stage = 4 ∨ s.hub.boot.stage = 5)
  · obtain ⟨hc, ht, hs⟩ := h
    rw [State.trialConfirm_of_trial hc ht hs, State.bootMap_vault, ← State.advanceTo_vault (s.hub.boot.since + 60 * etPerSec) s]
    exact State.confirm_holds ..
  · exact .of_eq (congrArg State.vault (State.trialConfirm_of_not h))

/-! ### Every command -/

/-- Every command but REQ_DB_WRITE. -/
theorem exec_holds_of_not_reqDb {s t : State} (c : Instr) (hc : ringsReqDb c = false) (q : exec c s = .next t) :
    s.vault.Holds t.vault := by
  cases ho : opensVault c with
  | false => exact .of_clock (exec_vault_clock c ho q)
  | true =>
    cases c with
    | ownerEnrol m => exact execOwnerEnrol_holds q
    | fwBegin m => exact execFwBegin_holds q
    | fwChunk m => exact execFwChunk_holds q
    | fwCommit m => exact execFwCommit_holds q
    | coldBoot => exact execColdBoot_holds q
    | trialConfirm => exact execTrialConfirm_holds q
    | reqDbWrite len => nomatch hc
    | _ => nomatch ho

/-- Every command: REQ_DB_WRITE does what a message's row does in a state with the same vault. -/
theorem exec_holds {s t : State} (c : Instr) (q : exec c s = .next t) : s.vault.Holds t.vault := by
  cases c with
  | reqDbWrite len =>
    obtain ⟨u, hu, h⟩ | ⟨c, u, hr, -, hu, h⟩ := execReqDbWrite_cases len s
    · rw [← Host.Outcome.next.inj (h.symm.trans q)]
      exact .of_eq hu
    · exact hu ▸ exec_holds_of_not_reqDb c hr (h.symm.trans q)
  | _ => exact exec_holds_of_not_reqDb _ rfl q

/-- Every step: time opens no vault either. -/
theorem step_holds {s t : State} (q : step s = .next t) : s.vault.Holds t.vault := by
  cases hp : s.pending with
  | nil =>
    rw [step_of_pending_nil hp] at q
    cases Host.Outcome.next.inj q
    exact .of_eq ((State.late_vault ..).trans (State.advance_vault ..))
  | cons c rest =>
    rw [step_of_pending_cons hp] at q
    obtain ⟨owner, floor, active⟩ := exec_holds c q
    exact ⟨owner, floor, active⟩

end Sys2Proof.Machine

open Sys2Proof Sys2Proof.Machine

/-- Settles O9: the owner key is part of the vault, whose every change holds an enrolled key. -/
theorem ownerKeyIsPermanent : Obligations.OwnerKeyIsPermanent := by
  unfold Obligations.OwnerKeyIsPermanent
  exact fun k _ _ q => (step_holds q).owner k

/-- Settles O10: only a trial's confirmation changes the floor, to the greater of the floor and the image's SECVER. -/
theorem rollbackFloorNeverFalls : Obligations.RollbackFloorNeverFalls := by
  unfold Obligations.RollbackFloorNeverFalls
  exact fun _ _ q => (step_holds q).floor

/-- Settles O11: only a trial's confirmation activates a slot, and it ends the other's being ACTIVE. -/
theorem neverTwoActiveFirmwareSlots : Obligations.NeverTwoActiveFirmwareSlots := by
  unfold Obligations.NeverTwoActiveFirmwareSlots
  exact fun _ _ h q => (step_holds q).active h

/-- Settles O8: slot 1 of the module after reset is EMPTY, and nothing has raised the floor. -/
theorem resetHasOneActiveSlotAndNoOwner : Obligations.ResetHasOneActiveSlotAndNoOwner := by
  unfold Obligations.ResetHasOneActiveSlotAndNoOwner
  refine ⟨fun h => ?_, Nat.zero_le _, rfl, rfl⟩
  exact absurd h.2 (show (0 : Nat) ≠ 3 by decide)

end

section
/-! PROOFS. Mailbox 2: the transfer of an image and what its chunks make of it, the end of a flash write, the reads and LINK_SET (R426 to R431). -/

namespace Sys2Proof.Machine

open Sys2Proof Sys2Proof.Safety

/-! ### What a message of a transfer leaves alone -/

theorem LinkOnly.ite {c : Prop} [Decidable c] {s t u : State} (ht : LinkOnly s t) (hu : LinkOnly s u) : LinkOnly s (if c then t else u) := by
  split
  · exact ht
  · exact hu

theorem LinkOnly.refuse (mb cmd : Nat) (seq : BitVec 16) (status : Nat) (s : State) : LinkOnly s (s.refuse mb cmd seq status) := .postEntry ..

theorem LinkOnly.checkFail (i : Option (Fin 9)) (s : State) : LinkOnly s (s.checkFail i) := by
  cases i with
  | none => exact .checkFail_none s
  | some i =>
    unfold State.checkFail
    have h (f : HostLink → HostLink) := (LinkOnly.checkFail_none s).then_ (.linkMap f _)
    exact .ite (h _) (((h _).then_ (.linkMap ..)).then_ (.raiseHub ..))

theorem LinkOnly.aliveCheck (mb : Fin 8) (cmd : Nat) (m : Msg) (s : State) : LinkOnly s (s.aliveCheck mb cmd m).1 := by
  have hf : LinkOnly s (s.follow mb m) := .linkMap ..
  cases h : s.hub.link.alive.get mb with
  | none => exact (State.aliveCheck_of_first cmd h) ▸ hf
  | some a =>
    rw [State.aliveCheck_of_some cmd h]
    split
    · exact hf
    · split
      · exact hf.then_ (.raiseHub ..)
      · split
        · exact (LinkOnly.refuse ..).then_ (.checkFail ..)
        · exact (hf.then_ (.refuse ..)).then_ (.checkFail ..)

/-- A message at its check unit. -/
theorem LinkOnly.hear (mb : Fin 8) (cmd : Nat) (m : Msg) (s : State) : LinkOnly s (s.hear mb cmd m).1 := by
  have ha := LinkOnly.aliveCheck mb cmd m s
  unfold State.hear
  split
  · exact .same s
  · split
    · exact .checkFail ..
    · dsimp only
      split
      · exact .same s
      · split
        · exact ha
        · exact ((ha.then_ (.linkMap ..)).then_ (.wake _)).then_ (.doorbell ..)

/-- A request changes the link alone until it is served. -/
theorem State.request_cases (mb : Fin 8) (cmd : Nat) (len : Ask → Nat) (serve : Ask → State → State) (m : Msg) (s : State) :
    LinkOnly s (s.request mb cmd len serve m) ∨ ∃ a u, LinkOnly s u ∧ s.request mb cmd len serve m = serve a u := by
  have hh := LinkOnly.hear mb cmd m s
  unfold State.request State.accept
  dsimp only
  split
  · exact .inl hh
  · split
    · exact .inl (hh.then_ (.refuse ..))
    · split
      · exact .inl (hh.then_ (.refuse ..))
      · split
        · exact .inl (hh.then_ (.refuse ..))
        · split
          · exact .inl (hh.then_ (.refuse ..))
          · exact .inr ⟨_, _, hh.then_ (.linkMap ..), rfl⟩

/-- The committed image, its decoded form and the halves are those of another state. -/
def SameInForce (s t : State) : Prop := t.hub.cfg.bytes = s.hub.cfg.bytes ∧ t.hub.cfg.img = s.hub.cfg.img ∧ t.a = s.a ∧ t.b = s.b

theorem LinkOnly.sameInForce {s t : State} (h : LinkOnly s t) : SameInForce s t := by
  obtain ⟨l, w, f, rfl⟩ := h
  exact ⟨rfl, rfl, rfl, rfl⟩

theorem SameInForce.then_ {s t u : State} (h : SameInForce s t) (k : SameInForce t u) : SameInForce s u := by
  obtain ⟨hb, hi, ha, hb'⟩ := h
  obtain ⟨kb, ki, ka, kb'⟩ := k
  exact ⟨kb.trans hb, ki.trans hi, ka.trans ha, kb'.trans hb'⟩

/-- The staging area is not the committed image. -/
theorem sameInForce_stage (f : CfgSt → Option Xfer) (s : State) : SameInForce s (s.cfgMap (fun c => { c with stage := f c })) := ⟨rfl, rfl, rfl, rfl⟩

/-- A request that is refused, or does something to what is not in force, leaves what is in force. -/
theorem checked_sameInForce {a : Ask} {cs : List (Bool × Nat)} {ok : State → State} {s : State} (h : SameInForce s (ok s)) :
    SameInForce s (s.checked a cs ok) := by
  unfold State.checked
  split
  · exact (LinkOnly.done ..).sameInForce
  · exact h

theorem request_sameInForce {mb : Fin 8} {cmd : Nat} {len : Ask → Nat} {serve : Ask → State → State} {m : Msg} {s : State}
    (h : ∀ a u, SameInForce u (serve a u)) : SameInForce s (s.request mb cmd len serve m) := by
  obtain k | ⟨a, u, k, e⟩ := State.request_cases mb cmd len serve m s
  · exact k.sameInForce
  · exact e ▸ k.sameInForce.then_ (h a u)

theorem stage_done_sameInForce (f : CfgSt → Option Xfer) (a : Ask) (s : State) :
    SameInForce s ((s.cfgMap (fun c => { c with stage := f c })).done a 0 []) :=
  (sameInForce_stage f s).then_ (LinkOnly.done ..).sameInForce

/-! ### The transfer (R427) -/

/-- A completion leaves the transfer. -/
theorem State.done_stage (a : Ask) (status : Nat) (p : List Byte) (s : State) : (s.done a status p).hub.cfg.stage = s.hub.cfg.stage := by
  obtain ⟨l, w, f, h⟩ := LinkOnly.done a status p s
  rw [h]

/-- One more chunk lies over those before it. -/
theorem Xfer.add_bytes (ofs : Nat) (d : List Byte) (x : Xfer) : (x.add ofs d).bytes = overlay x.bytes ofs d := by
  simp only [Xfer.add, Xfer.bytes, List.reverse_cons, List.foldl_append, List.foldl_cons, List.foldl_nil]

/-- A chunk is checked by its alignment and size, then by whether a transfer is open, then by the transfer's length. -/
theorem Ask.chunkChecks_of_aligned {a : Ask} (x : Option Xfer) (ho : a.w 16 % 4 = 0) (hn : a.h 20 % 4 = 0) (h4 : 4 ≤ a.h 20) (hm : a.h 20 ≤ 992)
    (hd : a.dirty 22 2 = false) : a.chunkChecks x = [(false, 0x104), (x.isNone, 0x117), (x.any (fun t => t.len < a.w 16 + a.h 20), 0x104)] := by
  simp [Ask.chunkChecks, ho, hn, hd, Nat.not_lt.mpr h4, Nat.not_lt.mpr hm]

/-! ### The end of the flash write (R428) -/

theorem execConfigFlashWriteDone_of_cons {ok : Bool} {s : State} {b : List Byte} {q : BitVec 16} {t : List (List Byte × BitVec 16)}
    (hs : s.hubOn = true) (hw : s.hub.cfg.write = (b, q) :: t) : execConfigFlashWriteDone ok s =
      .next (let u := s.cfgMap (fun c => { c with write := t })
        (if ok then u.flashMap (Flash.putImage b) else u).finish 2 q (if ok then 0 else 0x0116) []) := by
  unfold execConfigFlashWriteDone
  rw [hw]
  exact if_neg (by simp [hs])

/-! ### CONFIG_COMMIT and its dry run (R426) -/

/-- A message of CONFIG_COMMIT belongs to the row its DRY_RUN bit names. -/
theorem execConfigCommit_of_even {m : Msg} (s : State) (h : byteAt m.payload 0 % 2 = 0) :
    execConfigCommit m s = .next (s.request 2 3 (fun _ => 36) State.serveCommit m) := if_neg (by omega)

theorem execConfigDryRun_of_odd {m : Msg} (s : State) (h : byteAt m.payload 0 % 2 = 1) :
    execConfigDryRun m s = .next (s.request 2 3 (fun _ => 36) State.serveDryRun m) := if_neg (by omega)

end Sys2Proof.Machine

open Sys2Proof Sys2Proof.Machine

/-- Settles O50: a chunk joins at the head of the list that the bytes fold; what a transfer's messages change is the link and the staging area. -/
theorem imageTransferFollowsItsChunks : Obligations.ImageTransferFollowsItsChunks := by
  unfold Obligations.ImageTransferFollowsItsChunks
  intro a m s
  refine ⟨fun h1 h2 hd => ⟨?_, h2⟩, fun ho hn h4 hm hd => ?_, State.done_stage .., fun c hc t q => ?_⟩
  · unfold State.serveImageBegin
    rw [State.checked_of_none _ (by simp [hd, Nat.not_lt.mpr h1, Nat.not_lt.mpr h2]), State.done_stage]
    rfl
  · unfold State.serveImageChunk
    rw [Ask.chunkChecks_of_aligned _ ho hn h4 hm hd]
    refine ⟨fun x hx hl => ⟨x.add (a.w 16) (a.bytes 24 (a.h 20)), ?_, rfl, Xfer.add_bytes ..⟩, fun x hx hl => ?_, fun hx => ?_⟩
    · rw [State.checked_of_none _ (by simp [hx, Nat.not_lt.mpr hl]), State.done_stage]
      exact congrArg (Option.map _) hx
    · simp [State.checked, hx, hl]
    · simp [State.checked, hx]
  · simp only [List.mem_cons, List.not_mem_nil, or_false] at hc
    obtain rfl | rfl | rfl := hc
    · exact Host.Outcome.next.inj q ▸ request_sameInForce fun a u => checked_sameInForce (stage_done_sameInForce _ a u)
    · exact Host.Outcome.next.inj q ▸ request_sameInForce fun a u => checked_sameInForce (stage_done_sameInForce _ a u)
    · exact Host.Outcome.next.inj q ▸ request_sameInForce fun a u => stage_done_sameInForce _ a u

/-- Settles O49: each request is a row of the link, CONFIG_COMMIT's by its DRY_RUN bit; the flash write by its outcome. -/
theorem configurationMailbox : Obligations.ConfigurationMailbox := by
  unfold Obligations.ConfigurationMailbox
  intro m s ok chunk
  refine ⟨runs_of rfl fun _ _ _ => rfl, runs_of rfl fun _ _ _ => rfl, runs_of rfl fun _ _ _ => rfl,
    fun h => runs_of (execConfigCommit_of_even s h) fun _ _ _ => rfl, fun h => runs_of (execConfigDryRun_of_odd s h) fun _ _ _ => rfl,
    fun b q t hs hw => ?_, runs_of rfl fun _ _ _ => rfl, runs_of rfl fun _ _ _ => rfl, runs_of rfl fun _ _ _ => rfl⟩
  refine (execConfigFlashWriteDone_of_cons hs hw).trans ?_
  cases ok <;> rfl

end

section
/-! PROOFS. Mailboxes 5 and 6: the reads of the Tarn, attestation, keys, JTAG and the firmware transfer (R446, R447, R449, R450, R491 to R500). -/

namespace Sys2Proof.Machine

open Sys2Proof

/-! ### TARN_INFO (R446) -/

/-- What TARN_INFO answers. -/
def Tarn.info (t : Tarn) : List Byte :=
  le 4 (ends t.recs).1.1 ++ le 4 (ends t.recs).2.1 ++ leW (ends t.recs).1.2 ++ leW (ends t.recs).2.2 ++ le 4 (ends t.blocks).1.1 ++
    le 4 (ends t.blocks).2.1 ++ le 4 t.used

theorem le_length (n v : Nat) : (le n v).length = n := by
  induction n generalizing v with
  | zero => rfl
  | succ n ih => exact congrArg Nat.succ (ih _)

theorem Tarn.info_length (t : Tarn) : t.info.length = 28 := by
  simp only [Tarn.info, leW, List.length_append, le_length]

/-- The newest record of any cylinder is the first that is no continuation. -/
theorem Tarn.named_any (t : Tarn) (cyc : Nat) : t.named 0 cyc = t.recs.find? (fun r => byteAt r.bytes 0 = 0) := by
  simp [Tarn.named]

/-! ### JTAG and boundary scan (R500) -/

theorem execJtagClose_of_open {s : State} {f t : Nat} (hc : s.clocked = true) (hj : s.hub.sec.jtag = some (f, t)) :
    execJtagClose s = .next ((s.advanceTo t).jtagShut) := by
  unfold execJtagClose
  rw [hj]
  exact congrArg Host.Outcome.next (if_pos hc)

theorem State.jtagShut_of_none {s : State} (h : s.hub.sec.jtag = none) : s.jtagShut = s := by
  unfold State.jtagShut
  rw [h]

/-- Boundary scan drives the pins of a half whose kill latch is set, while JTAG is open. -/
theorem State.scanLevel_of_open {s : State} {id : HalfId} (f : HalfId → Fin 48 → Bool) (k : Fin 48) (hj : s.hub.sec.jtag ≠ none)
    (hl : (s.half id).fg.latch = true) : s.scanLevel (some f) id k = f id k :=
  if_pos (by simp [hl, Option.isSome_iff_ne_none.mpr hj])

theorem State.scanLevel_of_shut {s : State} {id : HalfId} (f : HalfId → Fin 48 → Bool) (k : Fin 48)
    (h : s.hub.sec.jtag = none ∨ (s.half id).fg.latch = false) : s.scanLevel (some f) id k = (s.half id).pinLevel k :=
  if_neg (by rcases h with h | h <;> simp [h])

end Sys2Proof.Machine

open Sys2Proof Sys2Proof.Machine

/-- Settles O54: each request is a row of the link; TARN_INFO's answer is seven words. -/
theorem recordsMailbox : Obligations.RecordsMailbox := by
  unfold Obligations.RecordsMailbox
  intro m s
  exact ⟨runs_of rfl fun _ _ _ => rfl, ⟨fun u => u.hub.tarn.info, runs_of rfl fun _ _ _ => rfl, fun u => u.hub.tarn.info_length⟩,
    runs_of rfl fun _ _ _ => rfl, Tarn.named_any, runs_of rfl fun _ _ _ => rfl, runs_of rfl fun _ _ _ => rfl⟩

/-- Settles O55: each request is a row of the link; JTAG's end and boundary scan by whether it is open. -/
theorem securityMailbox : Obligations.SecurityMailbox := by
  unfold Obligations.SecurityMailbox
  intro m s
  refine ⟨runs_of rfl fun _ _ _ => rfl, runs_of rfl fun _ _ _ => rfl, runs_of rfl fun _ _ _ => rfl, runs_of rfl fun _ _ _ => rfl,
    runs_of rfl fun _ _ _ => rfl, fun f t hc hj => execJtagClose_of_open hc hj, State.jtagShut_of_none,
    runs_of rfl fun _ _ _ => rfl, runs_of rfl fun _ _ _ => rfl,
    fun f id k => ⟨State.scanLevel_of_open f k, State.scanLevel_of_shut f k⟩, runs_of rfl fun a u _ => ?_⟩
  unfold State.serveFwCommit
  rfl

end

section
/-! PROOFS. Supply, KEY and boot: the ROM's choice of a slot, the boot fallback, the stages, a trial's confirmation and the stop of the dies
(R481 to R494). -/

namespace Sys2Proof.Machine

open Sys2Proof

/-! ### Supply and KEY (R481, R482, R484) -/

theorem execSupplyApply_of_not_clocked {s : State} (dV : Nat) (key : Bool) (h : s.clocked = false) : execSupplyApply dV key s =
    .next (s.bootMap (fun b => { b with
      v := dV, key := key, cause := 0, prev := 0, count := 0, keyAt := none, next := if key then 1 else 3 })) :=
  congrArg Host.Outcome.next (if_neg (ne_true_of_eq_false h))

/-- KEY high with the dies at rest: from 13.0 V on everything restarts, with the cause that waits. -/
theorem execKeyHigh_of_not_clocked {dV : Nat} {s : State} (h : s.clocked = false) (hv : 130 ≤ dV) : execKeyHigh dV s =
    .next (((s.bootMap (fun b => { b with v := dV, key := true, keyAt := none })).allReset).bootMap
      (fun b => { b.record s.hub.boot.next with awake := true })) :=
  congrArg Host.Outcome.next ((if_neg (ne_true_of_eq_false h)).trans (if_neg (Nat.not_lt.mpr hv)))

theorem execKeyHigh_of_clocked {s : State} (dV : Nat) (h : s.clocked = true) :
    execKeyHigh dV s = .next (s.bootMap (fun b => { b with v := dV, key := true, keyAt := none })) := congrArg Host.Outcome.next (if_pos h)

/-! ### The stop of the dies (R483, R484) -/

theorem execShutdown_of_waited {s : State} {t : Nat} (ht : s.hub.boot.keyAt = some t) (hc : s.clocked = true) (hk : s.hub.boot.key = false) :
    execShutdown s = .next (let u := (s.advanceTo (t + 2 * etPerSec)).flashEnds
      (u.log 0x02 0 0 u.hub.frame (le 2 (sat 16 u.hub.boot.v))).down 3) := by
  unfold execShutdown
  rw [ht]
  exact if_neg (by simp [hc, hk])

theorem execUndervoltageShutdown_of_clocked {s : State} (h : s.clocked = true) : execUndervoltageShutdown s =
    .next ((s.log 0x03 0 0 s.hub.frame (le 2 (sat 16 s.hub.boot.v))).down 2) := congrArg Host.Outcome.next (if_neg (by simp [h]))

/-! ### The ROM's choice (R492, R493) -/

/-- What becomes of one slot leaves whether the other verifies and lies at or above the floor. -/
theorem Flash.fail_boots_other (i : Fin 2) (f : Flash) : (f.fail i).boots_ (1 - i) = f.boots_ (1 - i) := by
  have e : (f.fail i).fw.get (1 - i) = f.fw.get (1 - i) := upd_get_ne _ _ _ _ (by revert i; decide)
  have hf : (f.fail i).floor = f.floor := rfl
  unfold Flash.boots_
  rw [e, hf]

/-- The ROM selects only a slot that verifies and lies at or above the floor. -/
theorem Flash.select_boots {f g : Flash} {i : Fin 2} {fb : Bool} (h : f.select = (g, some i, fb)) : f.boots_ i = true := by
  unfold Flash.select at h
  split at h
  · next j _ =>
    dsimp only at h
    split at h
    · next hj =>
      simp only [Prod.mk.injEq, Option.some.injEq] at h
      exact h.2.1 ▸ hj
    · split at h
      · next hj =>
        simp only [Prod.mk.injEq, Option.some.injEq] at h
        rw [Bool.and_eq_true, Flash.fail_boots_other] at hj
        exact h.2.1 ▸ hj.2
      · nomatch h
  · extract_lets j ok f1 at h
    split at h
    · next hj =>
      simp only [Prod.mk.injEq, Option.some.injEq] at h
      exact h.2.1 ▸ (Bool.and_eq_true_iff.mp hj).2
    · split at h
      · next hj =>
        simp only [Prod.mk.injEq, Option.some.injEq] at h
        exact h.2.1 ▸ (f.fail_boots_other j) ▸ (Bool.and_eq_true_iff.mp hj).2
      · nomatch h

/-- Once the trials have ended, none is over. -/
theorem Flash.endTrials_ended {f g : Flash} (h : g.fw = f.endTrials.1.fw) : g.endTrials.2 = false := by
  unfold Flash.endTrials at h ⊢
  dsimp only at h ⊢
  rw [h, Vector.toList_map, List.any_map, List.any_eq_false]
  intro x _
  dsimp only [Function.comp_apply]
  split
  · nofun
  · assumption

/-- The ROM where no boot fallback comes before: the trials end, a slot is selected and picked, or none and the stage is RECOVERY. -/
def State.romSelect (s : State) : State :=
  let r := s.hub.flash.endTrials.1.select
  let f : Flash := if s.hub.boot.warm then r.1 else { r.1 with boots := r.1.boots + 1 }
  let u := (s.flashMap (fun _ => f)).bootMap (BootSt.causeOf s.hub.flash.endTrials.2)
  match r.2.1 with
  | none => u.bootMap (fun b => { b with stage := 6, since := s.now })
  | some i => u.bootMap (fun b => { b with picked := true, slot := i = 1, trial := (f.fw.get i).st = 2, fwFall := r.2.2 })

/-- COLD_BOOT while the ROM has not picked a slot. -/
theorem State.coldBoot_of_unpicked {s : State} (hc : s.clocked = true) (hs : s.hub.boot.stage = 0) (hp : s.hub.boot.picked = false) :
    s.coldBoot = s.bootFallback.romSelect := if_neg (by simp [hc, hs, hp])

theorem State.romSelect_of_none {s : State} (h : s.hub.flash.endTrials.1.select.2.1 = none) : s.romSelect =
    let r := s.hub.flash.endTrials.1.select
    let f : Flash := if s.hub.boot.warm then r.1 else { r.1 with boots := r.1.boots + 1 }
    ((s.flashMap (fun _ => f)).bootMap (BootSt.causeOf s.hub.flash.endTrials.2)).bootMap (fun b => { b with stage := 6, since := s.now }) := by
  unfold State.romSelect
  dsimp only
  rw [h]

theorem State.romSelect_of_some {s : State} {i : Fin 2} (h : s.hub.flash.endTrials.1.select.2.1 = some i) : s.romSelect =
    let r := s.hub.flash.endTrials.1.select
    let f : Flash := if s.hub.boot.warm then r.1 else { r.1 with boots := r.1.boots + 1 }
    ((s.flashMap (fun _ => f)).bootMap (BootSt.causeOf s.hub.flash.endTrials.2)).bootMap (fun b => { b with
      picked := true, slot := i = 1, trial := (f.fw.get i).st = 2, fwFall := r.2.2 }) := by
  unfold State.romSelect
  dsimp only
  rw [h]

/-! ### The boot fallback (R485, R492) -/

/-- The module as the boot fallback resets it: the trials ended, cause BOOT_FALLBACK. -/
def State.fallenBack (s : State) : State := (s.flashMap (fun f => f.endTrials.1)).moduleReset 13

theorem State.bootFallback_of_over {s : State} (h : s.hub.flash.endTrials.2 = true) (hw : s.hub.boot.warm = true) :
    s.bootFallback = s.fallenBack := if_pos (by simp [h, hw])

theorem State.jtagShut_boot (s : State) : s.jtagShut.hub.boot = s.hub.boot := by
  unfold State.jtagShut
  split <;> rfl

theorem State.moduleReset_clocked (c : Nat) (s : State) : (s.moduleReset c).clocked = s.clocked := by
  have h : s.jtagShut.clocked = s.clocked := congrArg BootSt.awake (State.jtagShut_boot s)
  exact h

/-- A second boot fallback does not follow: the trial that had failed is FAILED. -/
theorem State.fallenBack_bootFallback (s : State) : s.fallenBack.bootFallback = s.fallenBack :=
  State.bootFallback_none (.inl (Flash.endTrials_ended (congrArg Vault.fw (State.moduleReset_vault ..))))

/-- With a trial that has failed after a hub reset, COLD_BOOT is that of the module reset. -/
theorem State.coldBoot_of_over {s : State} (hc : s.clocked = true) (hs : s.hub.boot.stage = 0) (hp : s.hub.boot.picked = false)
    (h : s.hub.flash.endTrials.2 = true) (hw : s.hub.boot.warm = true) : s.coldBoot = s.fallenBack.coldBoot := by
  rw [State.coldBoot_of_unpicked hc hs hp, State.bootFallback_of_over h hw,
    State.coldBoot_of_unpicked (s := s.fallenBack) ((State.moduleReset_clocked ..).trans hc) rfl rfl, State.fallenBack_bootFallback]

/-! ### The stages (R489, R494) -/

section

variable {s : State} (hc : s.clocked = true)
include hc

theorem State.stageAdvance_of_rom (hs : s.hub.boot.stage = 0) (hp : s.hub.boot.picked = true) :
    s.stageAdvance = s.bootMap (fun b => { b with stage := 1 }) := by
  unfold State.stageAdvance
  dsimp only
  rw [if_neg (by simp [hc]), hs]
  exact if_pos hp

theorem State.stageAdvance_of_init (hs : s.hub.boot.stage = 1) : s.stageAdvance = s.bootMap (fun b => { b with stage := 2 }) := by
  unfold State.stageAdvance
  dsimp only
  rw [if_neg (by simp [hc]), hs]
  rfl

theorem State.stageAdvance_of_config (hs : s.hub.boot.stage = 2) : s.stageAdvance = s.configDone := by
  unfold State.stageAdvance
  dsimp only
  rw [if_neg (by simp [hc]), hs]
  rfl

/-- HALVES ends in READY; in a cold boot the sensor supplies then start in ascending order. -/
theorem State.stageAdvance_of_halves (hs : s.hub.boot.stage = 3) : s.stageAdvance.hub.boot.stage = 4 ∧
    (s.hub.boot.warm = false → s.stageAdvance.hub.pwr.queue = idxs 24 ∧ s.stageAdvance.hub.pwr.stepAt = s.now) := by
  unfold State.stageAdvance
  dsimp only
  rw [if_neg (by simp [hc]), hs]
  cases s.hub.boot.warm with
  | false => exact ⟨rfl, fun _ => ⟨rfl, rfl⟩⟩
  | true => exact ⟨rfl, nofun⟩

end

theorem State.configDone_of_none {s : State} (h : s.hub.flash.store.find? (fun x => s.storedOk x) = none) (hw : s.hub.boot.warm = false) :
    s.configDone = (s.startHalves.bootMap (fun b => { b with stage := 5, since := s.now })).logBoot := by
  unfold State.configDone
  rw [h, hw]
  rfl

theorem State.configDone_of_some {s : State} {x : List Byte} (h : s.hub.flash.store.find? (fun x => s.storedOk x) = some x)
    (hw : s.hub.boot.warm = false) : s.configDone =
      ((((s.startHalves.bootImage x).bootMap (fun y => { y with stage := 3 })).fallback x).pwrMap (fun p => { p with wheel := true })).settleStart := by
  unfold State.configDone
  rw [h, hw]
  rfl

/-! ### The confirmation of a trial (R492, R493) -/

/-- The slot whose trial is confirmed is ACTIVE, and the floor does not fall. -/
theorem State.confirm_keeps (i : Fin 2) (img : List Byte) (s : State) :
    let t := (s.flashMap (Flash.confirm i img)).bootMap (fun b => { b with trial := false })
    t.hub.boot.trial = false ∧ (t.hub.flash.fw.get i).st = 3 ∧ s.hub.flash.floor ≤ t.hub.flash.floor :=
  ⟨rfl, s.hub.flash.confirm_self i img, s.hub.flash.confirm_floor i img⟩

end Sys2Proof.Machine

open Sys2Proof Sys2Proof.Machine

/-- Settles O59: the rows by their conditions; the ROM's choice by what it selects, the boot fallback by the module it leaves. -/
theorem supplyKeyAndBootStages : Obligations.SupplyKeyAndBootStages := by
  unfold Obligations.SupplyKeyAndBootStages
  intro dV key s b
  refine ⟨fun h => ⟨execSupplyApply_of_not_clocked dV key h, execKeyHigh_of_not_clocked h⟩, execKeyHigh_of_clocked dV, rfl, rfl, rfl,
    fun f g i fb => Flash.select_boots, fun hc hs hp ho hw => ⟨rfl, rfl, rfl, congrArg Host.Outcome.next (State.coldBoot_of_over hc hs hp ho hw)⟩,
    fun hc hs hp hn => ?_, fun hc => ⟨?_, ?_, ?_, ?_, ?_⟩, fun hc ht hs => ?_, rfl, fun t ht hc hk => execShutdown_of_waited ht hc hk,
    execUndervoltageShutdown_of_clocked, fun k => ⟨rfl, rfl⟩⟩
  · have boot : Machine.exec .coldBoot s = .next s.romSelect :=
      congrArg Host.Outcome.next ((State.coldBoot_of_unpicked hc hs hp).trans (congrArg State.romSelect (State.bootFallback_none hn)))
    exact ⟨fun h => boot.trans (congrArg _ (State.romSelect_of_none h)), fun i h => boot.trans (congrArg _ (State.romSelect_of_some h))⟩
  · exact fun hs hp => congrArg Host.Outcome.next (State.stageAdvance_of_rom hc hs hp)
  · exact fun hs => congrArg Host.Outcome.next (State.stageAdvance_of_init hc hs)
  · exact fun hs hf hw => congrArg Host.Outcome.next ((State.stageAdvance_of_config hc hs).trans (State.configDone_of_none hf hw))
  · exact fun x hs hf hw => congrArg Host.Outcome.next ((State.stageAdvance_of_config hc hs).trans (State.configDone_of_some hf hw))
  · exact fun hs => ⟨_, rfl, State.stageAdvance_of_halves hc hs⟩
  · exact ⟨_, congrArg Host.Outcome.next (State.trialConfirm_of_trial hc ht hs), State.confirm_keeps ..⟩

end
